-- ==== Sys2Proof/Word.lean ====
section
/-! DEFINITION. The word types of the RHC-512 and their plainest arithmetic (R4, R7, R181). -/

namespace Sys2Proof

/-- A 32-bit register value (v0–v31, s0–s255). -/
abbrev Word := BitVec 32

/-- A 64-bit value: a register pair, a CSR, a table entry. -/
abbrev DWord := BitVec 64

/-- One byte of memory or scratch. -/
abbrev Byte := BitVec 8

end Sys2Proof
end

