-- ==== Sys2Proof/Syntax.lean ====
section
/-! DEFINITION. The instructions, engine program words, engine steps and machine events of the RHC-512: one
constructor of `Instr` for each row of the opcode table. Rows with an encoding carry the fields of that encoding as
operands (R211 to R230, R347); rows that are events of the machine (what each step holds) carry what the event is
about. -/

namespace Sys2Proof

/-- The operands of one collective step (R347), without its OP. -/
structure CollArgs where
  async : Bool
  vdn : Fin 2048
  dt : Fin 4
  tc : Fin 4
  tag : BitVec 16
  offset : DWord
  length : Word
  value : Word
  deriving DecidableEq, Repr

/-- What every queue command carries (R371): the partition and queue it stands in, and CWADDR. -/
structure CmdHead where
  part : Nat
  queue : Nat
  cw : Nat
  deriving DecidableEq, Repr

/-- An inbound Mardadex flit: the header fields of R410 (KIND is the event's row) and the payload bytes. -/
structure Flit where
  tc : Fin 4
  dvdn : Fin 2048
  svdn : Fin 2048
  tag : BitVec 16
  len : Fin 16
  op : Fin 64
  mask : BitVec 16
  gpa : Nat
  payload : List Byte
  deriving DecidableEq, Repr

/-- What NEGOTIATE_ALGORITHMS asks for (R460): one bit each, whether the requester offers the algorithm. -/
structure SpdmAlgs where
  rsa3072Sha384 : Bool
  secp384r1 : Bool
  aes256Gcm : Bool
  deriving DecidableEq, Repr

/-- Which IDE key set a request names (R460): stream, direction (0 receive, 1 transmit) and set. -/
structure IdeKeySet where
  stream : Nat
  dir : Fin 2
  set : Fin 2
  deriving DecidableEq, Repr

/-- The device and partition registers that the host driver (or the partition runtime) writes and that have no row of
their own in the opcode table. A partition register carries its partition slot. -/
inductive DevReg where
  | hbmpwr                    -- R79
  | hptctl                    -- R100
  | hptbase                   -- R100
  | hpthead                   -- R100
  | hpttail                   -- R100
  | chretire                  -- R96 (the CHAN field; GO has its own row)
  | vlogbase (part : Nat)     -- R50
  | vloghead (part : Nat)     -- R50
  | vlogtail (part : Nat)     -- R50
  | fqbase (part : Nat)       -- R395
  | fabwt (part : Nat)        -- R415
  | migctl (part : Nat)       -- R426 (AUTO, DVDN, PORTS, SELF, GOVRATE; GO, STOP, ABORT have their own rows)
  | miglist (part : Nat)      -- R426
  | migin (part : Nat)        -- R429
  | rostsel                   -- R413
  | rostdata                  -- R413
  | wbsel                     -- R469
  | seccmd                    -- R449
  | partBlock (part : Nat) (word : Fin 5)   -- R362: QTBASE, QTLEN, FNBASE, LOCKAREA, LTBASE
  deriving DecidableEq, Repr

/-- One constructor per row of the opcode table. In lane instructions `d`, `a`, `b`, `i`, `r` are register numbers,
`f` is FSET (R215) and `s` is STALL (R214); a pair or quad is named by its first register. -/
inductive Instr where
  | add (d a b : Fin 32) (f : Fin 16) (s : Fin 8)  -- ADD (R240)
  | sub (d a b : Fin 32) (f : Fin 16) (s : Fin 8)  -- SUB (R240)
  | mul (d a b : Fin 32) (f : Fin 16) (s : Fin 8)  -- MUL (R240)
  | mulhi (d a b : Fin 32) (f : Fin 16) (s : Fin 8)  -- MULHI (R240)
  | mulhiUns (d a b : Fin 32) (f : Fin 16) (s : Fin 8)  -- MULHI_UNS (R240)
  | mad (d a b : Fin 32) (f : Fin 16) (s : Fin 8)  -- MAD (R240)
  | and (d a b : Fin 32) (f : Fin 16) (s : Fin 8)  -- AND (R240)
  | or (d a b : Fin 32) (f : Fin 16) (s : Fin 8)  -- OR (R240)
  | xor (d a b : Fin 32) (f : Fin 16) (s : Fin 8)  -- XOR (R240)
  | not (d a : Fin 32) (f : Fin 16) (s : Fin 8)  -- NOT (R241)
  | shl (d a b : Fin 32) (f : Fin 16) (s : Fin 8)  -- SHL (R240)
  | shr (d a b : Fin 32) (f : Fin 16) (s : Fin 8)  -- SHR (R240)
  | sar (d a b : Fin 32) (f : Fin 16) (s : Fin 8)  -- SAR (R240)
  | min (d a b : Fin 32) (f : Fin 16) (s : Fin 8)  -- MIN (R240)
  | minUns (d a b : Fin 32) (f : Fin 16) (s : Fin 8)  -- MIN_UNS (R240)
  | max (d a b : Fin 32) (f : Fin 16) (s : Fin 8)  -- MAX (R240)
  | maxUns (d a b : Fin 32) (f : Fin 16) (s : Fin 8)  -- MAX_UNS (R240)
  | abs (d a : Fin 32) (f : Fin 16) (s : Fin 8)  -- ABS (R241)
  | clz (d a : Fin 32) (f : Fin 16) (s : Fin 8)  -- CLZ (R241)
  | popc (d a : Fin 32) (f : Fin 16) (s : Fin 8)  -- POPC (R241)
  | brev (d a : Fin 32) (f : Fin 16) (s : Fin 8)  -- BREV (R241)
  | bfe (d a b : Fin 32) (f : Fin 16) (s : Fin 8)  -- BFE (R241)
  | bfeUns (d a b : Fin 32) (f : Fin 16) (s : Fin 8)  -- BFE_UNS (R241)
  | bfi (d a b : Fin 32) (f : Fin 16) (s : Fin 8)  -- BFI (R241)
  | sel (p : Fin 4) (d a b : Fin 32) (f : Fin 16) (s : Fin 8)  -- SEL (R242)
  | cmp (c : Fin 8) (p : Fin 4) (a b : Fin 32) (f : Fin 16) (s : Fin 8)  -- CMP (R242)
  | mov (d a : Fin 32) (f : Fin 16) (s : Fin 8)  -- MOV (R243)
  | add64 (d a b : Fin 32) (f : Fin 16) (s : Fin 8)  -- ADD64 (R244)
  | sub64 (d a b : Fin 32) (f : Fin 16) (s : Fin 8)  -- SUB64 (R244)
  | mad64 (d a b : Fin 32) (f : Fin 16) (s : Fin 8)  -- MAD64 (R244)
  | fadd (d a b : Fin 32) (f : Fin 16) (s : Fin 8)  -- FADD (R245)
  | fsub (d a b : Fin 32) (f : Fin 16) (s : Fin 8)  -- FSUB (R245)
  | fmul (d a b : Fin 32) (f : Fin 16) (s : Fin 8)  -- FMUL (R245)
  | ffma (d a b : Fin 32) (f : Fin 16) (s : Fin 8)  -- FFMA (R245)
  | fmin (d a b : Fin 32) (f : Fin 16) (s : Fin 8)  -- FMIN (R245)
  | fmax (d a b : Fin 32) (f : Fin 16) (s : Fin 8)  -- FMAX (R245)
  | fcmp (c : Fin 8) (p : Fin 4) (a b : Fin 32) (f : Fin 16) (s : Fin 8)  -- FCMP (R246)
  | frcp (d a : Fin 32) (f : Fin 16) (s : Fin 8)  -- FRCP (R247)
  | frsq (d a : Fin 32) (f : Fin 16) (s : Fin 8)  -- FRSQ (R247)
  | fsqrt (d a : Fin 32) (f : Fin 16) (s : Fin 8)  -- FSQRT (R247)
  | fex2 (d a : Fin 32) (f : Fin 16) (s : Fin 8)  -- FEX2 (R247)
  | flg2 (d a : Fin 32) (f : Fin 16) (s : Fin 8)  -- FLG2 (R247)
  | fsin (d a : Fin 32) (f : Fin 16) (s : Fin 8)  -- FSIN (R247)
  | fcos (d a : Fin 32) (f : Fin 16) (s : Fin 8)  -- FCOS (R247)
  | hadd2F16 (d a b : Fin 32) (f : Fin 16) (s : Fin 8)  -- HADD2_F16 (R248)
  | hadd2Bf16 (d a b : Fin 32) (f : Fin 16) (s : Fin 8)  -- HADD2_BF16 (R248)
  | hmul2F16 (d a b : Fin 32) (f : Fin 16) (s : Fin 8)  -- HMUL2_F16 (R248)
  | hmul2Bf16 (d a b : Fin 32) (f : Fin 16) (s : Fin 8)  -- HMUL2_BF16 (R248)
  | hfma2F16 (d a b : Fin 32) (f : Fin 16) (s : Fin 8)  -- HFMA2_F16 (R248)
  | hfma2Bf16 (d a b : Fin 32) (f : Fin 16) (s : Fin 8)  -- HFMA2_BF16 (R248)
  | dot4S8 (d a b : Fin 32) (f : Fin 16) (s : Fin 8)  -- DOT4_S8 (R249)
  | dot4E4m3 (d a b : Fin 32) (f : Fin 16) (s : Fin 8)  -- DOT4_E4M3 (R249)
  | dot4E5m2 (d a b : Fin 32) (f : Fin 16) (s : Fin 8)  -- DOT4_E5M2 (R249)
  | dot8S4 (d a b : Fin 32) (f : Fin 16) (s : Fin 8)  -- DOT8_S4 (R249)
  | dot8E2m1 (d a b : Fin 32) (f : Fin 16) (s : Fin 8)  -- DOT8_E2M1 (R249)
  | cvt (c d a : Fin 32) (f : Fin 16) (s : Fin 8)  -- CVT (R250)
  | cvtsr (c d a : Fin 32) (f : Fin 16) (s : Fin 8)  -- CVTSR (R250)
  | pack (d a b : Fin 32) (f : Fin 16) (s : Fin 8)  -- PACK (R243)
  | unpk (e d a : Fin 32) (f : Fin 16) (s : Fin 8)  -- UNPK (R243)
  | addU (d a : Fin 32) (b : Fin 256) (s : Fin 8)  -- ADD_U (R252)
  | subU (d a : Fin 32) (b : Fin 256) (s : Fin 8)  -- SUB_U (R252)
  | mulU (d a : Fin 32) (b : Fin 256) (s : Fin 8)  -- MUL_U (R252)
  | mulhiU (d a : Fin 32) (b : Fin 256) (s : Fin 8)  -- MULHI_U (R252)
  | mulhiUnsU (d a : Fin 32) (b : Fin 256) (s : Fin 8)  -- MULHI_UNS_U (R252)
  | madU (d a : Fin 32) (b : Fin 256) (s : Fin 8)  -- MAD_U (R252)
  | andU (d a : Fin 32) (b : Fin 256) (s : Fin 8)  -- AND_U (R252)
  | orU (d a : Fin 32) (b : Fin 256) (s : Fin 8)  -- OR_U (R252)
  | xorU (d a : Fin 32) (b : Fin 256) (s : Fin 8)  -- XOR_U (R252)
  | notU (d : Fin 32) (b : Fin 256) (s : Fin 8)  -- NOT_U (R252)
  | shlU (d a : Fin 32) (b : Fin 256) (s : Fin 8)  -- SHL_U (R252)
  | shrU (d a : Fin 32) (b : Fin 256) (s : Fin 8)  -- SHR_U (R252)
  | sarU (d a : Fin 32) (b : Fin 256) (s : Fin 8)  -- SAR_U (R252)
  | minU (d a : Fin 32) (b : Fin 256) (s : Fin 8)  -- MIN_U (R252)
  | minUnsU (d a : Fin 32) (b : Fin 256) (s : Fin 8)  -- MIN_UNS_U (R252)
  | maxU (d a : Fin 32) (b : Fin 256) (s : Fin 8)  -- MAX_U (R252)
  | maxUnsU (d a : Fin 32) (b : Fin 256) (s : Fin 8)  -- MAX_UNS_U (R252)
  | absU (d : Fin 32) (b : Fin 256) (s : Fin 8)  -- ABS_U (R252)
  | clzU (d : Fin 32) (b : Fin 256) (s : Fin 8)  -- CLZ_U (R252)
  | popcU (d : Fin 32) (b : Fin 256) (s : Fin 8)  -- POPC_U (R252)
  | brevU (d : Fin 32) (b : Fin 256) (s : Fin 8)  -- BREV_U (R252)
  | bfeU (d a : Fin 32) (b : Fin 256) (s : Fin 8)  -- BFE_U (R252)
  | bfeUnsU (d a : Fin 32) (b : Fin 256) (s : Fin 8)  -- BFE_UNS_U (R252)
  | bfiU (d a : Fin 32) (b : Fin 256) (s : Fin 8)  -- BFI_U (R252)
  | selU (p : Fin 4) (d a : Fin 32) (b : Fin 256) (s : Fin 8)  -- SEL_U (R252)
  | cmpU (c : Fin 8) (p : Fin 4) (a : Fin 32) (b : Fin 256) (s : Fin 8)  -- CMP_U (R252)
  | movU (d : Fin 32) (b : Fin 256) (s : Fin 8)  -- MOV_U (R252)
  | add64U (d a : Fin 32) (b : Fin 256) (s : Fin 8)  -- ADD64_U (R252)
  | sub64U (d a : Fin 32) (b : Fin 256) (s : Fin 8)  -- SUB64_U (R252)
  | mad64U (d a : Fin 32) (b : Fin 256) (s : Fin 8)  -- MAD64_U (R252)
  | faddU (d a : Fin 32) (b : Fin 256) (s : Fin 8)  -- FADD_U (R252)
  | fsubU (d a : Fin 32) (b : Fin 256) (s : Fin 8)  -- FSUB_U (R252)
  | fmulU (d a : Fin 32) (b : Fin 256) (s : Fin 8)  -- FMUL_U (R252)
  | ffmaU (d a : Fin 32) (b : Fin 256) (s : Fin 8)  -- FFMA_U (R252)
  | fminU (d a : Fin 32) (b : Fin 256) (s : Fin 8)  -- FMIN_U (R252)
  | fmaxU (d a : Fin 32) (b : Fin 256) (s : Fin 8)  -- FMAX_U (R252)
  | fcmpU (c : Fin 8) (p : Fin 4) (a : Fin 32) (b : Fin 256) (s : Fin 8)  -- FCMP_U (R252)
  | hadd2F16U (d a : Fin 32) (b : Fin 256) (s : Fin 8)  -- HADD2_F16_U (R252)
  | hadd2Bf16U (d a : Fin 32) (b : Fin 256) (s : Fin 8)  -- HADD2_BF16_U (R252)
  | hmul2F16U (d a : Fin 32) (b : Fin 256) (s : Fin 8)  -- HMUL2_F16_U (R252)
  | hmul2Bf16U (d a : Fin 32) (b : Fin 256) (s : Fin 8)  -- HMUL2_BF16_U (R252)
  | hfma2F16U (d a : Fin 32) (b : Fin 256) (s : Fin 8)  -- HFMA2_F16_U (R252)
  | hfma2Bf16U (d a : Fin 32) (b : Fin 256) (s : Fin 8)  -- HFMA2_BF16_U (R252)
  | dot4S8U (d a : Fin 32) (b : Fin 256) (s : Fin 8)  -- DOT4_S8_U (R252)
  | dot4E4m3U (d a : Fin 32) (b : Fin 256) (s : Fin 8)  -- DOT4_E4M3_U (R252)
  | dot4E5m2U (d a : Fin 32) (b : Fin 256) (s : Fin 8)  -- DOT4_E5M2_U (R252)
  | dot8S4U (d a : Fin 32) (b : Fin 256) (s : Fin 8)  -- DOT8_S4_U (R252)
  | dot8E2m1U (d a : Fin 32) (b : Fin 256) (s : Fin 8)  -- DOT8_E2M1_U (R252)
  | packU (d a : Fin 32) (b : Fin 256) (s : Fin 8)  -- PACK_U (R252)
  | addI (d : Fin 32) (i : BitVec 16) (s : Fin 8)  -- ADD_I (R219)
  | mulI (d : Fin 32) (i : BitVec 16) (s : Fin 8)  -- MUL_I (R219)
  | andI (d : Fin 32) (i : BitVec 16) (s : Fin 8)  -- AND_I (R219)
  | orI (d : Fin 32) (i : BitVec 16) (s : Fin 8)  -- OR_I (R219)
  | xorI (d : Fin 32) (i : BitVec 16) (s : Fin 8)  -- XOR_I (R219)
  | shlI (d i : Fin 32) (s : Fin 8)  -- SHL_I (R219)
  | shrI (d i : Fin 32) (s : Fin 8)  -- SHR_I (R219)
  | sarI (d i : Fin 32) (s : Fin 8)  -- SAR_I (R219)
  | movI (d : Fin 32) (i : BitVec 16) (s : Fin 8)  -- MOV_I (R219)
  | movHi (d : Fin 32) (i : BitVec 16) (s : Fin 8)  -- MOV_HI (R243)
  | faddI (d : Fin 32) (i : BitVec 16) (s : Fin 8)  -- FADD_I (R219)
  | fmulI (d : Fin 32) (i : BitVec 16) (s : Fin 8)  -- FMUL_I (R219)
  | movF32 (d : Fin 32) (i : BitVec 16) (s : Fin 8)  -- MOV_F32 (R219)
  | hadd2F16I (d : Fin 32) (i : BitVec 16) (s : Fin 8)  -- HADD2_F16_I (R248)
  | hmul2F16I (d : Fin 32) (i : BitVec 16) (s : Fin 8)  -- HMUL2_F16_I (R248)
  | movE4m3x2 (d : Fin 32) (i : BitVec 16) (s : Fin 8)  -- MOV_E4M3X2 (R219)
  | addA16 (d r : Fin 32)  -- ADD_A16 (R212)
  | subA16 (d r : Fin 32)  -- SUB_A16 (R212)
  | mulA16 (d r : Fin 32)  -- MUL_A16 (R212)
  | andA16 (d r : Fin 32)  -- AND_A16 (R212)
  | orA16 (d r : Fin 32)  -- OR_A16 (R212)
  | xorA16 (d r : Fin 32)  -- XOR_A16 (R212)
  | shlA16 (d r : Fin 32)  -- SHL_A16 (R212)
  | shrA16 (d r : Fin 32)  -- SHR_A16 (R212)
  | minA16 (d r : Fin 32)  -- MIN_A16 (R212)
  | maxA16 (d r : Fin 32)  -- MAX_A16 (R212)
  | movA16 (d r : Fin 32)  -- MOV_A16 (R212)
  | faddA16 (d r : Fin 32)  -- FADD_A16 (R212)
  | fmulA16 (d r : Fin 32)  -- FMUL_A16 (R212)
  | fminA16 (d r : Fin 32)  -- FMIN_A16 (R212)
  | fmaxA16 (d r : Fin 32)  -- FMAX_A16 (R212)
  | ffmaA16 (d r : Fin 32)  -- FFMA_A16 (R212)
  | waitf (m : BitVec 12)  -- WAITF (R295)
  | nop  -- NOP (R294)
  | yield  -- YIELD (R294)
  | ret8  -- RET_8 (R289)
  | ret16  -- RET_16 (R289)
  | mend  -- MEND (R293)
  | exit  -- EXIT (R304)
  | fence  -- FENCE (R135)
  | stall (n : Fin 256)  -- STALL (R294)
  | ld (d : Fin 32) (c : Fin 16) (i : Fin 32) (z : Fin 8) (f : Fin 16) (s : Fin 8)  -- LD (R263)
  | ldS (d : Fin 32) (c : Fin 16) (i : Fin 32) (z : Fin 8) (f : Fin 16) (s : Fin 8)  -- LD_S (R263)
  | st (d : Fin 32) (c : Fin 16) (i : Fin 32) (z : Fin 8) (f : Fin 16) (s : Fin 8)  -- ST (R263)
  | lds (d i : Fin 32) (z : Fin 8) (f : Fin 16) (s : Fin 8)  -- LDS (R265)
  | ldsS (d i : Fin 32) (z : Fin 8) (f : Fin 16) (s : Fin 8)  -- LDS_S (R265)
  | sts (d i : Fin 32) (z : Fin 8) (f : Fin 16) (s : Fin 8)  -- STS (R265)
  | ldmx (d : Fin 32) (c : Fin 16) (i : Fin 32) (z : Fin 8) (f : Fin 16) (s : Fin 8)  -- LDMX (R267)
  | stmx (d : Fin 32) (c : Fin 16) (i : Fin 32) (z : Fin 8) (f : Fin 16) (s : Fin 8)  -- STMX (R268)
  | pref (c : Fin 16) (i : Fin 32) (z s : Fin 8)  -- PREF (R269)
  | cload (d c : Fin 16) (i : Fin 32) (f : Fin 16) (s : Fin 8)  -- CLOAD (R271)
  | cstore (d c : Fin 16) (i : Fin 32) (f : Fin 16) (s : Fin 8)  -- CSTORE (R272)
  | cnarrow (d c : Fin 16) (i : Fin 32) (s : Fin 8)  -- CNARROW (R273)
  | crestr (d c : Fin 16) (i : Fin 32) (s : Fin 8)  -- CRESTR (R274)
  | cget (d : Fin 32) (c : Fin 16) (z s : Fin 8)  -- CGET (R275)
  | cseal (d c a : Fin 16) (s : Fin 8)  -- CSEAL (R276)
  | csealUn (d c a : Fin 16) (s : Fin 8)  -- CSEAL_UN (R276)
  | ctestTag (p : Fin 4) (c : Fin 16) (s : Fin 8)  -- CTEST_TAG (R277)
  | ctestUnsealed (p : Fin 4) (c : Fin 16) (s : Fin 8)  -- CTEST_UNSEALED (R277)
  | ctestSub (p : Fin 4) (c k : Fin 16) (s : Fin 8)  -- CTEST_SUB (R277)
  | ctestIn (p : Fin 4) (c : Fin 16) (i : Fin 32) (z s : Fin 8)  -- CTEST_IN (R277)
  | bra (p : Fin 4) (o : BitVec 19) (s : Fin 8)  -- BRA (R286)
  | braN (p : Fin 4) (o : BitVec 19) (s : Fin 8)  -- BRA_N (R286)
  | brl (p : Fin 4) (o : BitVec 19) (s : Fin 8)  -- BRL (R286)
  | call8 (o : BitVec 19) (s : Fin 8)  -- CALL_8 (R288)
  | call16 (o : BitVec 19) (s : Fin 8)  -- CALL_16 (R288)
  | jmp (r : Fin 32) (s : Fin 8)  -- JMP (R287)
  | meld (p : Fin 4) (t : Fin 64) (s : Fin 8)  -- MELD (R164)
  | shflIdx (d a b : Fin 32) (z : Bool) (f : Fin 16) (s : Fin 8)  -- SHFL_IDX (R255)
  | shflUp (d a b : Fin 32) (z : Bool) (f : Fin 16) (s : Fin 8)  -- SHFL_UP (R255)
  | shflDown (d a b : Fin 32) (z : Bool) (f : Fin 16) (s : Fin 8)  -- SHFL_DOWN (R255)
  | shflXor (d a b : Fin 32) (z : Bool) (f : Fin 16) (s : Fin 8)  -- SHFL_XOR (R255)
  | voteAll (p q : Fin 4) (f : Fin 16) (s : Fin 8)  -- VOTE_ALL (R256)
  | voteAny (p q : Fin 4) (f : Fin 16) (s : Fin 8)  -- VOTE_ANY (R256)
  | voteBallot (d : Fin 32) (q : Fin 4) (f : Fin 16) (s : Fin 8)  -- VOTE_BALLOT (R256)
  | redux (o d a : Fin 32) (f : Fin 16) (s : Fin 8)  -- REDUX (R257)
  | matchAny (d a : Fin 32) (f : Fin 16) (s : Fin 8)  -- MATCH_ANY (R258)
  | matchAll (p : Fin 4) (a : Fin 32) (f : Fin 16) (s : Fin 8)  -- MATCH_ALL (R258)
  | fork (x : Fin 64) (q s : Fin 8)  -- FORK (R302)
  | copy (x : Fin 64) (a b f : Fin 16) (s : Fin 8)  -- COPY (R341)
  | copyq (x : Fin 64) (s : Fin 8)  -- COPYQ (R344)
  | chain (x : Fin 64) (a b f : Fin 16) (s : Fin 8)  -- CHAIN (R335)
  | coll (x : Fin 64) (a f : Fin 16) (s : Fin 8)  -- COLL (R346)
  | post (x : Fin 64) (f : Fin 16) (s : Fin 8)  -- POST (R321)
  | ecancel (x : Fin 64) (s : Fin 8)  -- ECANCEL (R320)
  | estat (x : Fin 64) (s : Fin 8)  -- ESTAT (R319)
  | sleept (t : Fin 256) (s : Fin 8)  -- SLEEPT (R297)
  | waitc (n : Fin 4) (k : Fin 16) (a d : Fin 32) (s : Fin 8)  -- WAITC (R298)
  | bar (b : Fin 16) (m : BitVec 4) (s : Fin 8)  -- BAR (R300)
  | arrive (b : Fin 16) (m : BitVec 4) (s : Fin 8)  -- ARRIVE (R300)
  | await (b : Fin 16) (m : BitVec 4) (s : Fin 8)  -- AWAIT (R300)
  | rvz (q s : Fin 8)  -- RVZ (R303)
  | dqpush (a : Fin 32) (m : BitVec 4) (s : Fin 8)  -- DQPUSH (R301)
  | dqpop (t : Fin 256) (s : Fin 8)  -- DQPOP (R170)
  | csrr (c : Fin 64) (d : Fin 32) (s : Fin 8)  -- CSRR (R305)
  | csrw (c : Fin 64) (a : Fin 32) (s : Fin 8)  -- CSRW (R305)
  | trap (c : Fin 64) (s : Fin 8)  -- TRAP (R310)
  | tret  -- TRET (R311)
  | spill (n : Fin 256) (c f : Fin 16) (s : Fin 8)  -- SPILL (R291)
  | fill (n : Fin 256) (c f : Fin 16) (s : Fin 8)  -- FILL (R291)
  | redx (y : Fin 4) (t : Fin 16) (a : Fin 32) (r : Fin 8) (f : Fin 16) (s : Fin 8)  -- REDX (R281)
  | movS (t : Fin 256) (a : Fin 32) (s : Fin 8)  -- MOV_S (R253)
  | atom (o : Fin 16) (z : Bool) (c : Fin 16) (a d : Fin 32) (f : Fin 16) (s : Fin 8)  -- ATOM (R279)
  | atomm (o : Fin 16) (z : Bool) (c : Fin 16) (a d : Fin 32) (f : Fin 16) (s : Fin 8)  -- ATOMM (R280)
  | mcfg (afmt bfmt : Fin 16) (kb : Fin 256)  -- MCFG (R324)
  | mload (buf : Fin 4) (mcast : BitVec 8) (addr : Word)  -- MLOAD (R326)
  | mma (acc : Fin 8) (zero : Bool)  -- MMA (R328)
  | mdrain (acc : Fin 8) (ofmt : Fin 16) (rm : Fin 8) (tr : Bool) (trm : Fin 8) (mem : Bool) (toff : BitVec 13) (dest : Word)  -- MDRAIN (R329)
  | mwait (kind : Fin 4) (value : BitVec 16) (addr : Word)  -- MWAIT (R331)
  | mstep (back : Fin 64) (count : BitVec 12) (addinc : Word)  -- MSTEP (R332)
  | chainFadd (d : Fin 8) (a b : Fin 16)  -- CHAIN_FADD (R338)
  | chainFsub (d : Fin 8) (a b : Fin 16)  -- CHAIN_FSUB (R338)
  | chainFmul (d : Fin 8) (a b : Fin 16)  -- CHAIN_FMUL (R338)
  | chainFfma (d : Fin 8) (a b c : Fin 16)  -- CHAIN_FFMA (R338)
  | chainFmin (d : Fin 8) (a b : Fin 16)  -- CHAIN_FMIN (R338)
  | chainFmax (d : Fin 8) (a b : Fin 16)  -- CHAIN_FMAX (R338)
  | chainFex2 (d : Fin 8) (a : Fin 16)  -- CHAIN_FEX2 (R338)
  | chainFlg2 (d : Fin 8) (a : Fin 16)  -- CHAIN_FLG2 (R338)
  | chainFrcp (d : Fin 8) (a : Fin 16)  -- CHAIN_FRCP (R338)
  | chainFrsq (d : Fin 8) (a : Fin 16)  -- CHAIN_FRSQ (R338)
  | chainFsqrt (d : Fin 8) (a : Fin 16)  -- CHAIN_FSQRT (R338)
  | chainSel (d : Fin 8) (a b c : Fin 16)  -- CHAIN_SEL (R338)
  | sumr (d : Fin 8) (a : Fin 16)  -- SUMR (R338)
  | maxr (d : Fin 8) (a : Fin 16)  -- MAXR (R338)
  | outq (o : Fin 2) (a : Fin 16) (m : Fin 8) (k : Fin 16)  -- OUTQ (R339)
  | chainMov (d : Fin 8) (a : Fin 16)  -- CHAIN_MOV (R338)
  | send (a : CollArgs)  -- SEND (R349)
  | recv (a : CollArgs)  -- RECV (R349)
  | recvadd (a : CollArgs)  -- RECVADD (R348)
  | waitw (a : CollArgs)  -- WAITW (R350)
  | signal (a : CollArgs)  -- SIGNAL (R347)
  | sparse (a : CollArgs)  -- SPARSE (R351)
  | recvsparse (a : CollArgs)  -- RECVSPARSE (R351)
  | endStep (a : CollArgs)  -- END (R347)
  | descriptorRelease (core : Nat)  -- DESCRIPTOR_RELEASE (R345)
  | engineOperationCompletion (op : Nat)  -- ENGINE_OPERATION_COMPLETION (R131)
  | epochCommit (g : Nat)  -- EPOCH_COMMIT (R117)
  | tokenHoldExpiry (cluster : Nat)  -- TOKEN_HOLD_EXPIRY (R137)
  | pathRotation (g slice : Nat)  -- PATH_ROTATION (R155)
  | sleeptWake (g lane : Nat)  -- SLEEPT_WAKE (R297)
  | waitcReread (g lane : Nat)  -- WAITC_REREAD (R298)
  | read (core line : Nat)  -- READ (R66)
  | own (core line : Nat)  -- OWN (R66)
  | grant (core line : Nat)  -- GRANT (R66)
  | invalidation (core line : Nat)  -- INVALIDATION (R67)
  | recall (core line : Nat)  -- RECALL (R66)
  | acknowledgement (core line : Nat)  -- ACKNOWLEDGEMENT (R67)
  | evictionNotice (core line : Nat)  -- EVICTION_NOTICE (R68)
  | writeBack (core line : Nat) (mask : BitVec 8)  -- WRITE_BACK (R68)
  | data (ch : Nat)  -- DATA (R77)
  | ack (ch : Nat)  -- ACK (R77)
  | retry (ch hint : Nat)  -- RETRY (R77)
  | retryReissue (ch : Nat)  -- RETRY_REISSUE (R77)
  | error (ch : Nat)  -- ERROR (R81)
  | refresh (ch bank cycles : Nat)  -- REFRESH (R78)
  | powerDown (ch : Nat)  -- POWER_DOWN (R80)
  | selfRefresh (ch : Nat)  -- SELF_REFRESH (R80)
  | powerStateExit (ch : Nat)  -- POWER_STATE_EXIT (R80)
  | memorySideAccess (id : Nat)  -- MEMORY_SIDE_ACCESS (R82)
  | nmuCommand (id stack : Nat)  -- NMU_COMMAND (R87)
  | partialSum (id : Nat)  -- PARTIAL_SUM (R86)
  | snpdata (line : Nat)  -- SNPDATA (R91)
  | snpinv (line : Nat)  -- SNPINV (R91)
  | snpcur (line : Nat)  -- SNPCUR (R91)
  | cxlCacheResponse (line : Nat) (half : Fin 2) (bytes : List Byte)  -- CXL_CACHE_RESPONSE (R91)
  | cxlMemRead (dpa : Nat)  -- CXL_MEM_READ (R92)
  | cxlMemWrite (dpa : Nat) (bytes : List Byte)  -- CXL_MEM_WRITE (R92)
  | bisnpAnswer (line : Nat)  -- BISNP_ANSWER (R92)
  | epochEnd (die : Fin 2)  -- EPOCH_END (R101)
  | chretireGo (chan : Nat)  -- CHRETIRE_GO (R98)
  | retirementSwitch (chan : Nat)  -- RETIREMENT_SWITCH (R98)
  | backgroundSweep (leaf : Nat)  -- BACKGROUND_SWEEP (R27)
  | notifyStore (p fn q : Nat) (value : Word)  -- NOTIFY_STORE (R366)
  | queueMap (p q : Nat)  -- QUEUE_MAP (R369)
  | queueUnmap (p q : Nat)  -- QUEUE_UNMAP (R370)
  | nopCommand (h : CmdHead)  -- NOP_COMMAND (R371)
  | launch (h : CmdHead) (record : Nat) (ordered : Bool)  -- LAUNCH (R374)
  | launchi (h : CmdHead) (record : Nat) (ordered : Bool) (dims : Nat)  -- LAUNCHI (R371)
  | waitmem (h : CmdHead) (gva : Nat) (value : Word) (cond : Fin 4)  -- WAITMEM (R371)
  | write (h : CmdHead) (gva : Nat) (value : Word)  -- WRITE (R371)
  | branch (h : CmdHead) (cond : Fin 4) (value : Word) (target : Nat)  -- BRANCH (R373)
  | loop (h : CmdHead) (count target : Nat)  -- LOOP (R373)
  | qprio (h : CmdHead) (queue prio : Nat)  -- QPRIO (R371)
  | process (h : CmdHead) (gpa proc : Nat)  -- PROCESS (R41)
  | kill (h : CmdHead) (fn result : Nat)  -- KILL (R375)
  | invS1Va (h : CmdHead) (fn asid base len : Nat) (leafOnly : Bool)  -- INV_S1_VA (R32)
  | invS1Asid (h : CmdHead) (fn asid : Nat)  -- INV_S1_ASID (R32)
  | invS2Gpa (h : CmdHead) (fn base len : Nat)  -- INV_S2_GPA (R32)
  | invFn (h : CmdHead) (fn : Nat)  -- INV_FN (R32)
  | invPart (h : CmdHead)  -- INV_PART (R32)
  | invalidationCompletion (p id : Nat)  -- INVALIDATION_COMPLETION (R33)
  | biasflip (h : CmdHead) (fn gpa : Nat) (bias : Bool) (ho : BitVec 16)  -- BIASFLIP (R93)
  | deferred (p q : Nat)  -- DEFERRED (R93)
  | migrate64k (h : CmdHead) (fn gpa newOut kind key : Nat)  -- MIGRATE64K (R103)
  | cancel (h : CmdHead) (target : Nat)  -- CANCEL (R371)
  | admission (p : Nat)  -- ADMISSION (R380)
  | ageing (p q : Nat)  -- AGEING (R379)
  | eviction (p set : Nat)  -- EVICTION (R382)
  | sliceEnd (p : Nat)  -- SLICE_END (R378)
  | staging (p : Nat)  -- STAGING (R383)
  | exchange (p : Nat)  -- EXCHANGE (R383)
  | contextWriteBack (p : Nat)  -- CONTEXT_WRITE_BACK (R383)
  | fqrespRetry (p id : Nat) (runtime : Bool)  -- FQRESP_RETRY (R397)
  | fqrespDeny (p id : Nat) (runtime : Bool)  -- FQRESP_DENY (R397)
  | fqtailWrite (p : Nat) (tail : Word)  -- FQTAIL_WRITE (R396)
  | peerRd (pkt : Flit)  -- PEER_RD (R414)
  | peerWr (pkt : Flit)  -- PEER_WR (R414)
  | peerAtom (pkt : Flit)  -- PEER_ATOM (R280)
  | peerAtomm (pkt : Flit)  -- PEER_ATOMM (R280)
  | launchPacket (pkt : Flit)  -- LAUNCH_PACKET (R377)
  | cdata (pkt : Flit)  -- CDATA (R418)
  | clear (pkt : Flit)  -- CLEAR (R418)
  | sparseFlit (pkt : Flit)  -- SPARSE_FLIT (R418)
  | spend (pkt : Flit)  -- SPEND (R418)
  | peerData (id : Nat) (bytes : List Byte)  -- PEER_DATA (R416)
  | peerAck (id : Nat)  -- PEER_ACK (R416)
  | peerError (id cause : Nat)  -- PEER_ERROR (R414)
  | peerRetry (id hint : Nat)  -- PEER_RETRY (R416)
  | resend (id : Nat)  -- RESEND (R416)
  | moved (id : Nat)  -- MOVED (R416)
  | movedReread (id : Nat)  -- MOVED_REREAD (R416)
  | linkTimeout (id : Nat)  -- LINK_TIMEOUT (R416)
  | portDown (port : Fin 18)  -- PORT_DOWN (R409)
  | vdnTableWrite (vdn : Fin 2048) (value : DWord)  -- VDN_TABLE_WRITE (R412)
  | migctlGo (p : Nat) (value : DWord)  -- MIGCTL_GO (R428)
  | migctlStop (p : Nat)  -- MIGCTL_STOP (R431)
  | migctlAbort (p : Nat)  -- MIGCTL_ABORT (R440)
  | precopyRoundEnd (p us : Nat)  -- PRECOPY_ROUND_END (R431)
  | governorWindow (p : Nat)  -- GOVERNOR_WINDOW (R431)
  | migrationDataWrite (pkt : Flit)  -- MIGRATION_DATA_WRITE (R432)
  | imageWrite (pkt : Flit)  -- IMAGE_WRITE (R432)
  | carriedResultWrite (pkt : Flit)  -- CARRIED_RESULT_WRITE (R432)
  | install (p : Nat)  -- INSTALL (R436)
  | switch (p : Nat)  -- SWITCH (R437)
  | resume (p : Nat)  -- RESUME (R438)
  | forwardingEnd (p : Nat)  -- FORWARDING_END (R437)
  | partcluWrite (p : Nat) (value : DWord)  -- PARTCLU_WRITE (R421)
  | partcfgWrite (p : Nat) (value : DWord)  -- PARTCFG_WRITE (R422)
  | keyinstall (arg buf : Nat)  -- KEYINSTALL (R452)
  | keyretire (arg buf : Nat)  -- KEYRETIRE (R453)
  | attest (arg buf : Nat)  -- ATTEST (R454)
  | seal (arg buf : Nat)  -- SEAL (R456)
  | unlock (arg buf : Nat)  -- UNLOCK (R457)
  | fwload (arg buf : Nat)  -- FWLOAD (R458)
  | fwcommit (arg buf : Nat)  -- FWCOMMIT (R459)
  | migkey (arg buf : Nat)  -- MIGKEY (R456)
  | tokenExpiry (token : Nat)  -- TOKEN_EXPIRY (R457)
  | breakpointArm (g : Nat) (n : Fin 8) (gva : Nat)  -- BREAKPOINT_ARM (R401)
  | getVersion  -- GET_VERSION (R460)
  | getCapabilities  -- GET_CAPABILITIES (R460)
  | negotiateAlgorithms (algs : SpdmAlgs)  -- NEGOTIATE_ALGORITHMS (R460)
  | getDigests  -- GET_DIGESTS (R460)
  | getCertificate  -- GET_CERTIFICATE (R460)
  | challenge (nonce : BitVec 256)  -- CHALLENGE (R460)
  | getMeasurements  -- GET_MEASUREMENTS (R460)
  | keyExchange (peerKey : BitVec 768)  -- KEY_EXCHANGE (R460)
  | finish (mac : BitVec 384)  -- FINISH (R460)
  | query  -- QUERY (R460)
  | keyProg (ks : IdeKeySet) (key : BitVec 256)  -- KEY_PROG (R460)
  | kSetGo (ks : IdeKeySet)  -- K_SET_GO (R460)
  | kSetStop (ks : IdeKeySet)  -- K_SET_STOP (R460)
  | pwrcapWrite (value : DWord)  -- PWRCAP_WRITE (R462)
  | drawWindow (watts : BitVec 16)  -- DRAW_WINDOW (R462)
  | powerCapWindow  -- POWER_CAP_WINDOW (R462)
  | droop (core : Nat)  -- DROOP (R463)
  | thermal (die : Fin 4) (temp : Nat)  -- THERMAL (R468)
  | patrolScrub (dpa : Nat)  -- PATROL_SCRUB (R466)
  | rascntWrite (n : Fin 8) (value : DWord)  -- RASCNT_WRITE (R465)
  | warmReset  -- WARM_RESET (R467)
  | coldReset  -- COLD_RESET (R5)
  | registerWrite (reg : DevReg) (value : DWord)  -- REGISTER_WRITE (R5)
  | portRetrain (port : Fin 18)  -- PORT_RETRAIN (R409)
  | dieBelow95c (die : Fin 4)  -- DIE_BELOW_95C (R468)
  | droopEnd (core : Nat)  -- DROOP_END (R463)
  deriving DecidableEq, Repr

end Sys2Proof
end

