-- ==== Sys2Proof/Machine/Types.lean ====
section
/-! DEFINITION. The pieces the machine's state is made of: lanes, groups, teams, core engines (R143 to R176, R313 to
R353), capabilities and translations (R14 to R50), range locks and outrider mode (R111 to R138). Plain data only. -/

namespace Sys2Proof.Machine

/-- A finite table keyed by number, kept in rising key order. -/
abbrev Store (α : Type) := List (Nat × α)

/-! ### Causes -/

/-- The trap causes of R388. -/
inductive Cause where
  | illegalInstruction | stallShort | windowOverflow | windowUnderflow | inactiveLaneRead | meldViolation
  | capBounds | capPermission | capScope | capTag | scratchBound | pageFaultS1 | pageFaultS2 | misaligned
  | peerRoster | keyMismatch | rangeLock | lateCopy | engineFault | fpException | livelock | trapInstruction
  | debugBreak | machineCheck
  deriving DecidableEq, Repr

/-- Where a page fault arose (R22, R26, R394): stage, reason code, the GPA concerned, whether it is a stage-1 table's
(TABLE), and the peer's VDN for a remote fault. -/
structure PageFault where
  stage2 : Bool
  reason : Nat
  gpa : Option Nat := none
  table : Bool := false
  vdn : Nat := 0
  deriving DecidableEq, Repr

/-- What a trap reports: cause, TADDR, the lanes of TMASK, TPC, and the convoy that takes it. -/
structure TrapInfo where
  cause : Cause
  addr : DWord
  lanes : List Nat
  pc : BitVec 57
  convoy : List Nat
  deriving DecidableEq, Repr

/-- A party parked on a fault record (R393): a group with the trap a DENY delivers, or an engine operation with the cause a
DENY ends it with, its own faulting GVA, and whether it was writing. -/
inductive Party where
  | lanes (gid : Nat) (t : TrapInfo)
  | op (id : Nat) (c : Cause) (gva : Nat) (write : Bool)
  deriving DecidableEq, Repr

/-- Why one lane's access fails (R45, R261): a cause with its TADDR, and the OWNER the violation log records (none for
a cause that writes no entry, R388); or a page fault with its GVA. -/
inductive Fail where
  | cause (c : Cause) (addr : DWord) (logKey : Option Nat)
  | page (f : PageFault) (gva : Nat)
  deriving DecidableEq, Repr

/-! ### Capabilities and translation -/

/-- A capability register or granule: 128 bits and the tag (R35). -/
structure Cap where
  bits : BitVec 128 := 0
  tag : Bool := false
  deriving DecidableEq, Repr

/-- The output kinds of stage 2 (R19). -/
inductive OutKind where
  | dram | host | peer | notify
  deriving DecidableEq, Repr

/-- What an access does, for the permissions and A and D updates of R23 and the ACCESS field of R394. -/
inductive Access where
  | fetch | read | write | atomic | capLoad | capStore | prefetch | engineRead | engineWrite
  deriving DecidableEq, Repr

/-- A combined translation (R22): kind, output address, key ID or VDN, attributes; the GPA it came from and whether its
stage-1 leaf is global; and the stage-2 leaf, or the leaves of its contiguous group, as bytes from a DPA (R27, R32). -/
structure Xlat where
  kind : OutKind
  out : Nat
  key : Nat := 0
  vdn : Nat := 0
  ms : Bool := false
  cappg : Bool := false
  rls : Bool := false
  hostOwned : Bool := false
  ppin : Bool := false
  gpa : Nat := 0
  global : Bool := false
  leaf : Nat := 2 ^ 60
  leaves : Nat := 8
  deriving DecidableEq, Repr

/-- RLS set in a translation whose leaf is one of a list (R27). -/
def Xlat.lockBy (ls : List Nat) (x : Xlat) : Xlat :=
  if ls.any (fun l => decide (x.leaf ≤ l ∧ l < x.leaf + x.leaves)) then { x with rls := true } else x

/-- A translation context (R14, R15, R362). -/
structure Ctx where
  part : Nat := 0
  fn : Nat := 0
  proc : Nat := 0
  asid : Nat := 0
  s1root : Nat := 0
  s1en : Bool := false
  s2root : Nat := 0
  s2en : Bool := false
  keyId : Nat := 0
  prot : Bool := false
  handler : Nat := 0
  deriving DecidableEq, Repr

/-- The translation caches of R30: a core's L1 TLB, a cluster's L2 TLB, an I/O die's translation cache. -/
inductive TlbPlace where
  | core (n : Nat) | cluster (n : Nat) | die (n : Nat)
  deriving DecidableEq, Repr

/-- A combined entry of a translation cache (R30): the GVA region it covers, the GPA region it came from, its
translation of the first byte, what both stages permit, the D bit of the stage-1 leaf, and which cache holds it. -/
structure TlbEntry where
  part : Nat
  fn : Nat
  asid : Nat
  global : Bool
  gva : Nat
  gpa : Nat
  size : Nat
  x : Xlat
  r : Bool
  w : Bool
  xp : Bool
  dirty : Bool
  place : TlbPlace := .die 0
  deriving DecidableEq, Repr

/-- A table entry as something has read it: where, under which key serial, its word. -/
structure Seen where
  loc : Nat
  serial : Nat
  word : DWord
  deriving DecidableEq, Repr

/-- A stage-2 entry that a walk read on its way to a table or to the last output: what it read, the GPAs the entry maps; for
a leaf that maps a stage-1 table, the GVAs that table serves. -/
structure Visit where
  seen : Seen
  gpa : Nat := 0
  size : Nat := 0
  table : Option (Nat × Nat) := none
  deriving DecidableEq, Repr

/-- An entry of an I/O die's stage-2 walk cache (R30): its tags, and the ASID of the walk that a table's leaf served. -/
structure WalkEntry where
  die : Nat
  part : Nat
  fn : Nat
  asid : Nat
  visit : Visit
  deriving DecidableEq, Repr

/-- A walk in flight (R33, R34): its I/O die, tags and page, and the entries it has read. -/
structure Walk where
  die : Nat
  part : Nat
  fn : Nat
  asid : Nat
  gva : Nat
  seen : List Seen := []
  deriving DecidableEq, Repr

/-- An A and D update (R24): the entry, its serial and word as the walk found it, and the bits to set. -/
structure AdWrite where
  loc : Nat
  serial : Nat
  word : DWord
  set : DWord
  deriving DecidableEq, Repr

/-- A translation as an access uses it: the combined translation of its first byte, the update it makes, what the caches
then hold, the stage-2 entries that its walk leaves in a walk cache, and all entries that the walk read. -/
structure Found where
  x : Xlat
  ad : Option AdWrite := none
  tlb : TlbEntry
  path : List Visit := []
  reads : List Seen := []
  deriving DecidableEq, Repr

/-! ### Lanes -/

/-- The meld state of a lane in a region (R164): region, position, path, and which MELD made its convoy. -/
structure Meld where
  region : Nat
  position : Nat
  path : Bool
  convoy : Nat
  deriving DecidableEq, Repr

/-- TMELD (R307). -/
structure TMeld where
  inRegion : Bool := false
  conv : Bool := false
  path : Bool := false
  region : Nat := 0
  position : Nat := 0
  deriving DecidableEq, Repr

/-- What a parked lane waits for (R158). -/
inductive Park where
  | waitf (mask : BitVec 12)
  | sleept (sIndex : Nat)
  | waitc
  | bar (b : Nat)
  | barred (b : Nat) (arrived : Bool)
  | arrive (b : Nat)
  | await (b : Nat)
  | dqpop
  | dqpush
  | rvz (q : Nat)
  | fork (q : Nat)
  | record
  | release
  | engines
  | memorySide (id : Nat)
  | access
  | home (line : Nat) (own : Bool)
  deriving DecidableEq, Repr

/-- One lane (R143). `v` holds v0 to v7 at keys 0 to 7 and stack position i at key 8 + i (R146); a key not listed
reads 0. `resumed` bonds lanes that go on as one convoy although their counters differ, for one instruction (R308, R311). -/
structure Lane where
  v : Store Word := []
  p1 : Bool := false
  p2 : Bool := false
  p3 : Bool := false
  pc : BitVec 57 := 0
  counter : Word := 0
  wbase : Nat := 0
  resbase : Nat := 0
  scap : Nat := 24
  convCount : Word := 0
  awaited : Store Nat := []
  path : Nat := 0
  park : Option Park := none
  exited : Bool := false
  meld : Option Meld := none
  tmeld : TMeld := {}
  atTret : Bool := false
  resumed : Option Nat := none
  deriving DecidableEq, Repr

/-- A slice's sequencer (R155): the path it issues from, and how many instructions that path has issued. -/
structure Slice where
  current : Nat := 0
  issued : Nat := 0
  deriving DecidableEq, Repr

/-- The register files the checking scoreboard names (R226). -/
inductive RegFile where
  | v | s | p
  deriving DecidableEq, Repr

/-- A write that R225 and R226 do not yet let every reader see: which register of which lane, the value before it,
either the issue distance at which it is whole or that it is of variable latency, whether a drained access makes it, and
whether it is a variable-latency result that can set an FPCSR flag (R239). -/
structure Hazard where
  lane : Nat
  file : RegFile
  reg : Nat
  key : Nat
  old : Word
  due : Nat
  varLat : Bool
  flag : Nat
  drained : Bool := false
  fp : Bool := false
  deriving DecidableEq, Repr

/-- A register whose value is uncorrectable (R400, R464): which register of which lane (lane 0 for the s file). -/
structure BadReg where
  lane : Nat
  file : RegFile
  key : Nat
  deriving DecidableEq, Repr

/-- The part of a group that a checkpoint holds (R113), with the copies its PROMISE pairs are bound to (R344). -/
structure GroupArch where
  lanes : List Lane := []
  slices : List Slice := []
  sregs : Store Word := []
  fpcsr : BitVec 16 := 0
  srseed : Word := 0
  dqPos : Nat := 0
  hazards : List Hazard := []
  struck : List BadReg := []
  distance : Nat := 0
  nextPath : Nat := 1
  nextConvoy : Nat := 0
  bound : List (Nat × Nat) := []
  deriving DecidableEq, Repr

/-! ### Engine commands, range locks -/

/-- A range of an engine operation (R128): GVA bytes of a context, or cluster scratch bytes (as locations). -/
structure Range where
  scratch : Bool
  base : Nat
  len : Nat
  deriving DecidableEq, Repr

/-- Which side of an engine operand a block names. -/
structure CopyDesc where
  kind : Nat := 0
  ssp : Bool := false
  dsp : Bool := false
  rows : Nat := 1
  soff : Nat := 0
  doff : Nat := 0
  rbytes : Nat := 16
  sstride : Nat := 0
  dstride : Nat := 0
  deriving DecidableEq, Repr

/-- A chain image (R333): its header word, constants k0 to k3, micro-ops. -/
structure Image where
  head : Word := 0
  consts : List Word := []
  uops : List Word := []
  deriving DecidableEq, Repr

/-- A chain run (R335 to R339): the scratch addresses of its image and descriptor, LOAD, SLOT and SEED; once begun, the
descriptor's words and the image; row, pass, group and the next micro-op; the temporaries (8 of 16 FP32 elements); the
inputs that its pass uses, as read at the start of the present group (16 elements each); what
its outputs have produced (output, byte offset in the output's space, bytes), the even groups of MX blocks, the status
bits; and whether it has ended, with the fault that ended it. -/
structure ChainRun where
  imageAt : Nat := 0
  descAt : Nat := 0
  load : Bool := false
  slot : Nat := 0
  seed : Word := 0
  begun : Bool := false
  desc : List Word := []
  image : Image := {}
  row : Nat := 0
  pass : Nat := 0
  group : Nat := 0
  uop : Nat := 0
  temps : List (List Word) := []
  ins : Store (List Word) := []
  outs : List (Nat × Nat × List Byte) := []
  held : List (Nat × List Word) := []
  sticky : Nat := 0
  ended : Bool := false
  failed : Option (Nat × Option (DWord × Nat)) := none
  deriving DecidableEq, Repr

/-- What an engine operation does at its event (R131). -/
inductive OpKind where
  | copy (d : CopyDesc)
  | chain (r : ChainRun)
  | mload (buf : Nat) (addr : Nat) (mcast : BitVec 8)
  | mdrain (acc ofmt rm trm : Nat) (trans mem : Bool) (toff dest : Nat)
  | collective (prog step : Nat)
  | hold (buf : Nat)
  deriving DecidableEq, Repr

/-- Where an operation stands (R317, R320, R327): live, a multicast load whose partners have not all come, parked on a fault
record, or cancelled and about to end. -/
inductive OpState where
  | live | matching | parked | cancelled
  deriving DecidableEq, Repr

/-- An access of an operation that failed for good, by an ERROR or by a DENY: its GVA, whether it wrote, the fault code, and the
address that the violation log records. -/
structure Broken where
  gva : Nat
  write : Bool
  code : Nat
  addr : Nat
  deriving DecidableEq, Repr

/-- One engine operation with its RLT entry (R128): what issued it and where, its capabilities, ranges, flag and progress, of which
`least` bytes are known to have moved; its accesses to PEER memory (R132): what has been read with its bytes, how many lines are
written and the line after the last of them, the access that failed, the outbound access it waits for; and the code of an ERROR
to a collective step. `orphan` marks a copy whose program has already ended. -/
structure EngineOp where
  core : Nat
  team : Nat
  gid : Nat
  flag : Nat
  kind : OpKind
  ctx : Ctx
  capA : Cap := {}
  capB : Cap := {}
  srcs : List Range := []
  dsts : List Range := []
  state : OpState := .live
  program : Bool := false
  orphan : Bool := false
  pair : Option Nat := none
  promise : Nat := 0
  released : Nat := 0
  bytes : Nat := 0
  cls : Nat := 0
  signal : Option Nat := none
  ordered : Bool := false
  locked : Bool := true
  pc : BitVec 57 := 0
  got : List (Nat × List Byte) := []
  acked : Nat := 0
  peerTo : Nat := 0
  broken : Option Broken := none
  refused : Nat := 0
  least : Nat := 0
  out : Option Nat := none
  deriving DecidableEq, Repr

/-- An engine command as the DLB holds it (R126): its checked operands. -/
inductive Command where
  | fork (q : Nat) (mat chn cpy : Nat) (capM capC capP : Cap) (seed : Word)
  | copy (d : CopyDesc) (pair : Nat) (src dst : Cap) (flag : Nat)
  | chain (image desc : Nat) (load : Bool) (slot : Nat) (seed : Word) (inp out : Cap) (flag : Nat)
  | coll (offset seqr block : Nat) (cap : Cap) (flag : Nat)
  | cancelCopy (pair : Nat)
  | cancelColl (handle : Nat)
  deriving DecidableEq, Repr

/-! ### Outrider mode -/

/-- One buffered store (R115): the bytes one store instruction writes in one 128-byte line, and the tag for a CSTORE
(granule, tag). -/
structure Buffered where
  line : Nat
  cells : List (Nat × Byte)
  tag : Option (Nat × Bool) := none
  key : Nat := 0
  deriving DecidableEq, Repr

/-- An entry of the deferred launch buffer (R126): the command, the ranges it will lock, its program position. -/
structure Deferred where
  cmd : Command
  srcs : List Range := []
  dsts : List Range := []
  pc : BitVec 57 := 0
  deriving DecidableEq, Repr

/-- An epoch (R111): the checkpoint, the flags it raised and those of results older than it that were still to be written, its read
set, store buffer and DLB, the oldest unperformed access (R390), and what waits for commit: the flags of its stores, and for each of
its writes the GVA (or scratch location), size and translation by which the range locks judge it, and how many instructions which
lane had then issued (R120); the same of its loads, by which an invalidation does (R33); and how many instructions each lane has
issued. -/
structure Epoch where
  saved : GroupArch
  raised : List Nat := []
  older : List Nat := []
  reads : List Nat := []
  stores : List Buffered := []
  dlb : List Deferred := []
  oldestPc : BitVec 57 := 0
  oldestMask : List Nat := []
  storeFlags : List Nat := []
  writes : List (Nat × Nat × Option Xlat) := []
  writers : List (Nat × Nat) := []
  loads : List (Nat × Nat × Option Xlat) := []
  counts : Store Nat := []
  instrs : Nat := 0
  deriving DecidableEq, Repr

/-- OUTCTL (R138) with the escalation state of R136: EN, HELD and how many instructions until it clears, TOKEN,
ROLLS, RBTOTAL, the length of the present clean run, and how many instructions which lanes must
still issue with outrider mode off after a replay (R120). -/
structure OutCtl where
  en : Bool := true
  held : Option Nat := none
  token : Bool := false
  rolls : Nat := 0
  rbtotal : BitVec 16 := 0
  clean : Nat := 0
  replay : Store Nat := []
  deriving DecidableEq, Repr

/-- A group, or a team's guide (R143, R151). `drained` names the drained access whose completion its later accesses wait
for (R123), `stuck` says that an instruction in its shadow met a trap cause, `kept` the registers that the checkpoint store holds
for an epoch or a shadow (R113, R123); `release` holds the entries of a committed epoch's DLB not yet released (R117), `cmdWait` the
convoys whose commands wait for their release outside outrider mode, in program order (R130). -/
structure Group where
  team : Nat := 0
  index : Nat := 0
  role : Nat := 0
  roleIndex : Nat := 0
  isGuide : Bool := false
  width : Nat := 16
  arch : GroupArch := {}
  caps : List Cap := []
  flags : Store Nat := []
  faultBits : Store Nat := []
  inflight : List Nat := []
  depchk : Bool := false
  outctl : OutCtl := {}
  epoch : Option Epoch := none
  trapMode : Bool := false
  tvec : BitVec 57 := 0
  tcause : Nat := 0
  taddr : DWord := 0
  tpc : BitVec 57 := 0
  tmask : DWord := 0
  spillprog : BitVec 9 := 0
  partdone : DWord := 0
  idle : Nat := 0
  breakpoints : List (Option Nat) := []
  drained : Option Nat := none
  stuck : Bool := false
  kept : List BadReg := []
  release : List Deferred := []
  cmdWait : List (List Nat × Deferred) := []
  issuedCount : Nat := 0
  deriving DecidableEq, Repr

/-! ### Teams and launches -/

/-- A decision of the decision queue (R169): its number in push order, the decision, its role mask. -/
structure Decision where
  seq : Nat
  value : Word
  mask : BitVec 4
  deriving DecidableEq, Repr

/-- A barrier (R299). ARRIVED holds (group index, lane-in-group). -/
structure Barrier where
  mask : BitVec 4 := 0
  phase : Word := 0
  arrived : List (Nat × Nat) := []
  deriving DecidableEq, Repr

/-- The state of a team's current or latest program on one sequencer (R173, R174, R319), and the group that forked it. -/
structure ProgStatus where
  state : Nat := 0
  cause : Nat := 0
  sticky : BitVec 4 := 0
  progress : Nat := 0
  fault : Option Nat := none
  forker : Nat := 0
  deriving DecidableEq, Repr

/-- The states of a team set (R381). -/
inductive SetState where
  | waiting | resident | swapped | evicted | ready | retired
  deriving DecidableEq, Repr

/-- A team (R143, R145, R51, R52). `saved` holds the bytes of its scratch allocation while it is not on a core (R382, R383), `area` the
offset and length of its set's part of the eviction area, at one member of the set. -/
structure Team where
  launch : Nat := 0
  teamId : Nat := 0
  gridX : Nat := 0
  gridY : Nat := 0
  gridZ : Nat := 0
  member : Nat := 0
  setSize : Nat := 1
  core : Nat := 0
  sbase : Nat := 0
  ssize : Nat := 0
  state : SetState := .resident
  lprio : Nat := 0
  ctx : Ctx := {}
  cluster : Nat := 0
  codebase : Nat := 0
  groups : List Nat := []
  guide : Option Nat := none
  dq : List Decision := []
  dqCount : Nat := 0
  barriers : Store Barrier := []
  seqs : List ProgStatus := []
  mlcount : Nat := 0
  mrounds : Nat := 0
  copies : Store (ProgStatus) := []
  saved : List (Nat × Byte) := []
  area : Nat × Nat := (0, 0)
  deriving DecidableEq, Repr

/-- A region descriptor of the meld table (R162). -/
structure Region where
  count : Nat := 0
  start : Nat := 0
  apply : DWord := 0
  list0 : List (Nat × Nat) := []
  list1 : List (Nat × Nat) := []
  deriving DecidableEq, Repr

/-- A role descriptor (R178). -/
structure Role where
  entry : Nat := 0
  regs : Nat := 0
  lanes : Nat := 0
  deriving DecidableEq, Repr

/-- A preload entry (R178). -/
structure Preload where
  value : Word := 0
  kind : Nat := 0
  target : Nat := 0
  sreg : Nat := 0
  deriving DecidableEq, Repr

/-- An accepted launch (R177, R374): the record as read, the meld table and preload list copied at acceptance, the
root and code capabilities, which team set comes next, and its status. -/
structure Launch where
  part : Nat := 0
  fn : Nat := 0
  queue : Nat := 0
  ctx : Ctx := {}
  width : Nat := 16
  setLog : Nat := 0
  hasGuide : Bool := false
  fuse : Bool := false
  scratch : Nat := 0
  codebase : Nat := 0
  codelen : Nat := 0
  guideEntry : Nat := 0
  dimX : Nat := 1
  dimY : Nat := 1
  dimZ : Nat := 1
  roles : List Role := []
  root : Cap := {}
  code : Cap := {}
  melds : List Region := []
  preloads : List Preload := []
  result : Nat := 0
  completion : Nat := 0
  ordered : Bool := false
  nextTeam : Nat := 0
  live : Nat := 0
  status : Nat := 0x10
  cores : List Nat := []
  deriving DecidableEq, Repr

/-! ### Core engines -/

/-- An accumulator tile (R323): its kind (none, some false FP32, some true INT32) and its 4,096 words, those not 0. -/
structure Tile where
  kind : Option Bool := none
  words : Store Word := []
  deriving DecidableEq, Repr

/-- A fork-queue entry (R172): team, scratch address of the program, its capability, and for a matrix program the
seed captured at release (R322). -/
structure ForkEntry where
  team : Nat
  addr : Nat
  cap : Cap
  seed : Word
  deriving DecidableEq, Repr

/-- One open MSTEP (R332): the word it stands at, repetitions left, repetition number, ADDINC, its body's first word. -/
structure Loop where
  place : Nat
  first : Nat
  rep : Nat
  count : Nat
  inc : Nat
  deriving DecidableEq, Repr

/-- The matrix sequencer's running program (R322 to R332); `round` says the how-manieth of its team it is (R327), `refill` that it
has been halted and reads its filled buffers again before its next command (R352). -/
structure MatrixRun where
  entry : ForkEntry
  index : Nat := 0
  loops : List Loop := []
  config : Option (Nat × Nat × Nat) := none
  buffers : List (Option (List Byte)) := [none, none, none, none]
  pending : Option Nat := none
  drains : Nat := 0
  mcasts : Store Nat := []
  round : Nat := 0
  refill : Bool := false
  deriving DecidableEq, Repr

/-- The chain or copy sequencer's running program (R340, R345): the entry and how many of its items it has released. -/
structure SeqRun where
  entry : ForkEntry
  index : Nat := 0
  last : Bool := false
  deriving DecidableEq, Repr

/-- A chain-store slot (R333). -/
structure Slot where
  team : Option Nat := none
  image : Image := {}
  deriving DecidableEq, Repr

/-- The copy predictor of one class (R343). RATE is a rational as numerator and denominator. -/
structure Predictor where
  lat : Nat
  rateNum : Nat
  rateDen : Nat
  margin : Nat
  early : Nat
  deriving DecidableEq, Repr

/-- One core (R1, R172, R323, R333, R343, R298). `lag` says how far droops have set its own clock
back, in 2,400ths of a tick (R463). -/
structure Core where
  tiles : Store Tile := []
  matrix : Option MatrixRun := none
  chain : Option SeqRun := none
  copy : Option SeqRun := none
  matrixQ : List ForkEntry := []
  chainQ : List ForkEntry := []
  copyQ : List ForkEntry := []
  matrixHalted : Bool := false
  chainHalted : Bool := false
  copyHalted : Bool := false
  slots : Store Slot := []
  predictors : Store Predictor := []
  icache : Store (BitVec 16) := []
  droop : Bool := false
  lag : Nat := 0
  deriving DecidableEq, Repr

/-- A collective step that has started and has not had its event (R349, R351): its place, OP and operands, its operation,
whether the receiver's clearance has come, the bytes or pairs received and the end markers. -/
structure PostedStep where
  index : Nat
  op : Nat
  args : CollArgs
  engineOp : Nat
  cleared : Bool := false
  received : List Byte := []
  pairs : List (Word × Word) := []
  ends : Nat := 0
  deriving DecidableEq, Repr

/-- A live or recent collective program (R346): its sequencer, issuer, capability, handle, the step it comes to next with
the operation that reads it, the steps started, whether the last of them lets the next start, the state and cause with which it
ends once its steps have (R471), and its status. -/
structure CollProg where
  sequencer : Nat
  team : Nat
  gid : Nat
  flag : Nat
  ctx : Ctx
  cap : Cap
  offset : Nat
  handle : Nat
  fetchOp : Nat
  next : Nat := 0
  posted : List PostedStep := []
  async : Bool := true
  closing : Option (Nat × Nat) := none
  ended : Bool := false
  status : ProgStatus := {}
  deriving DecidableEq, Repr

end Sys2Proof.Machine
end

