-- ==== Sys2Proof/Machine/Device.lean ====
section
/-! DEFINITION. The rest of what the state is made of: memory, caches and their homes (R39, R57 to R73), HBM and NMU
(R76 to R105), command processors and queues (R362 to R387), fault queue (R393 to R398), fabric (R409 to R418),
migration (R426 to R440), the SEC (R449 to R460), power and the waybill (R462 to R469). Plain data only. -/

namespace Sys2Proof.Machine

/-! ### Memory -/

/-- DRAM, host memory and scratch as one list of bytes keyed by location, in canonical form: rising, no zero byte.
`keys` gives, per 16-byte granule, the serial of the key it was written under (R88 to R90; 0 the clear key, not
listed), `tags` the granules whose capability tag is 1 (R39), `bad` the uncorrectable granules (R81), `badWords` the
uncorrectable 32-bit words of scratch (R464), counted from its first. -/
structure Memory where
  bytes : List Host.Cell := []
  keys : Store Nat := []
  tags : List Nat := []
  bad : List Nat := []
  badWords : List Nat := []
  deriving DecidableEq, Repr

/-! ### Caches and homes -/

/-- The directory states of R63. -/
inductive DirState where
  | i | s | x | inv | recall
  deriving DecidableEq, Repr

/-- A request at a home: the core, or none for a party outside the device, whether it is an own (R66, R92), and the granules
of the line it asks for (R74). -/
structure HomeReq where
  core : Option Nat
  own : Bool
  mask : BitVec 8 := 0xFF
  deriving DecidableEq, Repr

/-- A directory entry with the home's transaction (R63, R64, R67). -/
structure DirEntry where
  state : DirState := .i
  cv : Bool := false
  sharers : List Nat := []
  current : Option HomeReq := none
  expected : Nat := 0
  count : Nat := 0
  waiting : List HomeReq := []
  deriving DecidableEq, Repr

/-- An L1 line (R57): core, line location, key serial, whether held in X, and the valid and dirty granules. -/
structure L1Line where
  core : Nat
  line : Nat
  key : Nat
  exclusive : Bool
  valid : BitVec 8
  dirty : BitVec 8
  deriving DecidableEq, Repr

/-- The messages of R65 to R68 on their way. -/
inductive MsgKind where
  | read | own | grantS | grantX | invalidate | recallS | recallX | ack | notice | writeBack (mask : BitVec 8)
  deriving DecidableEq, Repr

/-- A message: its kind, the core it comes from or goes to, its line, the granules a grant carries (R66), and since when, by
its own clock, the core has held it back (R137, R463). -/
structure Msg where
  kind : MsgKind
  core : Nat
  line : Nat
  mask : BitVec 8 := 0xFF
  heldSince : Option Nat := none
  deriving DecidableEq, Repr

/-- An MSC line of 2 KiB (R71): valid and dirty granules, sectors recorded, the sector that allocated it, its last use, and the key
serial under which each of its 16 parts of 128 bytes is held (R89). -/
structure MscLine where
  valid : BitVec 128 := 0
  dirty : BitVec 128 := 0
  sectors : BitVec 32 := 0
  first : Nat := 0
  used : Nat := 0
  keys : Store Nat := []
  deriving DecidableEq, Repr

/-- A footprint-predictor entry (R73). -/
structure Footprint where
  sectors : BitVec 32 := 0
  confidence : Nat := 0
  deriving DecidableEq, Repr

/-- A WAITC monitor (R298, R382): the line it watches; the lane for a core monitor, or the team set for a remote one. -/
structure Monitor where
  line : Nat
  gid : Nat
  lane : Nat
  remote : Bool := false
  deriving DecidableEq, Repr

/-! ### HBM and NMU -/

/-- Pseudo-channel power states (R80); an exit ends at the given CLOCK. -/
inductive PowerState where
  | awake | powerDown | selfRefresh | exiting (until_ : Nat)
  deriving DecidableEq, Repr

/-- A request at an HBM channel (R77): the location, whether it writes, the CLOCK before which it is not reissued. -/
structure ChanReq where
  id : Nat
  dpa : Nat
  isWrite : Bool
  notBefore : Nat := 0
  fill : BitVec 128 := 0
  deriving DecidableEq, Repr

/-- An HBM channel (R78, R80, R465): its requests in order, per pseudo-channel its power state, last request and the idle
times (PDIDLE, SRIDLE) that apply to it, banks under refresh (bank, CLOCK at which it ends), corrected errors in the
present hour. -/
structure Channel where
  requests : List ChanReq := []
  power : Store PowerState := []
  lastUse : Store Nat := []
  limits : Store (Nat × Nat) := []
  refresh : Store Nat := []
  corrected : Nat := 0
  hour : Nat := 0
  deriving DecidableEq, Repr

/-- What an access does: a load, a store of bytes, a store of those bytes of a granule (R410) or of an engine's line (R132) that a mask selects, an atomic
with its operation (R224), width and operands. -/
inductive What where
  | load
  | store (value : List Byte)
  | masked (mask : BitVec 128) (value : List Byte)
  | atomic (op : Nat) (wide mm : Bool) (v cmp : DWord)
  deriving DecidableEq, Repr

/-- One access of one lane: which part of the lane's data it is, the unit that stands as one access (a lane, or an MX
block with its scale, R133), its GVA, location, bytes and key serial, the OWNER a violation would log, its translation
(none for scratch), whether a miss of it asks for ownership (R70), and whether its unit is an MX block. -/
structure Req where
  lane : Nat
  part : Nat := 0
  unit : Nat
  gva : Nat
  loc : Nat
  size : Nat
  key : Nat := 0
  owner : Nat := 0
  x : Option Xlat := none
  excl : Bool := false
  block : Bool := false
  what : What
  deriving DecidableEq, Repr

/-- How the bytes an instruction returns stand in registers (R262, R267). -/
inductive Place where
  | none
  | plain (signed : Bool)
  | mx (size : Nat)
  deriving DecidableEq, Repr

/-- A drained memory instruction in flight (R123, R261): the group's state before it and the escalation state, its
convoy, ACTIVE set, address and access kind, its flag, the lanes PARTDONE held, where its results go (per lane the
register keys), for a step of SPILL or FILL the steps then completed, the accesses to perform in order, those that
performed with the bytes they returned, those that failed, the outbound access it waits for, and the group's state right after the
instruction issued. -/
structure DrainOp where
  gid : Nat
  saved : GroupArch
  ctl : OutCtl
  mask : List Nat
  act : List Nat
  pc : BitVec 57
  acc : Access
  flag : Nat
  prior : List Nat := []
  place : Place := .none
  dest : List (Nat × List Nat) := []
  step : Option Nat := none
  todo : List Req
  done : List (Nat × Nat × List Byte) := []
  failed : List (Nat × Fail) := []
  out : Option Nat := none
  after : GroupArch := {}
  deriving DecidableEq, Repr

/-- An indexed reduce in flight (R85 to R87): as a drained instruction its rows are the accesses still to perform and
those performed; then the element type, the active lanes, and the destination's 128-byte lines still to update. -/
structure ReduceOp where
  base : DrainOp
  etype : Nat
  lines : List Req
  deriving DecidableEq, Repr

/-- Channel retirement (R96 to R98): PHASE 0 idle, 1 copy, 2 switch; the channel being retired, and the CHAN field of CHRETIRE. -/
structure Retire where
  busy : Bool := false
  phase : Nat := 0
  status : Nat := 0
  chan : Nat := 0
  field : Nat := 0
  deriving DecidableEq, Repr

/-- A hot-page counter entry (R99), with its place in the order of use. -/
structure HotEntry where
  used : Nat := 0
  count : Nat := 0
  hot : Bool := false
  collide : Bool := false
  fn : Nat := 0
  ppin : Bool := false
  deriving DecidableEq, Repr

/-- The hot-page tracker's registers (R100), and the CLOCK at which each I/O die's latest epoch ended. -/
structure HotRegs where
  hothi : Nat := 0x400
  hotlo : Nat := 0x100
  epoch : Nat := 0x2580
  en : Bool := false
  base : DWord := 0
  lost : Nat := 0
  head : Nat := 0
  tail : Nat := 0
  ended : Store Nat := []
  deriving DecidableEq, Repr

/-! ### Faults and logs -/

/-- A fault record (R394, R396): its fields and the parties parked on it; no ID while it is held. `hidden` marks the parks
of a page being moved, which go to the CP alone (R103); `answer` a response (true RETRY) that parties not on a core have
still to receive (R398). -/
structure FaultRec where
  id : Option Nat
  fn : Nat
  asid : Nat
  fault : PageFault
  gva : Nat
  access : Nat
  source : Nat
  cluster : Nat
  core : Nat
  parties : List Party
  hidden : Bool := false
  answer : Option Bool := none
  deriving DecidableEq, Repr

/-- A waybill entry (R468). -/
structure Waybill where
  time : Nat
  addr : DWord
  detail : DWord
  code : Nat
  part : Option Nat
  fn : Nat := 0
  core : Nat := 0
  scrub : Bool := false
  deriving DecidableEq, Repr

/-- A waybill ring (R467): its entries, oldest first, and how many were ever written. -/
structure Ring where
  entries : List Waybill := []
  head : Nat := 0
  deriving DecidableEq, Repr

/-! ### Command processor -/

/-- A queue control block as the CP holds it (R364), with the packets its slot has prefetched, by packet count (R367). -/
structure Queue where
  ringBase : Nat := 0
  ringLog : Nat := 4
  state : Nat := 0
  prio : Nat := 0
  age : Nat := 0
  rptr : Word := 0
  wptr : Word := 0
  lcnt : Word := 0
  err : Nat := 0
  ahead : Store (List Byte) := []
  deriving DecidableEq, Repr

/-- A command that waits part-way (R33, R93, R103, R371): its queue, CWADDR and what it waits for. -/
inductive Waiting where
  | invalidation (id : Nat)
  | flipLocks (fn gpa : Nat) (bias : Bool) (ho : BitVec 16) (deferred : Bool) (since : Nat)
  | flipHost (fn gpa : Nat) (bias : Bool) (ho : BitVec 16) (pages lines : List Nat)
  | flipInval (id fn gpa : Nat) (pages : List Nat)
  | migrateInval (id fn gpa newOut kind key place : Nat) (leaves : List DWord)
  deriving DecidableEq, Repr

/-- A waiting command with its queue and completion word. -/
structure Pending where
  queue : Nat
  cw : Nat
  what : Waiting
  deriving DecidableEq, Repr

/-- An accepted invalidation (R32, R33): which kind, who it covers, and whether it is leaf-only. -/
structure Inval where
  id : Nat
  kind : Nat
  fn : Nat
  asid : Nat
  base : Nat
  len : Nat
  leafOnly : Bool := false
  deriving DecidableEq, Repr

/-- A word the CP has still to write (R372, R374): through which context, or at a DPA for an admin queue, where, its
bytes, the status it carries for WORD_UNWRITTEN, and the launch ended early whose operations it stands after (R309, R375). -/
structure CpWrite where
  ctx : Ctx
  admin : Bool := false
  addr : Nat
  bytes : List Byte
  status : Nat
  after : Option Nat := none
  deriving DecidableEq, Repr

/-- The steps of a function switch (R383). -/
inductive SwitchPhase where
  | running | staged | halted | exchanged
  deriving DecidableEq, Repr

/-- A partition (R421): its registers and its command processor. `procs` gives the GPA of each process's record (R371),
`resume` the packets of commands that waited when the partition was moved (R435), `worked` the queues with work, each with its process, `rr` the queue admitted from last (R378),
`fusedOf` the L1 modes of functions switched out (R383). Of a migration (R426 to R440): `migRanges` the listed blocks' DPAs, `migPos` how many
listed blocks the round has passed, `migReading` whether the bit of the block there has been cleared and its lines are being read,
`migUsed` the bits set in the present microsecond, `migCaptured` whether the state has been captured, `migImage` whether the lading image
has been sent, `migSwitched` when the switch was; at a destination `inEnd` the END image write not yet answered, `carried` results that
came before the installation, `inRun` the function to run at resume. -/
structure Part where
  clusters : BitVec 64 := 0
  hbmMin : Nat := 0
  fabMin : Nat := 0
  pclkofs : DWord := 0
  block : List DWord := [0, 0, 0, 0, 0]
  vlogBase : DWord := 0
  vlogLost : Nat := 0
  vlogHead : Word := 0
  vlogTail : Word := 0
  fqBase : DWord := 0
  fqHead : Word := 0
  fqTail : Word := 0
  faults : List FaultRec := []
  fabwt : DWord := 0x01010101
  mapped : Store Queue := []
  pendingBits : List Nat := []
  partway : List Nat := []
  resume : Store (List Byte) := []
  launches : Store (List Nat) := []
  lastLaunch : Store Nat := []
  waiting : List Pending := []
  notify : Store DWord := []
  vtime : Store Nat := []
  ageSince : Store Nat := []
  procs : Store Nat := []
  worked : Store Nat := []
  rr : Nat := 0
  running : Option Nat := none
  sliceEnd : Nat := 0
  fusedOf : Store (BitVec 64) := []
  switch : SwitchPhase := .running
  next : Option Nat := none
  writingBack : List Nat := []
  invals : List Inval := []
  nextInval : Nat := 0
  fused : BitVec 64 := 0
  migAuto : Bool := true
  migDvdn : Nat := 0
  migPorts : BitVec 18 := 0
  migSelf : Nat := 0
  migRate : Nat := 0
  migList : DWord := 0
  migDirty : Nat := 0
  migRound : Nat := 0
  migStatus : Nat := 0
  migPhase : Nat := 0
  migStop : Bool := false
  migEffective : Nat := 0
  migUsed : Nat := 0
  migHeld : Bool := false
  migEndAck : Bool := false
  migPos : Nat := 0
  migRanges : List (Nat × Nat) := []
  migReading : Bool := false
  migCaptured : Bool := false
  migImage : Bool := false
  migSwitched : Nat := 0
  capClock : Nat := 0
  inEn : Bool := false
  inPhase : Nat := 0
  inSrc : Nat := 0
  inImg : Nat := 0
  inEnd : Option Flit := none
  carried : Store (List Byte) := []
  inRun : Option Nat := none
  deriving DecidableEq, Repr

/-! ### Fabric -/

/-- A VDN table entry (R412). -/
abbrev VdnEntry := DWord

/-- Where an outbound access stands (R412, R416): sent, since when and under which EPOCH; served within the device; waiting at a
HELD entry; waiting out a RETRY; answered MOVED, with the EPOCH it was sent under and when the entry is read again; or left with the source of a migration, under
an index (R432). -/
inductive OutState where
  | sent (since epoch : Nat) | within | held | retry (until_ : Nat) | moved (epoch until_ : Nat) | elsewhere (index : Nat)
  deriving DecidableEq, Repr

/-- Who waits for an outbound access: a drained instruction, an engine operation, a partition's
migration (R432), or the sender of a flit that the device forwards (R437). -/
inductive Owner where
  | drain (id : Nat)
  | op (id : Nat)
  | move (part : Nat)
  | relay (kind : Nat) (f : Flit)
  deriving DecidableEq, Repr

/-- An outbound PEER access (R134, R412 to R417): who waits for it, the sending function and its partition, its SVDN and
target, what it asks, its TAG, its class, its kind where it is no access (CDATA, CLEAR, SPARSE, SPEND), its state, and under which index it has gone with
its partition to another device (R433); for an engine operation also the access it belongs to; the ports of its latest route. -/
structure Outbound where
  owner : Owner
  part : Nat
  fn : Nat
  svdn : Nat
  vdn : Nat
  gpa : Nat
  size : Nat
  what : What
  seq : Option Nat := none
  tc : Nat := 0
  kind : Nat := 0
  state : OutState
  moved : Option Nat := none
  req : Option Req := none
  ports : BitVec 18 := 0
  deriving DecidableEq, Repr

/-- A packet the device has put on the fabric: its kind (R411) and flit. -/
structure Packet where
  kind : Nat
  flit : Flit
  deriving DecidableEq, Repr

/-! ### Security -/

/-- An installed key (R451): the function it is bound to and the serial that names its key pair. -/
structure Key where
  fn : Nat
  serial : Nat
  deriving DecidableEq, Repr

/-- A debug token in force (R457). -/
structure Token where
  part : Nat
  perm : BitVec 3
  expiry : Nat
  deriving DecidableEq, Repr

/-- An IDE_KM request of a secure session (R460). -/
inductive IdeKm where
  | query
  | keyProg (ks : IdeKeySet) (key : BitVec 256)
  | setGo (ks : IdeKeySet)
  | setStop (ks : IdeKeySet)
  deriving DecidableEq, Repr

/-- A command in the SEC's order (R449): from SECCMD (operation, ARG, BUF), or a KEYRETIRE or seal end that a
dissolution queued (R453). `seals` lists the partitions that were being sealed when it was accepted (R456, R461). -/
structure SecCmd where
  op : Nat
  arg : Nat
  buf : Nat
  reserved : Bool := false
  internal : Bool := false
  number : Nat := 0
  seals : List Nat := []
  ide : Option IdeKm := none
  deriving DecidableEq, Repr

/-- Where the SPDM responder stands (R460). -/
inductive Spdm where
  | idle | version | capabilities | negotiated | exchanging | session
  deriving DecidableEq, Repr

/-- The responder's latest answer (R460). Certificates, digests and signatures are not held. -/
inductive SpdmAnswer where
  | error | version (v : Nat) | capabilities | algorithms (a : SpdmAlgs) | digests | certificate | challenge (nonce : BitVec 256)
  | measurements (image : BitVec 384) (svn : Nat) | keyExchange | finish | streams (n : Nat) | keyProg (ok : Bool) | setGo (ok : Bool)
  | setStop (ok : Bool)
  deriving DecidableEq, Repr

/-- The SEC (R449 to R460). Key pairs and derived keys are named by serials. `nonces` holds per partition the nonce of its latest
report, `lastNonce` that of the latest report of all, `sealing` the partitions being sealed, `svn` and `image` the running
firmware's SVN and hash (no hash: the image the device was made with), `pending` those of an accepted image; `retired` the
non-volatile record of retired channels (R97); `ideKeys` and `ideActive` the IDE keys by stream, direction and set, and the
set in use by stream and direction. -/
structure Sec where
  keys : Store Key := []
  nextSerial : Nat := 1
  attKeys : Store Nat := []
  nonces : Store (BitVec 384) := []
  lastNonce : Option (BitVec 384) := none
  usedNonces : List (BitVec 384) := []
  sealedParts : List Nat := []
  sealing : List Nat := []
  tokens : Store Token := []
  nextToken : Nat := 0
  fuse : Nat := 0
  svn : Nat := 0
  image : Option (BitVec 384) := none
  pending : Option (BitVec 384 × Nat) := none
  queue : List SecCmd := []
  accepted : Word := 0
  done : Word := 0
  migKeys : Store Nat := []
  spdm : Spdm := .idle
  algs : SpdmAlgs := { rsa3072Sha384 := false, secp384r1 := false, aes256Gcm := false }
  answer : Option SpdmAnswer := none
  sessionKey : Nat := 0
  ideKeys : Store (BitVec 256) := []
  ideActive : Store Nat := []
  deriving DecidableEq, Repr

/-- The host driver's device registers that are plain storage (R79, R413, R462, R469), the frequency of the core clocks, and how far
it has set them behind CLOCK, in 2,400ths of a tick (R463). -/
structure Regs where
  hbmpwr : DWord := 0x0000010000400000
  rostsel : DWord := 0
  cap : Nat := 2000
  draw : Nat := 0
  freq : Nat := 2400
  lag : Nat := 0
  wbsel : DWord := 0
  hotDies : List Nat := []
  deriving DecidableEq, Repr

end Sys2Proof.Machine
end

