-- ==== Sys2Proof/Machine/State.lean ====
section
/-! DEFINITION. The state of one RHC-512, as plain data, and the state right after cold reset (R5). What a table of the
state does not list stands at its reset value. -/

namespace Sys2Proof.Machine

/-- The reasons a step can stop with a fault. -/
inductive Fault where
  /-- An access named a location that is no byte of DRAM, host memory or scratch. Every translation keeps its output
  inside the spaces of R11 to R13, so no meaning raises it; it is here so that the outcome has a name. Safe. -/
  | absentMemory (loc : Nat)
  deriving DecidableEq, Repr

/-- The reasons a step can be refused. -/
inductive Refusal where
  /-- The dispatch refuses an instruction that has no meaning yet, by its mnemonic. Safe: nothing is said of it. -/
  | notModelled (mnemonic : String)
  deriving DecidableEq, Repr

/-- What an error of a memory array strikes (R81, R464): a granule, as HBM (0), the MSC (1) or an L1 or directory (2) holds it; a
32-bit word of scratch; a register; the checkpoint store of a group; the RLT entry of an operation; the meld store or the
chain store of a core; the decision queue of a team; a caravanserai, by its core and function; or an error that was
corrected, with the source of RASCNT that counts it. -/
inductive Struck where
  | granule (source loc : Nat)
  | word (loc : Nat)
  | register (gid : Nat) (r : BadReg)
  | checkpoint (gid : Nat)
  | lockEntry (op : Nat)
  | meldStore (core : Nat)
  | chainStore (core : Nat)
  | decisions (team : Nat)
  | shadow (core fn : Nat)
  | corrected (source : Nat)
  deriving DecidableEq, Repr

/-- Which party moves next. The single order of R106 leaves it open which issuer performs when, so the choice is input
to the machine: a list the step reads. -/
inductive Turn where
  /-- A slice of a group comes to an issue decision (R156). -/
  | issue (gid slice : Nat)
  /-- A slice of a group comes to an issue decision at which the group takes a checkpoint before an access (R111, R156). -/
  | speculate (gid slice : Nat)
  /-- The results under one flag of a group are written; 15 names those without a flag (R226, R239). -/
  | settle (gid flag : Nat)
  /-- A core's matrix sequencer comes to its next word (R322). -/
  | matrix (core : Nat)
  /-- A core's chain engine processes one micro-op of its run (R337). -/
  | chain (core : Nat)
  /-- A collective program comes to its next step (R346). -/
  | coll (prog : Nat)
  /-- A partition's CP processes the next packet of a mapped queue (R371). -/
  | cp (part queue : Nat)
  /-- A group's committed DLB entries come to their release (R117, R126). -/
  | release (gid : Nat)
  /-- The CP writes the next result or completion word it owes (R372, R374). -/
  | report
  /-- The migration engine of a partition sends the next block, or the lading image (R430, R433). -/
  | precopy (part : Nat)
  /-- The SEC executes the next command in its order (R449). -/
  | sec
  /-- A walker reads the next entry for a team's address (R30, R34). -/
  | walk (team gva : Nat)
  /-- CLOCK advances (R296). -/
  | tick (n : Nat)
  /-- An error of a memory array comes about (R464). -/
  | strike (x : Struck)
  /-- An event of the machine or of an agent outside it takes place. -/
  | event (i : Instr)
  deriving DecidableEq, Repr

/-- On whose behalf `exec` runs: a convoy of a group (the lanes of its mask), a core's matrix sequencer, a core's chain
engine, or a collective program. -/
inductive Cur where
  | none
  | convoy (gid : Nat) (mask : List Nat)
  | matrix (core : Nat)
  | chain (core op : Nat)
  | coll (prog : Nat)
  deriving DecidableEq, Repr

/-- The machine. -/
structure State where
  mem : Memory := {}
  clock : Nat := 0
  agenda : List Turn := []
  cur : Cur := .none
  rota : Nat := 0
  free : Nat := 0
  fetched : DWord := 0
  cpWrites : List CpWrite := []
  groups : Store Group := []
  teams : Store Team := []
  launches : Store Launch := []
  cores : Store Core := []
  shadows : Store Core := []
  stowed : Store Core := []
  ops : Store EngineOp := []
  colls : Store CollProg := []
  nextId : Nat := 0
  tlb : List TlbEntry := []
  walkCache : List WalkEntry := []
  walks : List Walk := []
  dir : Store DirEntry := []
  dirOrder : List Nat := []
  l1 : List L1Line := []
  msgs : List Msg := []
  msc : Store MscLine := []
  foot : Store Footprint := []
  monitors : List Monitor := []
  prioTokens : Store (List Nat) := []
  channels : Store Channel := []
  retired : Store Nat := []
  retire : Retire := {}
  drains : Store DrainOp := []
  reduces : Store ReduceOp := []
  snoopFilter : List Nat := []
  bisnp : List Nat := []
  halves : Store (BitVec 4) := []
  hot : Store HotEntry := []
  hotRegs : HotRegs := {}
  dirtyMap : List Nat := []
  parts : Store Part := []
  vdn : Store VdnEntry := []
  roster : Store DWord := []
  portsDown : BitVec 18 := 0
  outbound : Store Outbound := []
  early : List Flit := []
  streams : Store Nat := []
  heldLines : List Flit := []
  sent : List Packet := []
  sec : Sec := {}
  regs : Regs := {}
  ras : Store DWord := []
  waybills : Store Ring := []
  deriving DecidableEq, Repr

/-- Right after cold reset: no partition, team, program or command anywhere; every register at the Reset column of its
map; nothing listed in memory; CLOCK 0 (R5, R296, R451, R467). -/
def State.reset : State := {}

end Sys2Proof.Machine
end

