-- ==== Sys2Proof/Machine/Table.lean ====
section
/-! DEFINITION. Reading and writing the finite tables of the state. -/

namespace Sys2Proof.Machine

/-- The entry at key k. -/
def look {α : Type} (t : Store α) (k : Nat) : Option α :=
  match t with
  | [] => none
  | (j, a) :: r => if j = k then some a else look r k

/-- The entry at key k, or d where there is none. -/
def lookD {α : Type} (t : Store α) (k : Nat) (d : α) : α := (look t k).getD d

/-- The table with a at key k. -/
def put {α : Type} (t : Store α) (k : Nat) (a : α) : Store α :=
  match t with
  | [] => [(k, a)]
  | (j, b) :: r => if j < k then (j, b) :: put r k a else if j = k then (k, a) :: r else (k, a) :: (j, b) :: r

/-- The table without key k. -/
def del {α : Type} (t : Store α) (k : Nat) : Store α :=
  match t with
  | [] => []
  | (j, b) :: r => if j = k then del r k else (j, b) :: del r k

/-- The table with the entry at k changed, if there is one. -/
def alter {α : Type} (t : Store α) (k : Nat) (f : α → α) : Store α :=
  match look t k with
  | some a => put t k (f a)
  | none => t

/-- Every entry changed. -/
def mapAll {α : Type} (t : Store α) (f : α → α) : Store α := t.map (fun e => (e.1, f e.2))

/-- A sorted list of numbers with k put in. -/
def insertNat (l : List Nat) (k : Nat) : List Nat :=
  match l with
  | [] => [k]
  | j :: r => if j < k then j :: insertNat r k else if j = k then j :: r else k :: j :: r

/-- A list without its first k. -/
def removeNat (l : List Nat) (k : Nat) : List Nat := l.filter (fun j => j != k)

/-- The numbers from a, n of them. -/
def span (a n : Nat) : List Nat := (List.range n).map (fun i => a + i)

/-- The mask with the bits of a list of lanes. -/
def maskOf (l : List Nat) : DWord := l.foldl (fun m i => m ||| (1#64 <<< i)) 0

/-- Bits [lo + n - 1 : lo] of a 64-bit word. -/
def bits (w : DWord) (lo n : Nat) : Nat := w.toNat / 2 ^ lo % 2 ^ n

/-- Bytes of a number, least significant first. -/
def toBytes (n v : Nat) : List Byte :=
  match n with
  | 0 => []
  | k + 1 => BitVec.ofNat 8 v :: toBytes k (v / 256)

/-- The number whose bytes these are, least significant first (R4). -/
def ofBytes (l : List Byte) : Nat :=
  match l with
  | [] => 0
  | b :: r => b.toNat + 256 * ofBytes r

/-- ceil(a / b). -/
def ceilDiv (a b : Nat) : Nat := (a + b - 1) / b

end Sys2Proof.Machine
end

