-- ==== Sys2Proof/Machine/Caps.lean ====
section
/-! DEFINITION. The capability format (R35 to R37), derivation and sealing as functions of capabilities (R41 to R44,
R273 to R277). -/

namespace Sys2Proof.Machine

/-- Bits [lo + n - 1 : lo] of a capability. -/
def Cap.field (c : Cap) (lo n : Nat) : Nat := c.bits.toNat / 2 ^ lo % 2 ^ n

/-- A capability with bits [lo + n - 1 : lo] replaced. -/
def Cap.setField (c : Cap) (lo n v : Nat) : Cap :=
  { c with bits := BitVec.ofNat 128 (c.bits.toNat - c.field lo n * 2 ^ lo + v % 2 ^ n * 2 ^ lo) }

def Cap.base (c : Cap) : Nat := c.field 0 57
def Cap.mant (c : Cap) : Nat := c.field 59 23
def Cap.exp (c : Cap) : Nat := c.field 82 5
/-- The nine permissions, R in bit 0 up to DERIVE in bit 8 (R35, R220). -/
def Cap.perms (c : Cap) : Nat := c.field 87 9
def Cap.scope (c : Cap) : Nat := c.field 96 3
def Cap.owner (c : Cap) : Nat := c.field 99 12
def Cap.otype (c : Cap) : Nat := c.field 111 4
def Cap.anchor (c : Cap) : Nat := c.field 115 6

/-- Permission numbers of R220. -/
def permR : Nat := 1
def permW : Nat := 2
def permX : Nat := 4
def permATOM : Nat := 8
def permMS : Nat := 16
def permENG : Nat := 32
def permPEER : Nat := 64
def permSEAL : Nat := 128
def permDERIVE : Nat := 256

/-- Whether a capability has every permission of a mask. -/
def Cap.has (c : Cap) (p : Nat) : Bool := decide (c.perms &&& p = p)

/-- The length (R36). -/
def Cap.length (c : Cap) : Nat :=
  if c.mant = 0 ∧ c.exp = 31 then 2 ^ 57 - c.base else c.mant * 2 ^ c.exp

/-- The limit (R36). -/
def Cap.limit (c : Cap) : Nat := c.base + c.length

/-- A capability from its fields. -/
def Cap.make (base exp mant perms scope owner otype anchor : Nat) : Cap :=
  { bits := BitVec.ofNat 128
      (base % 2 ^ 57 + mant % 2 ^ 23 * 2 ^ 59 + exp % 2 ^ 5 * 2 ^ 82 + perms % 2 ^ 9 * 2 ^ 87 + scope % 2 ^ 3 * 2 ^ 96 +
        owner % 2 ^ 12 * 2 ^ 99 + otype % 2 ^ 4 * 2 ^ 111 + anchor % 2 ^ 6 * 2 ^ 115)
    tag := true }

/-- The smallest e from lo, n of them tried, for which the test holds. -/
def findFrom (lo n : Nat) (test : Nat → Bool) : Option Nat :=
  match n with
  | 0 => none
  | k + 1 => if test lo then some lo else findFrom (lo + 1) k test

/-- The encoding of a requested length (R43): exponent and mantissa, rounded up. -/
def encodeLength (n : Nat) : Option (Nat × Nat) :=
  if n = 0 then some (0, 0)
  else
    match findFrom 0 32 (fun e => decide (ceilDiv n (2 ^ e) < 2 ^ 23)) with
    | some e => some (e, ceilDiv n (2 ^ e))
    | none => none

/-- The root the CP mints from a function record's grant (R41); none where the grant is refused. -/
def mintRoot (base len perm owner : Nat) : Option Cap :=
  if base ≥ 2 ^ 57 ∨ perm / 2 ^ 9 % 8 ≥ 5 ∨ perm / 2 ^ 12 ≠ 0 then none
  else
    let l := min len (2 ^ 57 - base)
    let (e, m) :=
      if base + len ≥ 2 ^ 57 then (31, 0)
      else if l = 0 then (0, 0)
      else if l / 2 ^ 31 ≥ 2 ^ 23 then (31, 2 ^ 23 - 1)
      else
        match findFrom 0 32 (fun e => decide (l / 2 ^ e < 2 ^ 23)) with
        | some e => (e, l / 2 ^ e)
        | none => (31, 2 ^ 23 - 1)
    some (Cap.make base e m (perm % 2 ^ 9) (perm / 2 ^ 9 % 8) owner 0 0)

/-- The code capability of R40, derived from the root: base and length of the code section as R43 encodes a length, R
and X, scope, anchor and owner of the root. -/
def codeCap (root : Cap) (base len : Nat) : Cap :=
  match encodeLength len with
  | some (e, m) => Cap.make base e m (permR + permX) root.scope root.owner 0 root.anchor
  | none => Cap.make base 0 0 (permR + permX) root.scope root.owner 0 root.anchor

/-- Whether a is a derivation subset of b (CTEST kind 2, R277). -/
def Cap.subset (a b : Cap) : Bool :=
  a.tag && b.tag &&
    decide (b.base ≤ a.base ∧ a.limit ≤ b.limit ∧ a.perms &&& b.perms = a.perms ∧ a.scope ≤ b.scope ∧
      a.owner = b.owner ∧ a.otype = b.otype) &&
    (if a.scope = 1 ∨ a.scope = 2 ∨ b.scope = 1 ∨ b.scope = 2 then
      decide (a.scope = b.scope ∧ a.anchor = b.anchor) else true)

/-- CNARROW (R273): the narrowed capability, or the cause and ADDR of its failure. A base of 2^57 does not fit BASE: wrapped it would lie
below the source's, so it is CAP_BOUNDS (R42, DEDUCED). -/
def narrow (src : Cap) (b n : Nat) : Except (Cause × Nat) Cap :=
  if src.tag = false then .error (.capTag, src.base)
  else if src.otype ≠ 0 ∨ src.has permDERIVE = false then .error (.capPermission, src.base)
  else if b < src.base ∨ b + n > src.limit ∨ 2 ^ 57 ≤ b then .error (.capBounds, b)
  else
    match encodeLength n with
    | none => .error (.capBounds, b)
    | some (e, m) =>
      if b + m * 2 ^ e > src.limit then .error (.capBounds, b)
      else .ok { ((src.setField 0 57 b).setField 82 5 e).setField 59 23 m with tag := true }

/-- CRESTR (R274) by a group on logical cluster `cl`; `party` says whether the group is a party of the source's scope. -/
def restrict (src : Cap) (m : Nat) (cl : Nat) (party : Bool) : Except (Cause × Nat) Cap :=
  if src.tag = false then .error (.capTag, src.base)
  else if src.scope ≥ 5 then .error (.capScope, src.base)
  else
    let sc := min src.scope (m / 2 ^ 9 % 8)
    let pm := src.perms &&& (m % 2 ^ 9)
    if src.otype ≠ 0 ∧ (pm ≠ src.perms ∨ sc ≠ src.scope) then .error (.capPermission, src.base)
    else if sc ≠ src.scope ∧ (sc = 1 ∨ sc = 2) ∧ party = false then .error (.capScope, src.base)
    else
      let an := if sc = src.scope then src.anchor else if sc = 1 ∨ sc = 2 then cl else 0
      .ok (((src.setField 87 9 pm).setField 96 3 sc).setField 115 6 an)

/-- CSEAL (R276). -/
def sealCap (src auth : Cap) : Except (Cause × Nat) Cap :=
  if src.tag = false ∨ auth.tag = false then .error (.capTag, src.base)
  else if auth.otype ≠ 0 ∨ auth.has permSEAL = false then .error (.capPermission, src.base)
  else
    let t := auth.base
    if src.otype ≠ 0 ∨ t < 1 ∨ t > 15 ∨ t ≥ auth.limit then .error (.capPermission, src.base)
    else .ok (src.setField 111 4 t)

/-- CSEAL.un (R276). -/
def unsealCap (src auth : Cap) : Except (Cause × Nat) Cap :=
  if src.tag = false ∨ auth.tag = false then .error (.capTag, src.base)
  else if auth.otype ≠ 0 ∨ auth.has permSEAL = false then .error (.capPermission, src.base)
  else
    let t := src.otype
    if t = 0 ∨ t < auth.base ∨ t ≥ auth.limit then .error (.capPermission, src.base)
    else .ok (src.setField 111 4 0)

/-- The field CGET reads (R275): fields 0 to 6 by SIZE. -/
def Cap.get (c : Cap) (z : Nat) : Word :=
  match z with
  | 0 => BitVec.ofNat 32 c.base
  | 1 => BitVec.ofNat 32 (c.base / 2 ^ 32)
  | 2 => BitVec.ofNat 32 c.length
  | 3 => BitVec.ofNat 32 (c.length / 2 ^ 32)
  | 4 => BitVec.ofNat 32 (c.perms + c.scope * 2 ^ 9 + c.otype * 2 ^ 12 + c.owner * 2 ^ 16)
  | 5 => BitVec.ofNat 32 c.anchor
  | _ => if c.tag then 1 else 0

end Sys2Proof.Machine
end

