-- ==== Sys2Proof/Config.lean ====
section
/-! DEFINITION. What the manual leaves to an implementation, and the free values: constants without a body, so that
nothing can be proved of what they are. A `Nat` argument is the machine's free counter, which every use advances. -/

namespace Sys2Proof.Config

/-- Which of two allowed outcomes comes about: the old or the new value of a register read or written too early (R226),
a cached or a fresh translation (R31, R34), old or new code bytes (R59). -/
opaque choice : Nat → Bool

/-- A free 32-bit value. -/
opaque word : Nat → Word

/-- A free 64-bit value. -/
opaque dword : Nat → DWord

/-- Free bytes: report signatures (R454), SPDM and key-exchange contents (R460), wrapped context layouts (R424). -/
opaque byte : Nat → Byte

/-- Whether a signature, wrap or MAC over the given bytes verifies (R452, R457, R458, R460). The cryptography itself is
outside the model. -/
opaque verifies : List Byte → Bool

/-- SHA-384 of bytes, as 48 bytes in one number (R454, R458). -/
opaque sha384 : List Byte → BitVec 384

/-- AES-256-XTS encryption of one granule under the key pair of a serial, with the tweak of R88. -/
opaque xtsEncrypt : Nat → Nat → BitVec 128 → BitVec 128

/-- AES-256-XTS decryption of one granule under the key pair of a serial, with the tweak of R88. -/
opaque xtsDecrypt : Nat → Nat → BitVec 128 → BitVec 128

/-- The special functions of R247 on an FP32 input that the interval evaluation of Machine/Special.lean cannot decide
within its fuel: function number, input, mode. -/
opaque special : Nat → Word → Nat → Word

/-- The wait hint of a RETRY that R129 and R98 leave to the device's own estimate, 0 to 65,535. -/
opaque hint : Nat → BitVec 16

/-- The hash that indexes a slice's footprint predictor (R73). -/
opaque footHash : Nat → Nat

/-- The set of an L1 that a line falls in (R57). -/
opaque l1Set : Nat → Nat

/-- The hash that indexes a slice's directory (R63). -/
opaque dirSet : Nat → Nat

/-- The set of a counter cache that a page falls in (R99). -/
opaque hotSet : Nat → Nat

/-- The bytes that so many saved words take in a core's compressed checkpoint store (R113). -/
opaque packed : Nat → Nat

/-- The bank of a pseudo-channel that a block of DRAM lies in (R76, R78). -/
opaque bankOf : Nat → Nat

/-- The serial number of the device (R457). -/
opaque serial : BitVec 128

/-- Which stream of a sender's PEER line writes a write belongs to, by its header and payload: TAG numbers them within one engine
operation, and no field names the operation (R410, R417). -/
opaque lineStream : Nat → List Byte → Nat

/-- The LENGTH of the SEND of another device with which a RECV or RECVADD, by its operation's number, is matched: CDATA flits that are
all full do not tell it (R349, R418). -/
opaque sendLength : Nat → Nat

/-- The bytes that a team set takes in an eviction area (R382). -/
opaque evictSize : Nat → BitVec 32

/-- The bytes of a save area that a function's context takes (R383, R424). -/
opaque contextSize : Nat → BitVec 32

/-- The bytes of an entry of a parked-lock store (R384). -/
opaque lockSize : BitVec 16

/-- Whether an HDM decoder of the host exposes a 256 MiB block of device memory: no rule says how they are set (R419, R428). -/
opaque hdm : Nat → Bool

end Sys2Proof.Config
end

