-- ==== Sys2Proof/Machine/Memory.lean ====
section
/-! DEFINITION. Bytes of DRAM, host memory and scratch by location, the key each granule is written under (R88 to R90),
capability tags (R39) and uncorrectable granules (R81). -/

namespace Sys2Proof.Machine

/-- The first location of host memory: HPA h stands at hostBase + h. DPA p stands at p. -/
def hostBase : Nat := 2 ^ 53

/-- The first location of scratch: cluster c's 2 MiB follow one another (R12). -/
def scratchBase : Nat := 2 ^ 54

/-- The location of a cluster scratch offset (R12). -/
def scratchLoc (cluster offset : Nat) : Nat := scratchBase + cluster * 2 ^ 21 + offset

/-- The DRAM bytes of the device (R13). -/
def dramSize : Nat := 576 * 2 ^ 30

/-- The byte of a cell list at a location; 0 where none is listed. -/
def cellGet (l : List Host.Cell) (k : Nat) : Byte :=
  match l with
  | [] => 0
  | (a, b) :: r => if a = k then b else cellGet r k

/-- The cell list with byte v at location k, in canonical form. -/
def cellSet (l : List Host.Cell) (k : Nat) (v : Byte) : List Host.Cell :=
  match l with
  | [] => if v = 0 then [] else [(k, v)]
  | (a, b) :: r =>
    if a < k then (a, b) :: cellSet r k v
    else if a = k then (if v = 0 then r else (k, v) :: r)
    else if v = 0 then (a, b) :: r else (k, v) :: (a, b) :: r

/-- Whether locations rise strictly from above lo and no byte is 0. -/
def cellsFrom (lo : Option Nat) (l : List Host.Cell) : Bool :=
  match l with
  | [] => true
  | (a, b) :: r => (match lo with | none => true | some x => decide (x < a)) && decide (b ≠ 0) && cellsFrom (some a) r

/-- The canonical form of memory. -/
def Memory.wf (m : Memory) : Bool := cellsFrom none m.bytes

/-- The byte stored at a location. -/
def Memory.get (m : Memory) (k : Nat) : Byte := cellGet m.bytes k

/-- n bytes stored from a location, lowest first. -/
def Memory.gets (m : Memory) (k n : Nat) : List Byte := (span k n).map m.get

/-- One byte stored. -/
def Memory.set (m : Memory) (k : Nat) (v : Byte) : Memory := { m with bytes := cellSet m.bytes k v }

/-- Bytes stored from a location upward. -/
def Memory.sets (m : Memory) (k : Nat) (l : List Byte) : Memory :=
  match l with
  | [] => m
  | b :: r => (m.set k b).sets (k + 1) r

/-- Bytes stored each at its own location. -/
def Memory.setCells (m : Memory) (l : List (Nat × Byte)) : Memory :=
  match l with
  | [] => m
  | (k, b) :: r => (m.set k b).setCells r

/-- The granule of a location. -/
def granule (k : Nat) : Nat := k / 16

/-- The XTS tweak of a granule (R88): physical address / 16, bit 127 set for host memory. -/
def tweak (g : Nat) : Nat := if g < granule hostBase then g else g - granule hostBase + 2 ^ 127

/-- What the 128 bits p of granule g, written under key serial k, read as under serial j (R89, R90). -/
def underKey (k j g : Nat) (p : BitVec 128) : BitVec 128 :=
  if k = j then p
  else
    let stored := if k = 0 then p else Config.xtsEncrypt k (tweak g) p
    if j = 0 then stored else Config.xtsDecrypt j (tweak g) stored

/-- The serial a granule is written under. -/
def Memory.keyOf (m : Memory) (g : Nat) : Nat := lookD m.keys g 0

/-- A granule as read under serial j. -/
def Memory.granuleUnder (m : Memory) (j g : Nat) : BitVec 128 :=
  underKey (m.keyOf g) j g (BitVec.ofNat 128 (ofBytes (m.gets (16 * g) 16)))

/-- A byte as read under serial j. -/
def Memory.getUnder (m : Memory) (j k : Nat) : Byte :=
  if m.keyOf (granule k) = j then m.get k
  else BitVec.ofNat 8 ((m.granuleUnder j (granule k)).toNat / 2 ^ (8 * (k % 16)))

/-- n bytes as read under serial j. -/
def Memory.getsUnder (m : Memory) (j k n : Nat) : List Byte := (span k n).map (m.getUnder j)

/-- A granule held under serial j from now on, its value under j unchanged (R89). -/
def Memory.rekey (m : Memory) (j g : Nat) : Memory :=
  if m.keyOf g = j then m
  else
    let m' := m.sets (16 * g) (toBytes 16 (m.granuleUnder j g).toNat)
    { m' with keys := if j = 0 then del m'.keys g else put m'.keys g j }

/-- Whether a capability tag is set. -/
def Memory.tag (m : Memory) (g : Nat) : Bool := m.tags.contains g

/-- A granule's tag written. -/
def Memory.setTag (m : Memory) (g : Nat) (t : Bool) : Memory :=
  { m with tags := if t then insertNat m.tags g else removeNat m.tags g }

/-- The location of a 32-bit word of scratch. -/
def wordLoc (w : Nat) : Nat := scratchBase + 4 * w

/-- Whether any granule, or word of scratch, among n bytes from k is uncorrectable (R81, R464). -/
def Memory.isBad (m : Memory) (k n : Nat) : Bool :=
  m.bad.any (fun g => decide (k < 16 * g + 16 ∧ 16 * g < k + n)) || m.badWords.any (fun w => decide (k < wordLoc w + 4 ∧ wordLoc w < k + n))

/-- Whether these locations cover every byte of a granule. -/
def coversGranule (cells : List (Nat × Byte)) (g : Nat) : Bool :=
  (span (16 * g) 16).all (fun k => cells.any (fun c => decide (c.1 = k)))

/-- Whether these locations cover every byte of a word. -/
def coversWord (cells : List (Nat × Byte)) (w : Nat) : Bool :=
  (span (wordLoc w) 4).all (fun k => cells.any (fun c => decide (c.1 = k)))

/-- The granules these cells lie in. -/
def granulesOf (cells : List (Nat × Byte)) : List Nat := cells.foldl (fun l c => insertNat l (granule c.1)) []

/-- A data write under serial j: the granules are held under j, their tags become 0 (R39), and an uncorrectable granule
or word that is wholly covered is mended (R81). -/
def Memory.write (m : Memory) (j : Nat) (cells : List (Nat × Byte)) : Memory :=
  let gs := granulesOf cells
  let m1 := gs.foldl (fun m g => m.rekey j g) m
  let m2 := m1.setCells cells
  { m2 with
    tags := m2.tags.filter (fun g => !gs.contains g)
    bad := m2.bad.filter (fun g => !coversGranule cells g)
    badWords := m2.badWords.filter (fun w => !coversWord cells w) }

/-- Bytes from a location upward as cells. -/
def cellsAt (k : Nat) (l : List Byte) : List (Nat × Byte) :=
  match l with
  | [] => []
  | b :: r => (k, b) :: cellsAt (k + 1) r

end Sys2Proof.Machine
end

