-- ==== Sys2Proof/Machine/Ops.lean ====
section
/-! DEFINITION. The named operations of the machine: reaching groups, teams and their lanes; the waybill; rollback and
replay (R118 to R120, R136); taking a trap and returning from it (R308, R309, R311); ending a launch (R375); writes to
memory with what they set off (R105, R118, R298). -/

namespace Sys2Proof.Machine

/-- What a meaning answers. -/
abbrev Out := Host.Outcome State Fault Refusal

/-! ### Reaching the parts -/

/-- The free counter advanced. -/
def State.bump (s : State) : State := { s with free := s.free + 1 }

/-- A group changed. -/
def State.onGroup (s : State) (gid : Nat) (f : Group → Group) : State := { s with groups := alter s.groups gid f }

/-- A group replaced. -/
def State.setGroup (s : State) (gid : Nat) (g : Group) : State := { s with groups := put s.groups gid g }

/-- A team changed. -/
def State.onTeam (s : State) (t : Nat) (f : Team → Team) : State := { s with teams := alter s.teams t f }

/-- A core as it stands, or as it is at reset. -/
def State.core (s : State) (c : Nat) : Core := lookD s.cores c {}

/-- A core changed. -/
def State.onCore (s : State) (c : Nat) (f : Core → Core) : State := { s with cores := put s.cores c (f (s.core c)) }

/-- A partition as it stands, or as it is at reset. -/
def State.part (s : State) (p : Nat) : Part := lookD s.parts p {}

/-- A partition changed. -/
def State.onPart (s : State) (p : Nat) (f : Part → Part) : State := { s with parts := put s.parts p (f (s.part p)) }

/-- A group's team. -/
def State.teamOf (s : State) (g : Group) : Team := lookD s.teams g.team {}

/-- A group's launch. -/
def State.launchOf (s : State) (g : Group) : Launch := lookD s.launches (s.teamOf g).launch {}

/-- CLOCK as programs of a partition read it (R425). -/
def State.partClock (s : State) (p : Nat) : Nat := (s.clock + (s.part p).pclkofs.toNat) % 2 ^ 64

/-- Edges of a core's own clock so far (R463): CLOCK, less what lowered frequency and droops have cost it. -/
def State.ownClock (s : State) (c : Nat) : Nat := (2400 * s.clock - s.regs.lag - (s.core c).lag) / 2400

/-- CLOCK advances by n ticks. Core clocks lowered below 2.4 GHz fall behind in proportion, and a core in a droop by as much more as
the droop lasts: how much is a free value (R4, R463). -/
def State.tick (s : State) (n : Nat) : State :=
  let slow (c : Nat) : Nat := (Config.word (s.free + c)).toNat % (n * s.regs.freq + 1)
  let t := { s with clock := s.clock + n, regs := { s.regs with lag := s.regs.lag + n * (2400 - s.regs.freq) } }
  if s.cores.any (fun e => e.2.droop) then
    { t with
      free := s.free + 512
      cores := s.cores.map (fun e => if e.2.droop then (e.1, { e.2 with lag := e.2.lag + slow e.1 }) else e) }
  else t

/-- The device core number's cluster (R63). -/
def clusterOf (core : Nat) : Nat := core / 8

/-- The n-th set bit of a 64-bit map, as a bit number, or 64. -/
def nthBit (w : BitVec 64) (n : Nat) : Nat := (((List.range 64).filter (fun i => w.getLsbD i))[n]?).getD 64

/-- The logical number of a device cluster within a partition (R37, R421). -/
def State.logicalCluster (s : State) (p c : Nat) : Nat :=
  ((List.range c).filter (fun i => (s.part p).clusters.getLsbD i)).length

/-- Lane i of a group. -/
def Group.lane (g : Group) (i : Nat) : Lane := (g.arch.lanes[i]?).getD {}

/-- Lanes of a group changed: those in the list, each by f of its number. -/
def Group.onLanes (g : Group) (ls : List Nat) (f : Nat → Lane → Lane) : Group :=
  { g with arch := { g.arch with lanes := g.arch.lanes.mapIdx (fun i l => if ls.contains i then f i l else l) } }

/-- A lane's LANEID (R145), all ones for the guide. -/
def Group.laneId (g : Group) (i : Nat) : Nat := if g.isGuide then 2 ^ 32 - 1 else g.index * g.width + i

/-! ### The waybill (R467, R468) -/

/-- The capacity of a waybill ring: 0 the device's, others a partition slot's. -/
def ringSize (ring : Nat) : Nat := if ring = 0 then 16384 else 4096

/-- An entry put into a ring, the oldest giving way. -/
def Ring.add (r : Ring) (size : Nat) (e : Waybill) : Ring :=
  { entries := (if r.entries.length < size then r.entries else r.entries.drop 1) ++ [e]
    head := min (r.head + 1) (2 ^ 32 - 1) }

/-- An event recorded in the device ring and, where it has a partition, in that partition's. -/
def State.waybill (s : State) (code : Nat) (addr detail : DWord) (part : Option Nat := none) (fn : Nat := 0)
    (core : Nat := 0) (scrub : Bool := false) : State :=
  let e : Waybill := { time := s.clock, addr, detail, code, part, fn, core, scrub }
  let add (w : Store Ring) (k : Nat) : Store Ring := put w k ((lookD w k {}).add (ringSize k) e)
  let w := add s.waybills 0
  { s with waybills := match part with | some p => add w (p + 1) | none => w }

/-- An error counted in RASCNT n (R465): corrected, or uncorrectable. -/
def State.countError (s : State) (n : Nat) (uncorrectable : Bool) : State :=
  let v := lookD s.ras n 0
  let ce := bits v 0 32
  let ue := bits v 32 32
  { s with ras := put s.ras n (BitVec.ofNat 64 (if uncorrectable then min (ue + 1) (2 ^ 32 - 1) * 2 ^ 32 + ce
                                                else ue * 2 ^ 32 + min (ce + 1) (2 ^ 32 - 1))) }

/-- UE_ARRAY: an uncorrectable error of the register file (source 3) or of scratch (4) that a team's core read (R400, R465, R468). -/
def State.recordArray (s : State) (source : Nat) (addr : DWord) (t : Team) : State :=
  (s.countError source true).waybill 0x0002 addr 0 (some t.ctx.part) t.ctx.fn t.core

/-! ### Registers of a lane -/

/-- Where v(r) of a lane is kept: v0 to v7 at 0 to 7, v(8 + i) at stack position WBASE + i (R146). -/
def Lane.key (l : Lane) (r : Nat) : Nat := if r < 8 then r else l.wbase + r

/-- v(r) of a lane. -/
def Lane.reg (l : Lane) (r : Nat) : Word := lookD l.v (l.key r) 0

/-- v(r) of a lane written. -/
def Lane.setReg (l : Lane) (r : Nat) (x : Word) : Lane := { l with v := put l.v (l.key r) x }

/-- The value at a stack position. -/
def Lane.position (l : Lane) (p : Nat) : Word := lookD l.v (8 + p) 0

/-- A stack position written. -/
def Lane.setPosition (l : Lane) (p : Nat) (x : Word) : Lane := { l with v := put l.v (8 + p) x }

/-- p(n) of a lane; p0 reads true (R3). -/
def Lane.pred (l : Lane) (n : Nat) : Bool :=
  match n with
  | 0 => true
  | 1 => l.p1
  | 2 => l.p2
  | _ => l.p3

/-- p(n) of a lane written; a write to p0 is discarded (R3). -/
def Lane.setPred (l : Lane) (n : Nat) (b : Bool) : Lane :=
  match n with
  | 0 => l
  | 1 => { l with p1 := b }
  | 2 => { l with p2 := b }
  | _ => { l with p3 := b }

/-- The register that logical register r names for a lane on a path of a region (RENAME, R8, R164). -/
def rename (d : Option Region) (l : Lane) (r : Nat) : Nat :=
  match d, l.meld with
  | some rg, some m =>
    if r < 8 then r
    else
      match (if m.path then rg.list1 else rg.list0).find? (fun e => e.1 == r) with
      | some e => e.2
      | none => r
  | _, _ => r

/-- s(r) of a group. -/
def Group.sreg (g : Group) (r : Nat) : Word := lookD g.arch.sregs r 0

/-- An s-register pair, low word first (R182). -/
def Group.spair (g : Group) (r : Nat) : Nat := (g.sreg r).toNat + 2 ^ 32 * (g.sreg (r + 1)).toNat

/-- s(r) written; a copy bound to its pair loses the binding (R297, R344). -/
def GroupArch.setSreg (a : GroupArch) (r : Nat) (x : Word) : GroupArch :=
  { a with
    sregs := put a.sregs r x
    bound := a.bound.filter (fun b => b.1 != r / 2 * 2)
    struck := a.struck.filter (fun b => b.file != .s || b.key != r) }

/-- s(r) of a group written. -/
def Group.setSreg (g : Group) (r : Nat) (x : Word) : Group := { g with arch := g.arch.setSreg r x }

/-- c(n) of a group. -/
def Group.cap (g : Group) (n : Nat) : Cap := (g.caps[n]?).getD {}

/-- c(n) of a group written. -/
def Group.setCap (g : Group) (n : Nat) (c : Cap) : Group := { g with caps := g.caps.set n c }

/-! ### Completion flags (R8, R150, R316) -/

/-- f(n). -/
def Group.flag (g : Group) (n : Nat) : Nat := lookD g.flags n 0

/-- SETFLAG (R8); in an epoch the increment is recorded, to be withdrawn by a rollback (R113). -/
def Group.raise (g : Group) (n : Nat) : Group :=
  if n < 12 then
    { g with
      flags := put g.flags n (g.flag n + 1)
      epoch := g.epoch.map (fun e => { e with raised := n :: e.raised }) }
  else g

/-- A completion decrements f(n). -/
def Group.fall (g : Group) (n : Nat) : Group := if n < 12 then { g with flags := put g.flags n (g.flag n - 1) } else g

/-- A direct command's fault recorded with its flag, the first since it was cleared (R316). -/
def Group.setFault (g : Group) (n cause : Nat) : Group :=
  if n < 12 ∧ (look g.faultBits n).isNone then { g with faultBits := put g.faultBits n cause } else g

/-! ### Paths of a slice (R153, R155) -/

/-- What keeps lanes one convoy whatever their counters: the MELD that made it (R156), or a trap's entry or return (R308, R311). -/
def Lane.bond (l : Lane) : Option Nat := match l.meld with | some m => some m.convoy | none => l.resumed

/-- What the lanes of one path share: the PC and the counter, or in its stead a bond. -/
def Lane.pathKey (l : Lane) : BitVec 57 × Word × Option Nat × Bool :=
  (l.pc, if l.bond.isSome then 0 else l.counter, l.bond, l.park.isSome || l.atTret)

/-- The classes of a slice's unexited lanes: for each distinct key, its lanes, in the order of the lowest lane. -/
def classes (lanes : List (Nat × Lane)) : List (List (Nat × Lane)) :=
  lanes.foldl (fun cs e =>
    if cs.any (fun c => c.any (fun x => x.2.pathKey == e.2.pathKey)) then
      cs.map (fun c => if c.any (fun x => x.2.pathKey == e.2.pathKey) then c ++ [e] else c)
    else cs ++ [[e]]) []

/-- Path numbers given to the classes: the oldest its lanes had, unless an earlier class keeps that one, else a new
one. -/
def number (cs : List (List (Nat × Lane))) (taken : List Nat) (next : Nat) : List (Nat × Nat) × Nat :=
  match cs with
  | [] => ([], next)
  | c :: r =>
    let old := c.foldl (fun m e => min m e.2.path) (2 ^ 64)
    if taken.contains old then
      let (rest, n) := number r (next :: taken) (next + 1)
      (c.map (fun e => (e.1, next)) ++ rest, n)
    else
      let (rest, n) := number r (old :: taken) next
      (c.map (fun e => (e.1, old)) ++ rest, n)

/-- The unexited lanes of slice j. -/
def GroupArch.sliceLanes (a : GroupArch) (j : Nat) : List (Nat × Lane) :=
  (span (4 * j) 4).filterMap (fun i =>
    match a.lanes[i]? with
    | some l => if l.exited then none else some (i, l)
    | none => none)

/-- The path numbers of slice j, rising. -/
def GroupArch.paths (a : GroupArch) (j : Nat) : List Nat := (a.sliceLanes j).foldl (fun l e => insertNat l e.2.path) []

/-- The next path after k in the order of creation, wrapping. -/
def pathAfter (ps : List Nat) (k : Nat) : Nat :=
  match ps.find? (fun p => decide (k < p)) with
  | some p => p
  | none => (ps.head?).getD 0

/-- Paths of slice j divided and merged after its lanes moved (R153). -/
def GroupArch.repathSlice (a : GroupArch) (j : Nat) : GroupArch :=
  let (ids, n) := number (classes (a.sliceLanes j)) [] a.nextPath
  let lanes := a.lanes.mapIdx (fun i l =>
    match ids.find? (fun e => e.1 == i) with
    | some e => { l with path := e.2 }
    | none => l)
  let a' := { a with lanes := lanes, nextPath := n }
  let slices := a'.slices.mapIdx (fun k sl =>
    if k = j ∧ !(a'.paths j).contains sl.current then { current := pathAfter (a'.paths j) sl.current, issued := 0 }
    else sl)
  { a' with slices := slices }

/-- Paths of every slice divided and merged. -/
def GroupArch.repath (a : GroupArch) : GroupArch := (List.range a.slices.length).foldl (fun b j => b.repathSlice j) a

/-- Slice j moves from a path to the next in the order of creation (R155). -/
def GroupArch.rotate (a : GroupArch) (j from_ : Nat) : GroupArch :=
  { a with
    slices := a.slices.mapIdx (fun k sl =>
      if k = j then { current := pathAfter (a.paths j) from_, issued := 0 } else sl) }

/-- Every slice of some lanes moves on from those lanes' path. -/
def GroupArch.rotateFrom (a : GroupArch) (lanes : List Nat) : GroupArch :=
  (lanes.foldl (fun l i => insertNat l (i / 4)) []).foldl (fun b j =>
    match (lanes.find? (fun i => i / 4 == j)).bind (fun i => b.lanes[i]?) with
    | some l => b.rotate j l.path
    | none => b) a

/-- Lanes changed by an event outside their group, and their paths divided and merged. -/
def GroupArch.wake (a : GroupArch) (f : Nat → Lane → Lane) : GroupArch := ({ a with lanes := a.lanes.mapIdx f } : GroupArch).repath

/-- An event outside a group that changes its lanes, as it stands and as a rollback of its epoch or of its shadow would
restore it: what comes from other parties is not undone (R113, R153). -/
def State.outside (s : State) (gid : Nat) (f : Nat → Lane → Lane) : State :=
  let drain (d : DrainOp) : DrainOp := if d.gid = gid then { d with saved := d.saved.wake f, after := d.after.wake f } else d
  { s.onGroup gid (fun g => { g with arch := g.arch.wake f, epoch := g.epoch.map (fun e => { e with saved := e.saved.wake f }) }) with
    drains := mapAll s.drains drain
    reduces := mapAll s.reduces (fun r => { r with base := drain r.base }) }

/-! ### The priority token (R137) -/

/-- TOKEN of every group as the queues of requests stand: the first in its cluster's queue holds it. -/
def State.grantTokens (s : State) : State :=
  let heads := s.prioTokens.filterMap (fun q => q.2.head?)
  { s with groups := s.groups.map (fun e =>
      (e.1, { e.2 with outctl := { e.2.outctl with token := heads.contains e.1 } })) }

/-- The priority token of a group's cluster, or its request for it, given up. -/
def State.giveToken (s : State) (gid : Nat) : State :=
  if s.prioTokens.any (fun q => q.2.contains gid) then
    ({ s with prioTokens := mapAll s.prioTokens (fun q => removeNat q gid) } : State).grantTokens
  else s

/-! ### Ending a launch (R309, R375) -/

/-- The teams of a launch. -/
def State.teamsOf (s : State) (lid : Nat) : List Nat := (s.teams.filter (fun e => e.2.launch == lid)).map (·.1)

/-- What a core holds without the programs of some teams. -/
def Core.withoutTeams (c : Core) (ts : List Nat) : Core :=
  { c with
    matrixQ := c.matrixQ.filter (fun f => !ts.contains f.team)
    chainQ := c.chainQ.filter (fun f => !ts.contains f.team)
    copyQ := c.copyQ.filter (fun f => !ts.contains f.team)
    matrix := c.matrix.filter (fun m => !ts.contains m.entry.team)
    chain := c.chain.filter (fun m => !ts.contains m.entry.team)
    copy := c.copy.filter (fun m => !ts.contains m.entry.team) }

/-- Whether a queue has work still, once a launch of it has ended: packets in its slot, or another launch to place. A launch that was
placed whole gave it none. -/
def State.worksOn (s : State) (lid : Nat) (l : Launch) : Bool :=
  decide (l.dimX * l.dimY * l.dimZ ≤ l.nextTeam) ||
    (match look (s.part l.part).mapped l.queue with | some k => k.state == 1 && k.rptr != k.wptr | none => false) ||
    s.launches.any (fun e => e.1 != lid && e.2.part == l.part && e.2.queue == l.queue && e.2.status == 0x10 &&
      decide (e.2.nextTeam < e.2.dimX * e.2.dimY * e.2.dimZ))

/-- A launch ended by KILL or by a double trap: its groups never issue again, its operations and programs end as
cancelled ones do at their next boundary, its waits and monitors are gone, and the CP owes the result word its status
(R375 steps 1 to 5; R309). -/
def State.endLaunch (s : State) (lid status : Nat) : State :=
  match look s.launches lid with
  | none => s
  | some l =>
    if l.status ≠ 0x10 then s
    else
      let ts := s.teamsOf lid
      let gids := (s.groups.filter (fun e => ts.contains e.2.team)).map (·.1)
      State.grantTokens { s with
        groups := s.groups.filter (fun e => !ts.contains e.2.team)
        teams := s.teams.map (fun e => if ts.contains e.1 then (e.1, { e.2 with state := .retired, groups := [], guide := none, dq := [] }) else e)
        ops := s.ops.map (fun e => if ts.contains e.2.team then (e.1, { e.2 with state := .cancelled }) else e)
        colls := s.colls.map (fun e =>
          if ts.contains e.2.team ∧ !e.2.ended then
            (e.1, { e.2 with closing := some (5, 0), ended := e.2.posted.isEmpty, status := { e.2.status with state := 5 } })
          else e)
        cores := mapAll s.cores (fun c => c.withoutTeams ts)
        shadows := mapAll s.shadows (fun c => c.withoutTeams ts)
        stowed := s.stowed.filter (fun e => !ts.contains e.1)
        monitors := s.monitors.filter (fun m => !gids.contains m.gid)
        drains := s.drains.filter (fun e => !gids.contains e.2.gid)
        reduces := s.reduces.filter (fun e => !gids.contains e.2.base.gid)
        outbound := s.outbound.filter (fun e =>
          match e.2.owner with
          | .drain id => match look s.drains id with | some d => !gids.contains d.gid | none => true
          | _ => true)
        prioTokens := mapAll s.prioTokens (fun q => q.filter (fun g => !gids.contains g))
        parts := if s.worksOn lid l then s.parts
          else put s.parts l.part { s.part l.part with
            ageSince := del (s.part l.part).ageSince l.queue, worked := del (s.part l.part).worked l.queue }
        launches := put s.launches lid { l with status := status, live := 0, nextTeam := l.dimX * l.dimY * l.dimZ }
        cpWrites := s.cpWrites ++
          [{ ctx := l.ctx, addr := l.result, bytes := toBytes 4 status, status := status, after := some lid }] ++
          (if l.completion = 0 then []
           else [{ ctx := l.ctx, addr := l.completion, status := status, after := some lid
                   bytes := toBytes 4 status ++ toBytes 4 (s.partClock l.part / 2 ^ 10) }]) }

/-! ### Trap entry (R308, R309) -/

/-- The code of a cause (R388). -/
def Cause.code (c : Cause) : Nat :=
  match c with
  | .illegalInstruction => 0x01
  | .stallShort => 0x02
  | .windowOverflow => 0x03
  | .windowUnderflow => 0x04
  | .inactiveLaneRead => 0x05
  | .meldViolation => 0x06
  | .capBounds => 0x08
  | .capPermission => 0x09
  | .capScope => 0x0A
  | .capTag => 0x0B
  | .scratchBound => 0x0C
  | .pageFaultS1 => 0x10
  | .pageFaultS2 => 0x11
  | .misaligned => 0x12
  | .peerRoster => 0x13
  | .keyMismatch => 0x14
  | .rangeLock => 0x18
  | .lateCopy => 0x19
  | .engineFault => 0x1A
  | .fpException => 0x20
  | .livelock => 0x28
  | .trapInstruction => 0x30
  | .debugBreak => 0x31
  | .machineCheck => 0x3F

/-- TMELD of a lane at trap entry (R307, R167). -/
def Lane.tmeldAt (l : Lane) (conv : Bool) : TMeld :=
  match l.meld with
  | some m => { inRegion := true, conv := conv, path := m.path, region := m.region, position := m.position }
  | none => { inRegion := false, conv := conv, path := false, region := l.tmeld.region, position := l.tmeld.position }

/-- Lanes sent on as one convoy: bonded where their counters differ. -/
def GroupArch.bind (a : GroupArch) (lanes : List Nat) : GroupArch :=
  let cs := lanes.map (fun i => ((a.lanes[i]?).getD {}).counter)
  if cs.all (fun c => some c == cs.head?) then a
  else
    { a with
      nextConvoy := a.nextConvoy + 1
      lanes := a.lanes.mapIdx (fun i l => if lanes.contains i then { l with resumed := some a.nextConvoy } else l) }

/-- The trap CSRs written and the convoy sent to the handler, outside any region (R308 steps 1 to 3). What a replay still held
back is over (R120), and so is the convoy's wait for the release of a command. -/
def Group.enter (g : Group) (t : TrapInfo) : Group :=
  let lanes := g.arch.lanes.mapIdx (fun i l =>
    if t.convoy.contains i then
      { l with tmeld := l.tmeldAt true, pc := g.tvec, meld := none, park := none, atTret := false, resumed := none }
    else { l with tmeld := l.tmeldAt false })
  { g with
    arch := (({ g.arch with lanes := lanes } : GroupArch).bind t.convoy).repath
    outctl := { g.outctl with replay := [] }
    cmdWait := g.cmdWait.filter (fun w => !w.1.any t.convoy.contains)
    trapMode := true, tcause := t.cause.code, taddr := t.addr, tpc := t.pc, tmask := maskOf t.lanes }

/-- A trap taken by a group outside outrider mode: trap entry, or, in trap mode, the double trap that ends the launch
FAULTED and writes its waybill event (R308, R309, R468). -/
def State.takeTrap (s : State) (gid : Nat) (t : TrapInfo) : State :=
  match look s.groups gid with
  | none => s
  | some g =>
    if g.trapMode then
      let tm := s.teamOf g
      let s1 := s.waybill 0x0011 (BitVec.ofNat 64 (t.pc.toNat + t.cause.code * 2 ^ 57))
        (BitVec.ofNat 64 (g.tpc.toNat + g.tcause * 2 ^ 57)) (some tm.ctx.part) tm.ctx.fn tm.core
      s1.endLaunch tm.launch 0x30
    else
      (s.setGroup gid (g.enter t)).giveToken gid

/-! ### Rollback (R118, R119, R136) -/

/-- Flags lowered, once for each time a list names them. -/
def lowered (flags : Store Nat) (l : List Nat) : Store Nat := l.foldl (fun fl n => put fl n (lookD fl n 0 - 1)) flags

/-- The checkpoint restored (R113, R119): registers, paths and pop position as saved, the epoch's flag increments
withdrawn with the results they stood for, its stores, reads and DLB entries discarded. Decrements by completions of older operations
stand. -/
def Group.rollback (g : Group) : Group :=
  match g.epoch with
  | none => g
  | some e =>
    { g with
      arch := e.saved
      flags := lowered g.flags e.raised
      inflight := e.older
      kept := []
      epoch := none
      outctl := { g.outctl with rbtotal := if g.outctl.rbtotal = 0xFFFF then 0xFFFF else g.outctl.rbtotal + 1 } }

/-- One counted event of R136: ROLLS rises, the clean run ends, and at 4, 8 and 12 HELD is set for 256 instructions. -/
def OutCtl.count (o : OutCtl) : OutCtl :=
  let r := min (o.rolls + 1) 64
  { o with rolls := r, clean := 0, held := if r = 4 ∨ r = 8 ∨ r = 12 then some 256 else o.held }

/-- A rollback of a group (R118); a counted one that brings ROLLS to 64 traps LIVELOCK at the checkpoint (R136, R390). -/
def State.rollbackGroup (s : State) (gid : Nat) (counts : Bool) : State :=
  match look s.groups gid with
  | none => s
  | some g =>
    match g.epoch with
    | none => s
    | some e =>
      let g1 := g.rollback
      let g2 := if counts then { g1 with outctl := g1.outctl.count } else g1
      let s1 := (s.setGroup gid g2).giveToken gid
      if counts ∧ g2.outctl.rolls = 64 then
        (s1.setGroup gid { g2 with outctl := { g2.outctl with rolls := 0 } }).takeTrap gid
          { cause := .livelock, addr := g2.outctl.rbtotal.zeroExtend 64, lanes := e.oldestMask, pc := e.oldestPc,
            convoy := e.oldestMask }
      else s1

/-- Replay (R120): rollback, nothing counted, and outrider mode stays off until the lanes named have passed the instructions
that raised the cause: how many each had issued before. -/
def State.replayPast (s : State) (gid : Nat) (at_ : List (Nat × Nat)) : State :=
  match look s.groups gid with
  | none => s
  | some g =>
    if g.epoch.isNone then s
    else (s.rollbackGroup gid false).onGroup gid (fun h =>
      { h with outctl := { h.outctl with replay := at_.foldl (fun r e => put r e.1 (max (lookD r e.1 0) (e.2 + 1))) h.outctl.replay } })

/-- Replay over an instruction of a convoy, whose lowest lane stands for it. -/
def State.replay (s : State) (gid : Nat) (convoy : List Nat) : State :=
  let i := (convoy.head?).getD 0
  s.replayPast gid [(i, lookD (((look s.groups gid).bind (·.epoch)).elim [] (·.counts)) i 0)]

/-- An instruction in the shadow of a drained access has met a trap cause: it writes nothing and stops the group's issue (R123). -/
def State.stick (s : State) (gid : Nat) : State := s.onGroup gid (fun g => { g with stuck := g.stuck || g.drained.isSome })

/-- A trap cause met by a group: in an epoch it replays (R120); in the shadow of a drained access the group's issue stops
until that access completes (R123); otherwise the trap is taken (R391). -/
def State.trap (s : State) (gid : Nat) (t : TrapInfo) : State :=
  match look s.groups gid with
  | none => s
  | some g => if g.epoch.isSome then s.replay gid t.convoy else if g.drained.isSome then s.stick gid else s.takeTrap gid t

/-- A group that cannot trap now: it drains first (R122), or its drained access ends first (R123). -/
def Group.holdsTrap (g : Group) : Bool := g.epoch.isSome || g.drained.isSome

/-- A cause found before an instruction enters the epoch waits there for the commit (R122); elsewhere it is as any other. -/
def State.refuseTrap (s : State) (gid : Nat) (t : TrapInfo) : State :=
  match look s.groups gid with
  | none => s
  | some g => if g.epoch.isSome then s else s.trap gid t

/-- Every group but `by_` that holds one of these lines in its read set rolls back, counted (R118). -/
def State.conflict (s : State) (by_ : Option Nat) (lines : List Nat) : State :=
  let hit := (s.groups.filter (fun e =>
    (match by_ with | some b => e.1 != b | none => true) &&
      (match e.2.epoch with | some ep => ep.reads.any (fun l => lines.contains l) | none => false))).map (·.1)
  hit.foldl (fun t g => t.rollbackGroup g true) s

/-! ### Writes and what they set off -/

/-- The 128-byte line of a location. -/
def lineOf (k : Nat) : Nat := k / 128

/-- The lines these cells lie in. -/
def linesOf (cells : List (Nat × Byte)) : List Nat := cells.foldl (fun l c => insertNat l (lineOf c.1)) []

/-- Monitors of these lines fire (R298, R382): a lane waiting in WAITC re-reads, an evicted set becomes READY. -/
def State.fire (s : State) (lines : List Nat) : State :=
  let hit := s.monitors.filter (fun m => lines.contains m.line)
  if hit.isEmpty then s
  else
    let s1 := hit.foldl (fun t m => t.outside m.gid (fun i l => if i = m.lane ∧ l.park = some .waitc then { l with park := none } else l)) s
    let s2 := hit.foldl (fun t m =>
      match look t.groups m.gid with
      | some g => t.onTeam g.team (fun tm => if tm.state = .evicted then { tm with state := .ready } else tm)
      | none => t) s1
    { s2 with monitors := s2.monitors.filter (fun m => !lines.contains m.line) }

/-- Whether a partition is being migrated and lists a block (R431). -/
def Part.lists (p : Part) (block : Nat) : Bool :=
  (p.migPhase == 1 || p.migPhase == 2) && p.migRanges.any (fun r => decide (r.1 ≤ 2048 * block ∧ 2048 * block < r.1 + r.2))

/-- Whether a write to a line has to wait for a governor's next microsecond: it would set a clear bit of a listed block (R431). -/
def State.governed (s : State) (line : Nat) : Bool :=
  decide (128 * line < dramSize) && !s.dirtyMap.contains (line / 16) &&
    s.parts.any (fun e => e.2.lists (line / 16) && e.2.migEffective != 0 && decide (e.2.migEffective ≤ e.2.migUsed))

/-- The dirty-map bits of blocks that a write has reached (R105, R430), the new ones counted against the governor's allowance (R431). -/
def State.markBlocks (s : State) (blocks : List Nat) : State :=
  let new := blocks.filter (fun b => !s.dirtyMap.contains b)
  { s with
    dirtyMap := new.foldl insertNat s.dirtyMap
    parts := if s.parts.any (fun e => new.any e.2.lists) then
        mapAll s.parts (fun q => { q with migUsed := q.migUsed + (new.filter q.lists).length })
      else s.parts }

/-- The dirty-map bits of written DRAM. -/
def State.markDirty (s : State) (cells : List (Nat × Byte)) : State :=
  s.markBlocks (cells.foldl (fun l c => if c.1 < dramSize then insertNat l (c.1 / 2048) else l) [])

/-- A write performs: the bytes under key serial j, the rollbacks, the monitors, the dirty map. -/
def State.perform (s : State) (by_ : Option Nat) (j : Nat) (cells : List (Nat × Byte)) : State :=
  if cells.isEmpty then s
  else
    let s1 := { s with mem := s.mem.write j cells }
    let s2 := s1.markDirty cells
    let s3 := s2.conflict by_ (linesOf cells)
    s3.fire (linesOf cells)

/-! ### Accesses that another party delays (R158) -/

/-- Whether a line is HOST memory. -/
def isHostLine (line : Nat) : Bool := decide (hostBase / 128 ≤ line ∧ line < scratchBase / 128)

/-- The channel of a DPA. -/
def channelOf (dpa : Nat) : Nat :=
  let n := dpa / 2048
  let q := n / 384
  (n % 384 + (q ^^^ (q / 128) ^^^ (q / 16384)) % 384) % 384

/-- Whether a location lies on a channel in the copy phase of its retirement (R98). -/
def State.retiring (s : State) (loc : Nat) : Bool :=
  s.retire.busy && s.retire.phase == 1 && decide (loc < dramSize) && channelOf loc == s.retire.chan

/-- Whether a flip of ownership holds the requests for a line (R93). -/
def State.flipping (s : State) (line : Nat) : Bool :=
  s.parts.any (fun e => e.2.waiting.any (fun w =>
    match w.what with
    | .flipHost _ _ _ _ ps _ => ps.contains (line / 32)
    | .flipInval _ _ _ ps => ps.contains (line / 32)
    | _ => false))

/-- Whether an access to a line waits for another party: HOST memory, or a line held by a flip (R93) or by a channel's retirement (R98). -/
def State.far (s : State) (line : Nat) : Bool := isHostLine line || s.flipping line || s.retiring (128 * line)

/-- Whether a request of a drained instruction waits for another party. -/
def State.farReq (s : State) (r : Req) : Bool :=
  match r.x with
  | some x => x.kind != .dram || s.far (lineOf r.loc) || (x.ms && s.governed (lineOf r.loc))
  | none => false

/-- Whether what a group's next access waits for lies with another party (R158): a drained access that goes to PEER or HOST memory or to
a NOTIFY page, is carried or held; a deferred command's release; or a store of its epoch to such a line. -/
def State.waitsFar (s : State) (g : Group) : Bool :=
  match g.drained with
  | some id =>
    (match look s.drains id with
     | some d => d.out.isSome || (match d.todo with | r :: _ => s.farReq r | [] => true)
     | none =>
       match look s.reduces id with
       | some o => (match o.base.todo ++ o.lines with | r :: _ => s.farReq r | [] => false)
       | none => false)
  | none =>
    !g.release.isEmpty ||
      (match g.epoch with
       | some e => e.stores.any (fun b => decide (b.line * 128 < scratchBase) && s.far b.line)
       | none => false)

/-! ### The violation log (R49, R50) -/

/-- What one violation-log entry carries. -/
structure Violation where
  addr : DWord
  pc : Nat
  cause : Cause
  source : Nat
  lanes : Nat
  lane : Nat
  fn : Nat
  key : Nat
  cluster : Nat
  core : Nat
  deriving DecidableEq, Repr

/-- The 32 bytes of an entry (R49). -/
def Violation.bytes (v : Violation) (time : Nat) : List Byte :=
  toBytes 8 time ++ toBytes 8 v.addr.toNat ++ toBytes 8 (v.pc % 2 ^ 57) ++
    toBytes 8 (v.core % 8 * 2 ^ 5 + v.cluster % 64 * 2 ^ 8 + v.key % 2 ^ 12 * 2 ^ 14 + v.fn % 2 ^ 11 * 2 ^ 26 +
      v.lane % 2 ^ 11 * 2 ^ 37 + v.lanes % 2 ^ 7 * 2 ^ 48 + v.source % 8 * 2 ^ 55 + v.cause.code * 2 ^ 58)

/-- The serial of a key ID: 0 for the clear key, that of its pair when installed (R88, R90). -/
def State.serialOf (s : State) (keyId : Nat) : Nat :=
  if keyId = 0 then 0 else match look s.sec.keys keyId with | some k => k.serial | none => 0

/-- Whether a function of a partition may use a key ID: the clear key unless the partition is sealed, an installed one that is bound to
the function (R451). -/
def State.keyUsable (s : State) (part fn keyId : Nat) : Bool :=
  if keyId = 0 then !s.sec.sealedParts.contains part else match look s.sec.keys keyId with | some k => k.fn == fn | none => false

/-- Whether a translation's key lets a function's access through (R451): LOCAL and HOST pages carry one. -/
def State.keyOk (s : State) (part fn : Nat) (x : Xlat) : Bool := !(x.kind == .dram || x.kind == .host) || s.keyUsable part fn x.key

/-- An entry written to a partition's violation log, or LOST counted (R50). -/
def State.logViolation (s : State) (p : Nat) (v : Violation) : State :=
  let q := s.part p
  let en := bits q.vlogBase 12 1
  if en = 0 ∨ q.vlogHead - q.vlogTail = 256 then
    s.onPart p (fun q => { q with vlogLost := min (q.vlogLost + 1) (2 ^ 32 - 1) })
  else
    let at_ := bits q.vlogBase 13 27 * 2 ^ 13 + q.vlogHead.toNat % 256 * 32
    (s.onPart p (fun q => { q with vlogHead := q.vlogHead + 1 })).perform none (s.serialOf (bits q.vlogBase 0 12))
      (cellsAt at_ (v.bytes (s.partClock p)))

/-- The violation-log entries of a failing lane instruction, one per cause (R49): cause, ADDR and OWNER of the lowest
failing lane, how many lanes failed. -/
def State.logLanes (s : State) (g : Group) (pc : BitVec 57) (es : List (Cause × DWord × Nat × List Nat)) : State :=
  let t := s.teamOf g
  es.foldl (fun s e =>
    s.logViolation t.ctx.part
      { addr := e.2.1, pc := pc.toNat, cause := e.1, source := if g.isGuide then 1 else 0,
        lanes := if g.isGuide then 1 else e.2.2.2.length,
        lane := if g.isGuide then 0x7FF else g.laneId ((e.2.2.2.head?).getD 0),
        fn := t.ctx.fn, key := e.2.2.1, cluster := t.cluster, core := t.core % 8 }) s

/-! ### Return from a trap (R311) -/

/-- The lanes of the trapping convoy that have neither exited nor stopped at a TRET. -/
def Group.trapLanesLeft (g : Group) : List Nat :=
  (List.range g.arch.lanes.length).filter (fun i => let l := g.lane i; l.tmeld.conv && !l.exited && !l.atTret)

/-- Trap mode ends (R311): MODE 0, the lanes that stopped at a TRET resume as one convoy at TPC, with the lowest such
lane's IN, REGION and POSITION and each its own PATH. -/
def Group.leave (g : Group) : Group :=
  let back := (List.range g.arch.lanes.length).filter (fun i => let l := g.lane i; l.tmeld.conv && !l.exited && l.atTret)
  let low := (g.lane ((back.head?).getD 0)).tmeld
  let g1 := g.onLanes back (fun _ l =>
    { l with
      pc := g.tpc, atTret := false, park := none, resumed := none
      meld := if low.inRegion then
          some { region := low.region, position := low.position, path := l.tmeld.path, convoy := g.arch.nextConvoy }
        else none })
  let a : GroupArch := { g1.arch with nextConvoy := g1.arch.nextConvoy + 1 }
  { g1 with trapMode := false, arch := (if low.inRegion then a else a.bind back).repath }

/-- Trap mode ends once every lane of the trapping convoy has executed a TRET or exited. -/
def Group.tryLeave (g : Group) : Group := if g.trapMode ∧ g.trapLanesLeft.isEmpty then g.leave else g

end Sys2Proof.Machine
end

