-- ==== Sys2Proof/Machine/Flags.lean ====
section
/-! DEFINITION. FPCSR and its flags (R199 to R203), SRSEED draws (R194, R195), the words of the CSRs of R147, R227, R138
and R307. -/

namespace Sys2Proof.Machine

/-! ### Conditions: bit 0 NX, 1 UF, 2 OF, 3 DZ, 4 NV, the order of FPCSR[4:0] (R199) -/

def fNX : Nat := 1
def fUF : Nat := 2
def fOF : Nat := 4
def fDZ : Nat := 8
def fNV : Nat := 16

/-- The rounding modes (R191). -/
inductive Mode where
  | rne | rz | ru | rd
  | sr (rnd : Nat)
  deriving DecidableEq, Repr

/-- FPCSR.RM (R199); a write never leaves 4 to 7 there. -/
def fpMode (fpcsr : BitVec 16) : Mode :=
  match fpcsr.toNat / 2 ^ 12 % 8 with
  | 0 => .rne
  | 1 => .rz
  | 2 => .ru
  | _ => .rd

/-- FPCSR.FTZ. -/
def fpFtz (fpcsr : BitVec 16) : Bool := fpcsr.getLsbD 15

/-- The conditions whose trap enable is 1: FPCSR[9:5]. -/
def fpEnabled (fpcsr : BitVec 16) : Nat := fpcsr.toNat / 2 ^ 5 % 2 ^ 5

/-- Sticky flags set (R201). -/
def fpRaise (fpcsr : BitVec 16) (conds : Nat) : BitVec 16 := fpcsr ||| BitVec.ofNat 16 (conds % 32)

/-- A CSRW of FPCSR (R199, R202): every field replaced, reserved bits discarded, an RM of 4 to 7 not taken. -/
def fpWrite (old : BitVec 16) (w : DWord) : BitVec 16 :=
  let v := BitVec.ofNat 16 w.toNat &&& 0xF3FF#16
  if v.getLsbD 14 then (v &&& 0x8FFF#16) ||| (old &&& 0x7000#16) else v

/-- SRDRAW (R194): the draw of a lane, by LANEID, for conversion number n. -/
def srdraw (seed : Word) (laneId n : Nat) : Nat :=
  let x0 := seed ^^^ BitVec.ofNat 32 (laneId * 0x9E3779B9) ^^^ BitVec.ofNat 32 (n * 0x85EBCA6B)
  let x1 := if x0 = 0 then 0x6D2B79F5#32 else x0
  let x2 := x1 ^^^ (x1 <<< 13)
  let x3 := x2 ^^^ (x2 >>> 17)
  let x4 := x3 ^^^ (x3 <<< 5)
  x4.toNat / 2 ^ 16

/-! ### CSR words -/

/-- WINDOW (R147). -/
def Lane.window (l : Lane) : Nat := l.wbase + l.resbase * 2 ^ 16 + l.scap * 2 ^ 32

/-- OUTCTL (R138); the guide's reads as zero (R124). -/
def Group.outctlWord (g : Group) : Nat :=
  if g.isGuide then 0
  else
    (if g.outctl.en then 1 else 0) + (if g.epoch.isSome then 2 ^ 6 else 0) + (if g.outctl.held.isSome then 2 ^ 7 else 0) +
      (if g.outctl.token then 2 ^ 8 else 0) + g.outctl.rolls * 2 ^ 9 + g.outctl.rbtotal.toNat * 2 ^ 16

/-- TMELD (R307). -/
def TMeld.word (t : TMeld) : Nat :=
  t.position % 32 + t.region % 64 * 2 ^ 5 + (if t.path then 2 ^ 13 else 0) + (if t.conv then 2 ^ 14 else 0) +
    (if t.inRegion then 2 ^ 15 else 0)

/-- A CSRW of TMELD (R307): IN and CONV are read-only. -/
def TMeld.write (t : TMeld) (w : DWord) : TMeld :=
  { t with path := w.getLsbD 13, region := bits w 5 6, position := bits w 0 5 }

end Sys2Proof.Machine
end

