-- ==== Sys2Proof/Machine/Operands.lean ====
section
/-! DEFINITION. The frame every lane instruction issues in: melded regions (R164 to R166), dependences (R225, R226),
register windows (R146), completion flags (R8, R215), outrider stalls (R116, R122), the operand forms of R211 to R223,
and the commit of an instruction's results (R203, R236, R391). -/

namespace Sys2Proof.Machine

/-- How an instruction stands in a melded region (R166). -/
inductive InRegion where
  | allowed | forbidden | mend
  deriving DecidableEq, Repr

/-- What an instruction's row fixes: the v, s and p registers it reads and writes by logical number, those it reads
across lanes, the first registers and sizes of its pairs and quads, its latency class, its flag, STALL, length, its
treatment in regions, whether it is of the drain kind (R122), whether it accesses memory, scratch or an engine
(R123), whether its result of variable latency can set an FPCSR flag, whether it waits for such results (R239), and whether
it names its source lanes itself (R255). -/
structure Form where
  vr : List Nat := []
  vx : List Nat := []
  vw : List Nat := []
  sr : List Nat := []
  sw : List Nat := []
  pr : List Nat := []
  px : List Nat := []
  pw : List Nat := []
  wide : List (Nat × Nat) := []
  lat : Nat := 1
  varLat : Bool := false
  flag : Nat := 15
  stall : Nat := 0
  short : Bool := false
  rule : InRegion := .allowed
  drain : Bool := false
  mem : Bool := false
  fp : Bool := false
  fpWait : Bool := false
  picks : Bool := false
  deriving DecidableEq, Repr

/-- An instruction about to take effect: the machine, its group, the convoy mask and the ACTIVE set in ascending order,
the region descriptor it stands in, its form, its address and the group's issue distance. -/
structure Issue where
  s : State
  gid : Nat
  g : Group
  mask : List Nat
  act : List Nat
  rg : Option Region
  fm : Form
  pc : BitVec 57
  dist : Nat
  deriving DecidableEq, Repr

/-- Bytes of the instruction. -/
def Form.size (fm : Form) : Nat := if fm.short then 2 else 4

/-- The address of the next instruction. -/
def Issue.nextPc (x : Issue) : BitVec 57 := x.pc + BitVec.ofNat 57 x.fm.size

/-- The lowest active lane. -/
def Issue.low (x : Issue) : Nat := (x.act.head?).getD 0

/-- An active lane's lane structure. -/
def Issue.lane (x : Issue) (i : Nat) : Lane := x.g.lane i

/-- The team the group belongs to. -/
def Issue.team (x : Issue) : Team := x.s.teamOf x.g

/-- The launch the group belongs to. -/
def Issue.launch (x : Issue) : Launch := x.s.launchOf x.g

/-- A trap of the instruction, reporting these lanes. -/
def Issue.trap (x : Issue) (c : Cause) (addr : DWord) (lanes : List Nat) : State :=
  x.s.trap x.gid { cause := c, addr := addr, lanes := lanes, pc := x.pc, convoy := x.mask }

/-- A trap of the instruction for a check made before it enters the epoch, where it waits for the commit (R122). -/
def Issue.refuseTrap (x : Issue) (c : Cause) (addr : DWord) (lanes : List Nat) : State :=
  x.s.refuseTrap x.gid { cause := c, addr := addr, lanes := lanes, pc := x.pc, convoy := x.mask }

/-! ### Dependences (R225, R226) -/

/-- Whether an instruction at issue distance `dist` finds a write unfinished: a variable-latency write always, a
fixed-latency one when it is closer than its latency class; a 16-bit instruction waits for fixed-latency results
(R212). -/
def Hazard.live (h : Hazard) (short : Bool) (dist : Nat) : Bool := h.varLat || (!short && decide (dist < h.due))

/-- The unfinished writes to one register of one lane (lane 0 for the s file), each with its place in the list. -/
def Issue.hazardsOn (x : Issue) (lane : Nat) (file : RegFile) (key : Nat) : List (Nat × Hazard) :=
  (x.g.arch.hazards.zipIdx.map (fun e => (e.2, e.1))).filter
    (fun e => e.2.lane == lane && e.2.file == file && e.2.key == key && e.2.live x.fm.short x.dist)

/-- A register read too early returns the old or the new value of the unfinished write to it (R226). `slot` numbers the operand. -/
def Issue.pick (x : Issue) (slot lane : Nat) (file : RegFile) (key : Nat) (now : Word) : Word :=
  match (x.hazardsOn lane file key).getLast? with
  | none => now
  | some e => if Config.choice (x.s.free + 8 * e.1 + slot) then e.2.old else now

/-- v(r) of lane i, renamed (R8), as operand `slot` reads it. -/
def Issue.v (x : Issue) (slot i r : Nat) : Word :=
  let l := x.lane i
  let q := rename x.rg l r
  x.pick slot i .v (l.key q) (l.reg q)

/-- s(r) as operand `slot` reads it: one value for every lane (R149). -/
def Issue.sreg (x : Issue) (slot r : Nat) : Word := x.pick slot 0 .s r (x.g.sreg r)

/-- p(n) of lane i. -/
def Issue.p (x : Issue) (i n : Nat) : Bool :=
  if n = 0 then true
  else x.pick 0 i .p n (if (x.lane i).pred n then 1 else 0) != 0

/-- The pair v(r), v(r + 1) (R182). -/
def Issue.pair (x : Issue) (slot i r : Nat) : DWord := x.v slot i (r + 1) ++ x.v slot i r

/-- The pair s(r), s(r + 1). -/
def Issue.spair (x : Issue) (slot r : Nat) : DWord := x.sreg slot (r + 1) ++ x.sreg slot r

/-! ### Before the instruction takes effect -/

/-- The region descriptor and position of a convoy: none outside a region. -/
def Group.regionOf (g : Group) (l : Launch) (mask : List Nat) : Option (Option Region × Meld) :=
  (g.lane ((mask.head?).getD 0)).meld.map (fun m => (l.melds[m.region]?, m))

/-- The applicability code of position i (R162). -/
def Region.code (d : Region) (i : Nat) : Nat := bits d.apply (2 * i) 2

/-- Whether an instruction of a code issues for a lane (R164). -/
def applies (code : Nat) (l : Lane) : Bool :=
  let path := match l.meld with | some m => m.path | none => false
  code = 0 || (code = 1 && !path) || (code = 2 && path)

/-- How the convoy's meld state bears on an instruction: violation, not issued, or issued for these lanes under this
descriptor (R164, R166, R311). -/
inductive Applicability where
  | violation | skipped | lanes (act : List Nat) (rg : Option Region)
  deriving DecidableEq, Repr

/-- R164 and R166 for an instruction of a form. -/
def applicability (g : Group) (l : Launch) (mask : List Nat) (rule : InRegion) : Applicability :=
  match g.regionOf l mask with
  | none => if rule = .mend then .violation else .lanes mask none
  | some (none, _) => .violation
  | some (some d, m) =>
    let i := m.position
    let code := d.code i
    if d.count = 0 ∨ d.count ≤ i then .violation
    else if rule = .forbidden then .violation
    else if i = d.count - 1 ∧ rule ≠ .mend then .violation
    else if rule = .mend ∧ (i ≠ d.count - 1 ∨ code ≠ 0) then .violation
    else
      let act := mask.filter (fun j => applies code (g.lane j))
      if act.isEmpty then .skipped else .lanes act (some d)

/-- Registers of the window whose position is below RESBASE (R146), as R289 reports them: the shortfall of the lowest
such register of a lane, or none. -/
def Lane.underflow (l : Lane) (rg : Option Region) (regs : List Nat) : Option Nat :=
  let qs := (regs.map (rename rg l)).filter (fun q => decide (8 ≤ q ∧ l.wbase + (q - 8) < l.resbase))
  match qs with
  | [] => none
  | q :: r => let lo := r.foldl min q; some (l.resbase - (l.wbase + (lo - 8)))

/-- Whether a renamed pair or quad is consecutive and aligned (R182). -/
def Lane.keepsWide (l : Lane) (rg : Option Region) (wide : List (Nat × Nat)) : Bool :=
  wide.all (fun w =>
    let q := rename rg l w.1
    decide (q % w.2 = 0) && (List.range w.2).all (fun k => decide (rename rg l (w.1 + k) = q + k)))

/-- TADDR of STALL_SHORT (R226): file 0 v, 1 s, 2 p. -/
def shortAddr (file : RegFile) (reg : Nat) (varLat : Bool) (shortfall : Nat) : DWord :=
  let f := match file with | .v => 0 | .s => 1 | .p => 2
  BitVec.ofNat 64
    (reg % 32 + f * 2 ^ 5 + (if varLat then 2 ^ 7 else min shortfall 255 * 2 ^ 8) + reg % 256 * 2 ^ 16)

/-- The first unfinished write that an instruction's registers meet in lane i, as TADDR reports it; registers in the
order they are named. -/
def Issue.shortOf (x : Issue) (i : Nat) : Option DWord :=
  let l := x.lane i
  let rep (lane : Nat) (file : RegFile) (reg key : Nat) : Option DWord :=
    ((x.hazardsOn lane file key).head?).map (fun e => shortAddr file reg e.2.varLat (e.2.due - x.dist))
  let vs := (x.fm.vr ++ x.fm.vw).map (fun r => let q := rename x.rg l r; rep i .v q (l.key q))
  let xs := x.fm.vx.flatMap (fun r => (List.range x.g.arch.lanes.length).map (fun j =>
    let lj := x.g.lane j; let q := rename x.rg lj r; rep j .v q (lj.key q)))
  let ss := (x.fm.sr ++ x.fm.sw).map (fun r => rep 0 .s r r)
  let ps := ((x.fm.pr ++ x.fm.pw).filter (fun n => n != 0)).map (fun n => rep i .p n n)
  let pxs := (x.fm.px.filter (fun n => n != 0)).flatMap (fun n => (List.range x.g.arch.lanes.length).map (fun j => rep j .p n n))
  ((vs ++ xs ++ ss ++ ps ++ pxs).filterMap id).head?

/-! ### Uncorrectable registers (R400, R464) -/

/-- TADDR of a machine check on a register: SRC 2, the register, its file, the lane-in-group. -/
def checkRegAddr (file : RegFile) (reg lane : Nat) : DWord :=
  let f := match file with | .v => 0 | .s => 1 | .p => 2
  BitVec.ofNat 64 (2 * 2 ^ 60 + reg % 32 + f * 2 ^ 5 + lane % 64 * 2 ^ 7)

/-- An uncorrectable register as TADDR reports it. -/
def Issue.struckAt (x : Issue) (lane : Nat) (file : RegFile) (reg key : Nat) : Option DWord :=
  if x.g.arch.struck.contains { lane := lane, file := file, key := key } then some (checkRegAddr file reg lane) else none

/-- v(r) of a lane, where it is uncorrectable. -/
def Issue.struckV (x : Issue) (i r : Nat) : Option DWord :=
  let l := x.lane i
  let q := rename x.rg l r
  x.struckAt i .v q (l.key q)

/-- The first uncorrectable register that lane i reads, as TADDR reports it; registers in the order they are named; across lanes
those of the active ones (R254). -/
def Issue.struckOf (x : Issue) (i : Nat) : Option DWord :=
  let rep := x.struckAt
  let vs := x.fm.vr.map (x.struckV i)
  let xs := x.fm.vx.flatMap (fun r => x.act.map (fun j => x.struckV j r))
  let ss := x.fm.sr.map (fun r => rep 0 .s r r)
  let ps := (x.fm.pr.filter (fun n => n != 0)).map (fun n => rep i .p n n)
  let pxs := (x.fm.px.filter (fun n => n != 0)).flatMap (fun n => x.act.map (fun j => rep j .p n n))
  ((vs ++ xs ++ ss ++ ps ++ pxs).filterMap id).head?

/-- MACHINE_CHECK on registers, recorded when the trap is taken (R400); in an epoch the instruction replays (R120). -/
def Issue.checkRegs (x : Issue) (addr : DWord) (lanes : List Nat) : State :=
  if x.g.epoch.isSome ∨ x.g.drained.isSome then x.trap .machineCheck addr lanes
  else
    let y : Issue := { x with s := x.s.recordArray 3 addr x.team }
    y.trap .machineCheck addr lanes

/-- The lane registers and predicates an instruction's results write whole. -/
def Issue.mended (x : Issue) (v : Nat → List (Nat × Word)) (p : Nat → List (Nat × Bool)) : List BadReg :=
  x.act.flatMap (fun i =>
    let l := x.lane i
    (v i).map (fun w => { lane := i, file := .v, key := l.key (rename x.rg l w.1) }) ++
      (p i).map (fun w => { lane := i, file := .p, key := w.1 }))

/-- The deferred commands of a group, in program order (R126). -/
def Group.deferred (g : Group) : List Deferred := g.release ++ (match g.epoch with | some e => e.dlb | none => [])

/-- The s-registers that deferred commands have still to write (R126). -/
def pendingSregs (l : List Deferred) : List Nat :=
  l.flatMap (fun d =>
    match d.cmd with
    | .copy _ pair _ _ _ => [pair, pair + 1]
    | .coll _ seqr _ _ _ => [seqr]
    | _ => [])

/-- Whether an instruction must wait in place (R122, R123, R126): it names an s-register that a deferred command has still
to write; it waits for floating-point results of variable latency (R239); it drains while an epoch is open, or goes on there from what
PARTDONE or SPILLPROG records, which only non-speculative execution changes (R113, R292); or, outside an epoch, it drains or accesses
memory, scratch or an engine while a drained access is incomplete or a committed epoch's commands are unreleased. -/
def Issue.mustWait (x : Issue) : Bool :=
  (x.fm.sr ++ x.fm.sw).any (fun r => (pendingSregs x.g.deferred).contains r) ||
    (x.fm.fpWait && x.g.arch.hazards.any (fun h => h.varLat && h.fp)) ||
    (if x.g.epoch.isSome then x.fm.drain || (x.fm.mem && x.g.partdone != 0)
     else (x.g.drained.isSome || !x.g.release.isEmpty) && (x.fm.drain || x.fm.mem))

/-- The results of a group under some of its flags are written and the flags fall (R239, R263), those of drained accesses apart. What
was older than the epoch is written in its checkpoint too (R113). -/
def Group.settleBy (g : Group) (p : Nat → Bool) : Group :=
  let now := g.inflight.filter p
  let stands (h : Hazard) : Bool := !h.varLat || h.drained || !p h.flag
  { g with
    flags := lowered g.flags now
    inflight := g.inflight.filter (fun n => !p n)
    arch := { g.arch with hazards := g.arch.hazards.filter stands }
    epoch := g.epoch.map (fun e =>
      { e with
        raised := (e.older.foldl (fun l n => l.erase n) now).foldl (fun l n => l.erase n) e.raised
        older := e.older.filter (fun n => !p n)
        saved := { e.saved with hazards := e.saved.hazards.filter stands } }) }

/-- All results of a group are written. -/
def Group.settle (g : Group) : Group := g.settleBy (fun _ => true)

/-- The slices whose lanes are in a list. -/
def slicesOf (lanes : List Nat) : List Nat := lanes.foldl (fun l i => insertNat l (i / 4)) []

/-- Lanes park at their instruction; their slices pass on to the next paths (R155, R158). -/
def Group.parkLanes (g : Group) (lanes : List Nat) (p : Park) : Group :=
  let g1 := g.onLanes lanes (fun _ l => { l with park := some p })
  { g1 with arch := g1.arch.repath.rotateFrom lanes }

/-- The convoy of an issue parks. -/
def Issue.park (x : Issue) (p : Park) : State := x.s.onGroup x.gid (fun g => g.parkLanes x.mask p)

/-- An instruction that must wait stops its lanes in place; they are parked while what it waits for lies with another party (R158). -/
def Issue.stall (x : Issue) : State := if x.s.waitsFar x.g then x.park .access else x.s

/-- What comes of an issue before the instruction's own effect: the machine as it stands then, or the instruction ready
to take effect. -/
inductive Ready where
  | stop (s : State)
  | go (x : Issue)
  deriving DecidableEq, Repr

/-- A lane one position on in its region. -/
def Lane.onward (l : Lane) : Lane :=
  { l with meld := l.meld.map (fun (m : Meld) => { m with position := m.position + 1 }) }

/-- An instruction not issued in a region: only the pc and the position advance (R164, R165). -/
def Group.skip (g : Group) (mask : List Nat) (size : Nat) : Group :=
  let g1 := g.onLanes mask (fun _ l => { l.onward with pc := l.pc + BitVec.ofNat 57 size })
  { g1 with arch := g1.arch.repath }

/-- The order of the checks before an instruction takes effect: region rules, STALL_SHORT, WINDOW_UNDERFLOW, renamed
pairs, waits of outrider mode, a flag at 63. -/
def prepare (fm : Form) (s : State) : Ready :=
  match s.cur with
  | .convoy gid mask =>
    match look s.groups gid with
    | none => .stop s
    | some g =>
      let pc := (g.lane ((mask.head?).getD 0)).pc
      match applicability g (s.launchOf g) mask fm.rule with
      | .violation =>
        .stop (s.refuseTrap gid { cause := .meldViolation, addr := s.fetched, lanes := mask, pc := pc, convoy := mask })
      | .skipped => .stop (s.setGroup gid (g.skip mask fm.size))
      | .lanes act rg =>
        let dist := g.arch.distance + (if fm.short then 1 else max fm.stall 1)
        let x : Issue := { s := s, gid := gid, g := g, mask := mask, act := act, rg := rg, fm := fm, pc := pc, dist := dist }
        let short := if g.depchk then act.filter (fun i => (x.shortOf i).isSome) else []
        let under := act.filter (fun i => ((g.lane i).underflow rg (fm.vr ++ fm.vw ++ fm.vx)).isSome)
        let split := act.filter (fun i => !(g.lane i).keepsWide rg fm.wide)
        match short, under, split with
        | i :: _, _, _ => .stop (x.trap .stallShort ((x.shortOf i).getD 0) short)
        | [], i :: _, _ =>
          .stop (x.refuseTrap .windowUnderflow
            (BitVec.ofNat 64 (((g.lane i).underflow rg (fm.vr ++ fm.vw ++ fm.vx)).getD 0)) under)
        | [], [], _ :: _ => .stop (x.refuseTrap .meldViolation s.fetched split)
        | [], [], [] =>
          if x.mustWait then .stop x.stall
          else if fm.flag < 12 ∧ g.flag fm.flag = 63 then .stop (s.setGroup gid (g.settleBy (fun n => n == fm.flag)))
          else .go x
  | _ => .stop s

/-! ### The results of an instruction -/

/-- What an instruction writes: per active lane its registers, predicates, FPCSR conditions, draws, where it continues
when not at the next instruction, and whatever else changes in it; the s-registers; whatever else changes in the
group; whether its slices move to their next paths (R294); and whether the flag falls later by an event of its own. -/
structure Result where
  v : Nat → List (Nat × Word) := fun _ => []
  p : Nat → List (Nat × Bool) := fun _ => []
  sregs : List (Nat × Word) := []
  fp : Nat → Nat := fun _ => 0
  draws : Nat → Nat := fun _ => 0
  next : Nat → Option (BitVec 57) := fun _ => none
  lane : Nat → Lane → Lane := fun _ l => l
  group : Group → Group := id
  yields : Bool := false
  pend : Bool := false

/-- The unfinished write to a register that a write now meets, where it completes later than this one (R226). -/
def Issue.outlived (x : Issue) (lane : Nat) (file : RegFile) (key : Nat) : Option Hazard :=
  match (x.hazardsOn lane file key).getLast? with
  | none => none
  | some e => if Config.choice (x.s.free + 8 * e.1 + 7) then some e.2 else none

/-- What a register holds once it has been written: over an unfinished write, whichever completes later stays (R226); a drained
access will write its own. -/
def Issue.leaves {α : Type} (x : Issue) (lane : Nat) (file : RegFile) (key : Nat) (now new : α) : α :=
  match x.outlived lane file key with
  | some h => if h.drained then new else now
  | none => new

/-- A v-register of an active lane written. -/
def Issue.writeV (x : Issue) (i : Nat) (l : Lane) (w : Nat × Word) : Lane :=
  let q := rename x.rg l w.1
  l.setReg q (x.leaves i .v (l.key q) (l.reg q) w.2)

/-- A predicate of an active lane written. -/
def Issue.writeP (x : Issue) (i : Nat) (l : Lane) (w : Nat × Bool) : Lane := l.setPred w.1 (x.leaves i .p w.1 (l.pred w.1) w.2)

/-- An s-register written. -/
def Issue.writeS (x : Issue) (g : Group) (w : Nat × Word) : Group := g.setSreg w.1 (x.leaves 0 .s w.1 (g.sreg w.1) w.2)

/-- One active lane after the instruction, its pc apart. -/
def Issue.laneAfter (x : Issue) (r : Result) (i : Nat) (l : Lane) : Lane :=
  let l1 := (r.v i).foldl (x.writeV i) l
  let l2 := (r.p i).foldl (x.writeP i) l1
  r.lane i { l2 with convCount := l2.convCount + BitVec.ofNat 32 (r.draws i) }

/-- Where a lane of the convoy stands afterwards: at its branch target, its counter one higher when the target is not
ahead (R154), or at the next instruction; in a region one position on. -/
def Issue.advance (x : Issue) (r : Result) (i : Nat) (l : Lane) : Lane :=
  let l1 := { l.onward with resumed := none }
  match (if x.act.contains i then r.next i else none) with
  | none => { l1 with pc := x.nextPc }
  | some t => { l1 with pc := t, counter := if t ≤ x.pc then l1.counter + 1 else l1.counter }

/-- A predicate as a word. -/
def predWord (b : Bool) : Word := if b then 1 else 0

/-- The registers an instruction writes, each as the write stands unfinished, with the value it writes. -/
def Issue.writes (x : Issue) (r : Result) : List (Hazard × Word) :=
  let mk (lane : Nat) (file : RegFile) (reg key : Nat) (old : Word) : Hazard :=
    { lane := lane, file := file, reg := reg, key := key, old := old, due := x.dist + x.fm.lat,
      varLat := x.fm.varLat, flag := x.fm.flag, fp := x.fm.fp }
  x.act.flatMap (fun i =>
    let l := x.lane i
    (r.v i).map (fun w => let q := rename x.rg l w.1; (mk i .v q (l.key q) (l.reg q), w.2)) ++
      ((r.p i).filter (fun w => w.1 != 0)).map (fun w => (mk i .p w.1 w.1 (predWord (l.pred w.1)), predWord w.2))) ++
  r.sregs.map (fun w => (mk 0 .s w.1 w.1 (x.g.sreg w.1), w.2))

/-- The unfinished writes an instruction leaves: none when its results are whole by the next instruction, none over one that
completes later. -/
def Issue.newHazards (x : Issue) (r : Result) : List Hazard :=
  if x.fm.varLat = false ∧ x.fm.lat ≤ 1 then []
  else ((x.writes r).filter (fun w => (x.outlived w.1.lane w.1.file w.1.key).isNone)).map (·.1)

/-- The earlier unfinished writes after an instruction: those of fixed latency that are whole now are gone, and so are those it wrote
over, unless they complete later, over what it wrote. -/
def Issue.oldHazards (x : Issue) (r : Result) (hs : List Hazard) : List Hazard :=
  hs.filterMap (fun h =>
    if h.varLat || decide (x.dist < h.due) then
      match (x.writes r).find? (fun w => w.1.lane == h.lane && w.1.file == h.file && w.1.key == h.key) with
      | none => some h
      | some w => (x.outlived h.lane h.file h.key).map (fun _ => { h with old := w.2 })
    else none)

/-- The registers that the checkpoint store comes to hold with an instruction: in an epoch or a shadow every register it writes first
there (R113, R123). -/
def Issue.keeps (x : Issue) (r : Result) : List BadReg :=
  if x.g.holdsTrap then
    (x.writes r).foldl (fun l w =>
      let b : BadReg := { lane := w.1.lane, file := w.1.file, key := w.1.key }
      if l.contains b then l else l ++ [b]) x.g.kept
  else x.g.kept

/-- The sequencers after an instruction (R155): one more issued by each slice of the convoy; a slice moves on from its path after 64,
or, after a branch of its lanes to an address not ahead, from the path of those lanes (R361). Suspended in a region. -/
def GroupArch.sequence (a : GroupArch) (mask back : List Nat) (inRegion : Bool) : GroupArch :=
  let a1 := a.repath
  if inRegion then a1
  else
    let a2 : GroupArch := { a1 with
      slices := a1.slices.mapIdx (fun j sl => if (slicesOf mask).contains j then { sl with issued := sl.issued + 1 } else sl) }
    (slicesOf mask).foldl (fun b j =>
      match b.slices[j]? with
      | some sl => if 64 ≤ sl.issued ∧ (slicesOf back).contains j = false then b.rotate j sl.current else b
      | none => b) (a2.rotateFrom back)

/-- The escalation and replay counts after one more instruction, of a convoy (R120, R136). -/
def OutCtl.step (o : OutCtl) (mask : List Nat) : OutCtl :=
  let clean := if o.en then o.clean + 1 else 0
  { o with
    replay := o.replay.filterMap (fun e => if mask.contains e.1 then (if e.2 ≤ 1 then none else some (e.1, e.2 - 1)) else some e)
    held := match o.held with | some (n + 2) => some (n + 1) | _ => none
    clean := if 256 ≤ clean then 0 else clean
    rolls := if 256 ≤ clean then 0 else o.rolls }

/-- The group after an instruction: results, flag, dependences, pc, sequencers. A flag rises at issue and falls with
the results (R215); a store's in an epoch with the commit (R117). -/
def Group.finish (g : Group) (x : Issue) (r : Result) : Group :=
  let g1 := g.onLanes x.act (x.laneAfter r)
  let g2 := r.sregs.foldl x.writeS g1
  let g3 := g2.onLanes x.mask (x.advance r)
  let g4 := r.group g3
  let back := if r.yields then x.mask
    else x.act.filter (fun i => match r.next i with | some t => decide (t ≤ x.pc) | none => false)
  let conds := x.act.foldl (fun c i => c ||| r.fp i) 0
  let g5 := { g4 with
    arch := ({ g4.arch with
      fpcsr := fpRaise g4.arch.fpcsr conds
      hazards := x.oldHazards r g4.arch.hazards ++ x.newHazards r
      struck := g4.arch.struck.filter (fun b => !(x.mended r.v r.p).contains b)
      distance := x.dist } : GroupArch).sequence x.mask back (x.rg.isSome || (g4.lane x.low).meld.isSome)
    epoch := g4.epoch.map (fun e =>
      { e with instrs := e.instrs + 1, counts := x.mask.foldl (fun c i => put c i (lookD c i 0 + 1)) e.counts })
    outctl := if g4.epoch.isSome then g4.outctl else g4.outctl.step x.mask
    kept := x.keeps r
    cmdWait := g4.cmdWait.filter (fun w => !w.1.any x.mask.contains)
    issuedCount := g4.issuedCount + 1 }
  if x.fm.flag < 12 then
    if r.pend then g5.raise x.fm.flag else { g5.raise x.fm.flag with inflight := g5.inflight ++ [x.fm.flag] }
  else g5

/-- The lanes that raised an enabled condition (R203). -/
def Issue.excepted (x : Issue) (r : Result) : List Nat :=
  x.act.filter (fun i => decide (r.fp i &&& fpEnabled x.g.arch.fpcsr ≠ 0))

/-- Whether an instruction of an epoch has lost the epoch to a rollback of its own group in what it set off: then it does not take
effect (R112, R119). -/
def Issue.undone (x : Issue) (t : State) : Bool :=
  x.g.epoch.isSome && (match look t.groups x.gid with | some g => g.epoch.isNone | none => true)

/-- Whether the core's checkpoint store of 96 KiB has room for the registers that an instruction adds to what it holds (R113, R116, R123):
as they are, or as the store packs them. -/
def Issue.storeFits (x : Issue) (r : Result) : Bool :=
  !x.g.holdsTrap ||
    (let others := x.s.groups.foldl (fun n e => if e.1 != x.gid && (x.s.teamOf e.2).core == x.team.core then n + e.2.kept.length else n) 0
     let n := others + (x.keeps r).length
     decide (4 * n ≤ 98304 ∨ Config.packed n ≤ 98304))

/-- An instruction takes effect, in a machine whose memory it may have changed: FP_EXCEPTION (R203), or its results; it stays unissued
while the checkpoint store lacks room (R116, R123). -/
def Issue.commitIn (x : Issue) (s : State) (r : Result) : State :=
  let ex := x.excepted r
  if x.undone s then s
  else if x.storeFits r = false then x.s
  else if ex.isEmpty then
    { s with
      groups := alter s.groups x.gid (fun g => g.finish x r)
      free := s.free + 8 * (x.g.arch.hazards.length + 1) }
  else x.trap .fpException (BitVec.ofNat 64 (ex.foldl (fun c i => c ||| (r.fp i &&& fpEnabled x.g.arch.fpcsr)) 0)) ex

/-- An instruction that touches nothing but its group takes effect. -/
def Issue.commit (x : Issue) (r : Result) : State := x.commitIn x.s r

/-- The active lanes that read an uncorrectable register (R400), where the instruction does not look for them itself. -/
def Issue.struckLanes (x : Issue) : List Nat := if x.fm.picks then [] else x.act.filter (fun i => (x.struckOf i).isSome)

/-- Whether the group of an instruction trapped, or went back to its checkpoint, in what its effect left. -/
def Issue.trappedIn (x : Issue) (t : State) : Bool :=
  match look t.groups x.gid with
  | none => true
  | some g => (g.trapMode && !x.g.trapMode) || (x.g.epoch.isSome && g.epoch.isNone) || (g.stuck && !x.g.stuck)

/-- An instruction takes effect. Where lanes read an uncorrectable register, the others' own checks come first in the order of
causes, MACHINE_CHECK being the highest: the trap is theirs if they fail, else the machine check (R9, R400). -/
def Issue.perform (x : Issue) (effect : Issue → State) : State :=
  match x.struckLanes with
  | [] => effect x
  | i :: r =>
    let others := effect { x with act := x.act.filter (fun j => !(i :: r).contains j) }
    if x.trappedIn others then others else x.checkRegs ((x.struckOf i).getD 0) (i :: r)

/-- An instruction of a form: the checks before, then its effect. -/
def issue (fm : Form) (effect : Issue → State) (s : State) : Out :=
  match prepare fm s with
  | .stop t => .next t
  | .go x => .next (x.perform effect)

/-! ### Operand forms -/

/-- The head of a register instruction: latency class, FSET, STALL, 16-bit, variable latency. -/
structure Head where
  lat : Nat := 2
  flag : Nat := 15
  stall : Nat := 0
  short : Bool := false
  varLat : Bool := false
  deriving DecidableEq, Repr

/-- A source operand: a lane register, a pair, an s-register, a pair of them, a predicate, or an immediate. -/
inductive Opnd where
  | v (r : Nat) | vv (r : Nat) | s (r : Nat) | ss (r : Nat) | imm (w : DWord)
  deriving DecidableEq, Repr

/-- The lane registers of an operand. -/
def Opnd.vs (o : Opnd) : List Nat :=
  match o with
  | .v r => [r]
  | .vv r => [r, r + 1]
  | _ => []

/-- The s-registers of an operand. -/
def Opnd.ss' (o : Opnd) : List Nat :=
  match o with
  | .s r => [r]
  | .ss r => [r, r + 1]
  | _ => []

/-- The pairs of an operand. -/
def Opnd.pairs (o : Opnd) : List (Nat × Nat) :=
  match o with
  | .vv r => [(r, 2)]
  | _ => []

/-- An operand's value in lane i, in 64 bits. -/
def Issue.get (x : Issue) (slot i : Nat) (o : Opnd) : DWord :=
  match o with
  | .v r => (x.v slot i r).zeroExtend 64
  | .vv r => x.pair slot i r
  | .s r => (x.sreg slot r).zeroExtend 64
  | .ss r => x.spair slot r
  | .imm w => w

/-- An operand's value in lane i, in 32 bits. -/
def Issue.get32 (x : Issue) (slot i : Nat) (o : Opnd) : Word := (x.get slot i o).truncate 32

/-- The form of a register instruction with destinations d and sources os. -/
def Head.form (h : Head) (d : List Nat) (os : List Opnd) : Form :=
  { vr := os.flatMap Opnd.vs, vw := d, sr := os.flatMap Opnd.ss', wide := os.flatMap Opnd.pairs, lat := h.lat,
    varLat := h.varLat, flag := h.flag, stall := h.stall, short := h.short }

/-- d := f of three operands, in every active lane (R236). -/
def lane3 (h : Head) (d : Nat) (a b c : Opnd) (f : Word → Word → Word → Word) (s : State) : Out :=
  issue (h.form [d] [a, b, c])
    (fun x => x.commit { v := fun i => [(d, f (x.get32 0 i a) (x.get32 1 i b) (x.get32 2 i c))] }) s

/-- A pair d := f of three 64-bit operands, in every active lane (R244). -/
def wide3 (h : Head) (d : Nat) (a b c : Opnd) (f : DWord → DWord → DWord → DWord) (s : State) : Out :=
  let fm := h.form [d, d + 1] [a, b, c]
  issue { fm with wide := (d, 2) :: fm.wide }
    (fun x => x.commit { v := fun i =>
      let y := f (x.get 0 i a) (x.get 1 i b) (x.get 2 i c)
      [(d, y.truncate 32), (d + 1, (y >>> 32).truncate 32)] }) s

/-- d := f of three operands under FPCSR, with the conditions f raises (R201). -/
def fp3 (h : Head) (d : Nat) (a b c : Opnd) (f : BitVec 16 → Word → Word → Word → Word × Nat) (s : State) : Out :=
  issue { h.form [d] [a, b, c] with fp := true }
    (fun x =>
      let y (i : Nat) := f x.g.arch.fpcsr (x.get32 0 i a) (x.get32 1 i b) (x.get32 2 i c)
      x.commit { v := fun i => [(d, (y i).1)], fp := fun i => (y i).2 }) s

/-- p(n) := f of two operands under FPCSR, with the conditions f raises. -/
def test2 (h : Head) (n : Nat) (a b : Opnd) (f : BitVec 16 → Word → Word → Bool × Nat) (s : State) : Out :=
  issue { h.form [] [a, b] with pw := [n], fp := true }
    (fun x =>
      let y (i : Nat) := f x.g.arch.fpcsr (x.get32 0 i a) (x.get32 1 i b)
      x.commit { p := fun i => [(n, (y i).1)], fp := fun i => (y i).2 }) s

end Sys2Proof.Machine
end

