-- ==== Sys2Proof/Machine/Msc.lean ====
section
/-! DEFINITION. Below the coherence homes: the coalescer's table (R74), the channels of DRAM and their power states (R76 to R80,
R95, R98), and the memory-side cache with its footprint predictor (R71 to R73). -/

namespace Sys2Proof.Machine

/-- The 128-byte lines of a byte range. -/
def linesFrom (loc size : Nat) : List Nat := span (lineOf loc) (lineOf (loc + size - 1) - lineOf loc + 1)

/-! ### The coalescer (R74) -/

/-- The granules of a line that n bytes from a location touch. -/
def touched (line loc n : Nat) : BitVec 8 :=
  (List.range 8).foldl (fun m g =>
    let a := 128 * line + 16 * g
    if n ≠ 0 ∧ loc < a + 16 ∧ a < loc + n then m ||| (1#8 <<< g) else m) 0

/-- The granules of a line that n bytes from a location cover whole. -/
def filled (line loc n : Nat) : BitVec 8 :=
  (List.range 8).foldl (fun m g =>
    let a := 128 * line + 16 * g
    if loc ≤ a ∧ a + 16 ≤ loc + n then m ||| (1#8 <<< g) else m) 0

/-- The requests of half a segment (R74): first granule and granules of each. -/
def halfRequests (h : Nat) : List (Nat × Nat) :=
  match h with
  | 0 => []
  | 1 => [(0, 1)]
  | 2 => [(1, 1)]
  | 3 => [(0, 2)]
  | 4 => [(2, 1)]
  | 5 => [(0, 1), (2, 1)]
  | 6 => [(1, 1), (2, 1)]
  | 8 => [(3, 1)]
  | 9 => [(0, 1), (3, 1)]
  | 10 => [(1, 1), (3, 1)]
  | 12 => [(2, 2)]
  | _ => [(0, 4)]

/-- The requests the coalescer forms for the granules touched in a 128-byte segment (R74): byte offset and bytes of each. -/
def coalesce (mask : BitVec 8) : List (Nat × Nat) :=
  let lo := halfRequests (mask.toNat % 16)
  let hi := halfRequests (mask.toNat / 16)
  if lo = [(0, 4)] ∧ hi = [(0, 4)] then [(0, 128)]
  else lo.map (fun q => (16 * q.1, 16 * q.2)) ++ hi.map (fun q => (64 + 16 * q.1, 16 * q.2))

/-- The granules those requests carry. -/
def grain (mask : BitVec 8) : BitVec 8 := (coalesce mask).foldl (fun m q => m ||| touched 0 q.1 q.2) 0

/-! ### Channels (R76 to R80, R95, R98) -/

/-- The pseudo-channel of a DPA within its channel. -/
def pseudoOf (dpa : Nat) : Nat := dpa / 2048 / 384 % 2

/-- The channel whose rows hold a DPA: its own, or, once that is retired, the sibling its channel-local block went to (R95). -/
def State.backChannel (s : State) (dpa : Nat) : Nat :=
  let c := channelOf dpa
  let stack := c / 32
  if look s.retired stack = some (c % 32) then
    let k := dpa / 2048 / 384 % 31
    32 * stack + (if k < c % 32 then k else k + 1)
  else c

/-- The spare row block of that channel which then holds it (R95). -/
def spareBlock (dpa : Nat) : Nat := dpa / 2048 / 384 / 31

/-- A pseudo-channel asked for: a sleeping one starts its exit, and from now on the idle times of HBMPWR as it stands apply to
it (R79, R80). -/
def State.chanUse (s : State) (dpa : Nat) : State :=
  let k := s.backChannel dpa
  let c := lookD s.channels k {}
  let p := pseudoOf dpa
  let pw : PowerState :=
    match lookD c.power p .awake with
    | .powerDown => .exiting (s.clock + 48)
    | .selfRefresh => .exiting (s.clock + 2400)
    | w => w
  { s with
    channels := put s.channels k { c with
      power := put c.power p pw
      lastUse := put c.lastUse p s.clock
      limits := put c.limits p (bits s.regs.hbmpwr 16 16, bits s.regs.hbmpwr 32 16) } }

/-- Whether the pseudo-channel of a DPA is awake (R80). -/
def State.chanAwake (s : State) (dpa : Nat) : Bool :=
  lookD (lookD s.channels (s.backChannel dpa) {}).power (pseudoOf dpa) .awake == .awake

/-- A request put to an HBM channel (R77). -/
def State.chanRequest (s0 : State) (dpa : Nat) (isWrite : Bool) (fill : BitVec 128) : State :=
  let s := s0.chanUse dpa
  let k := s.backChannel dpa
  let c := lookD s.channels k {}
  { s with
    nextId := s.nextId + 1
    channels := put s.channels k { c with
      requests := c.requests ++ [{ id := s.nextId, dpa := dpa, isWrite := isWrite, fill := fill }] } }

/-! ### The MSC (R71, R72, R73) -/

/-- Where a slice keeps the footprint of a line that a sector allocated: one of its 2,048 entries, by a hash that no rule
states. -/
def footIndex (k sector : Nat) : Nat := channelOf (2048 * k) * 2048 + Config.footHash (k * 32 + sector) % 2048

/-- Whether the MSC holds a granule. -/
def State.mscValid (s : State) (g : Nat) : Bool := (lookD s.msc (g / 128) {}).valid.getLsbD (g % 128)

/-- The uncorrectable granules among n bytes of DRAM or host memory that no slice of the MSC holds (R81). -/
def State.badGranules (s : State) (loc n : Nat) : List Nat :=
  s.mem.bad.filter (fun g => decide (loc < 16 * g + 16 ∧ 16 * g < loc + n) && !s.mscValid g)

/-- Whether a read of n bytes from a home or from scratch meets an uncorrectable granule or word (R81, R464). -/
def State.isBad (s : State) (loc n : Nat) : Bool :=
  !(s.badGranules loc n).isEmpty || s.mem.badWords.any (fun w => decide (loc < wordLoc w + 4 ∧ wordLoc w < loc + n))

/-- Granules of a 2 KiB line written back whole to DRAM: their check bits are new (R81). -/
def State.mendBlock (s : State) (k : Nat) (dirty : BitVec 128) : State :=
  { s with mem := { s.mem with bad := s.mem.bad.filter (fun g => !(g / 128 == k && dirty.getLsbD (g % 128))) } }

/-- A line of the MSC evicted: its dirty granules written back, the footprint learnt (R72, R73). -/
def State.mscEvict (s : State) (k : Nat) : State :=
  match look s.msc k with
  | none => s
  | some m =>
    let key := footIndex k m.first
    let f := lookD s.foot key {}
    let f1 : Footprint :=
      if f.sectors = m.sectors then { f with confidence := min (f.confidence + 1) 3 }
      else if f.confidence ≤ 1 then { sectors := m.sectors, confidence := 1 }
      else { f with confidence := f.confidence - 1 }
    let s1 := if m.dirty = 0 then s else (s.mendBlock k m.dirty).chanRequest (k * 2048) true m.dirty
    { s1 with msc := del s1.msc k, foot := put s1.foot key f1 }

/-- The lines of the MSC that share a set with a 2 KiB line: its channel's, of equal channel-local block modulo 32. -/
def State.mscSet (s : State) (k : Nat) : List Nat :=
  (s.msc.filter (fun e => channelOf (2048 * e.1) == channelOf (2048 * k) && e.1 / 384 % 32 == k / 384 % 32)).map (·.1)

/-- Whether a retirement keeps a line of the MSC resident (R98). -/
def State.mscHeld (s : State) (k : Nat) : Bool := s.retiring (2048 * k) && (lookD s.msc k {}).dirty != 0

/-- The line of a set used least recently, those apart that a retirement keeps resident (R71, R98). -/
def State.mscOldest (s : State) (set : List Nat) : Option Nat :=
  (set.foldl (fun (b : Option (Nat × Nat)) k =>
    let m := lookD s.msc k {}
    if s.mscHeld k then b
    else
      match b with
      | none => some (k, m.used)
      | some x => if m.used < x.2 then some (k, m.used) else b) none).map (·.1)

/-- Whether a line that the MSC does not hold must wait for its frame: its set is full of lines that a retirement keeps resident
(R98). -/
def State.mscStalls (s : State) (line : Nat) : Bool :=
  let k := line / 16
  s.retire.busy && !isHostLine line && (look s.msc k).isNone &&
    (let set := s.mscSet k; decide (16 ≤ set.length) && (s.mscOldest set).isNone)

/-- A 2 KiB line about to be allocated: in a full set another gives way (R71). -/
def State.mscRoom (s : State) (k : Nat) : State :=
  let set := s.mscSet k
  if (look s.msc k).isSome ∨ set.length < 16 then s else match s.mscOldest set with | some v => s.mscEvict v | none => s

/-- The sectors of a line that some of its granules lie in. -/
def sectorsOf (line : Nat) (mask : BitVec 8) : BitVec 32 :=
  ((if mask.toNat % 16 ≠ 0 then 1#32 else 0#32) ||| (if mask.toNat / 16 ≠ 0 then 2#32 else 0#32)) <<< (line % 16 * 2)

/-- The granules of a 2 KiB line that a confident footprint of its allocating sector names (R73). -/
def State.foretold (s : State) (k first : Nat) : BitVec 128 :=
  let f := lookD s.foot (footIndex k first) {}
  if 2 ≤ f.confidence then (List.range 32).foldl (fun g i => if f.sectors.getLsbD i then g ||| (0xF#128 <<< (4 * i)) else g) 0 else 0

/-- Granules of a 128-byte line read from or written to the MSC: those a read needs that are not valid fetched from their channel,
those a write covers valid and dirty, the sectors recorded; on the miss that allocates the 2 KiB line, also the sectors of
a confident footprint (R72, R73). -/
def State.mscTouch (s0 : State) (line : Nat) (mask : BitVec 8) (write : Bool) : State :=
  if isHostLine line ∨ mask = 0 ∨ s0.mscStalls line then s0
  else
    let k := line / 16
    let first := line % 16 * 2 + (if mask.toNat % 16 = 0 then 1 else 0)
    let s := s0.mscRoom k
    let extra := if (look s.msc k).isSome then 0 else s.foretold k first
    let m := lookD s.msc k { first := first }
    let w : BitVec 128 := mask.zeroExtend 128 <<< (line % 16 * 8)
    let valid := if write then m.valid ||| w else m.valid
    let want := (if write then extra else w ||| extra) &&& ~~~valid
    let s1 : State := { s with
      nextId := s.nextId + 1
      msc := put s.msc k { m with
        valid := valid, dirty := if write then m.dirty ||| w else m.dirty, sectors := m.sectors ||| sectorsOf line mask, used := s.nextId } }
    if want = 0 then s1 else s1.chanRequest (line * 128) false want

/-- Granules of a 128-byte line read through the MSC. -/
def State.mscRead (s : State) (line : Nat) (mask : BitVec 8 := 0xFF) : State := s.mscTouch line mask false

/-- Granules of a 128-byte line written into the MSC. -/
def State.mscWrite (s : State) (line : Nat) (mask : BitVec 8) : State := s.mscTouch line mask true

/-- The key under which the MSC holds a line from now on (R89). -/
def State.mscKey (s : State) (line serial : Nat) : State :=
  match look s.msc (line / 16) with
  | none => s
  | some m => { s with msc := put s.msc (line / 16) { m with keys := put m.keys (line % 16) serial } }

/-- Whether the MSC holds granules of a line under another key (R89). -/
def State.mscOther (s : State) (line serial : Nat) : Bool :=
  match look s.msc (line / 16) with
  | none => false
  | some m => m.valid &&& (0xFF#128 <<< (line % 16 * 8)) != 0 && (match look m.keys (line % 16) with | some k => k != serial | none => false)

/-- Whether the MSC may drop a line now: no retirement keeps dirty granules of it (R98). -/
def State.mscFree (s : State) (line : Nat) : Bool :=
  !(s.retiring (128 * line) && (lookD s.msc (line / 16) {}).dirty &&& (0xFF#128 <<< (line % 16 * 8)) != 0)

/-- The MSC slice drops a line's granules, dirty ones written back (R82 step 3, R89). -/
def State.mscDrop (s : State) (line : Nat) : State :=
  if s.mscFree line then
    match look s.msc (line / 16) with
    | none => s
    | some m =>
      let w : BitVec 128 := 0xFF#128 <<< (line % 16 * 8)
      let s1 := if m.dirty &&& w = 0 then s else (s.mendBlock (line / 16) (m.dirty &&& w)).chanRequest (line * 128) true (m.dirty &&& w)
      { s1 with msc := put s1.msc (line / 16) { m with valid := m.valid &&& ~~~w, dirty := m.dirty &&& ~~~w } }
  else s

end Sys2Proof.Machine
end

