-- ==== Sys2Proof/Machine/Translate.lean ====
section
/-! DEFINITION. Two-stage translation (R14 to R34): the walks, contiguous groups, permissions, A and D updates, the
translation caches and what an invalidation removes. -/

namespace Sys2Proof.Machine

/-! ### Reasons (R26) -/

def rNotValid : Nat := 0
def rPermission : Nat := 1
def rMalformed : Nat := 2
def rContig : Nat := 3
def rOutOfRange : Nat := 4
def rKindAttr : Nat := 5
def rTableKind : Nat := 6
def rRemote : Nat := 7

/-! ### Entries -/

/-- A 64-bit word of memory read under a key serial. -/
def State.readDWord (s : State) (serial loc : Nat) : DWord := BitVec.ofNat 64 (ofBytes (s.mem.getsUnder serial loc 8))

/-- Bits [51:12] of an entry, in place. -/
def entryOut (e : DWord) : Nat := bits e 12 40 * 2 ^ 12

def entryV (e : DWord) : Bool := e.getLsbD 0
def entryR (e : DWord) : Bool := e.getLsbD 1
def entryW (e : DWord) : Bool := e.getLsbD 2
def entryX (e : DWord) : Bool := e.getLsbD 3
def entryCT (e : DWord) : Bool := e.getLsbD 7

/-- Whether a valid entry is a table pointer (R17). -/
def isPointer (e : DWord) : Bool := !entryR e && !entryW e && !entryX e

/-- Bytes that one entry of a level maps (R16). -/
def levelSize (level : Nat) : Nat := 2 ^ (12 + 9 * level)

/-- The index of an address in a table of a level. -/
def levelIndex (level a : Nat) : Nat := a / levelSize level % 512

/-- A leaf found by a walk: its word, where it stands, the bytes one entry maps, the bytes the translation covers, the
output of the first byte the entry maps, and for stage 2 whether RLS stands in it or in another leaf of its contiguous group. -/
structure Leaf where
  word : DWord
  loc : Nat
  size : Nat
  covers : Nat
  out : Nat
  locked : Bool := false
  deriving DecidableEq, Repr

/-- A stage-2 leaf's kind (R19). -/
def kindOf (e : DWord) : OutKind :=
  match bits e 5 2 with
  | 0 => .dram
  | 1 => .host
  | 2 => .peer
  | _ => .notify

/-- What is wrong with a stage-2 leaf of a level (R13, R17, R19, R20), if anything: first a level that takes no leaf, then a NOTIFY leaf
above level 0, the other malformed leaves, the attributes of a kind, the range of the output. Which reason is recorded of several is
not stated: this order is the model's choice (DESIGN CHOICE). -/
def leaf2Fault (level : Nat) (e : DWord) : Option Nat :=
  let k := kindOf e
  let misaligned := entryOut e % levelSize level ≠ 0
  if (level = 1 ∨ level = 2) ∧ k = .notify ∧ (entryW e = false ∨ entryR e = true) then some rKindAttr
  else if 2 < level ∨ (entryW e = true ∧ entryR e = false) ∨ misaligned ∨
      (k = .notify ∧ (bits e 52 12 ≠ 0 ∨ bits e 28 24 ≠ 0)) ∨ (k = .dram ∧ level ≠ 0 ∧ e.getLsbD 11 = true) then
    some rMalformed
  else if (k = .notify ∧ (level ≠ 0 ∨ entryCT e = true ∨ entryX e = true)) ∨
      ((k = .peer ∨ k = .host) ∧ (e.getLsbD 10 = true ∨ e.getLsbD 11 = true)) ∨ (k = .peer ∧ e.getLsbD 63 = true) ∨
      (k ≠ .dram ∧ e.getLsbD 4 = true) then some rKindAttr
  else if k = .dram ∧ dramSize < entryOut e + levelSize level then some rOutOfRange
  else none

/-- What is wrong with a stage-1 leaf of a level (R17, R18). -/
def leaf1Fault (level : Nat) (e : DWord) : Option Nat :=
  if 2 < level ∨ (entryW e = true ∧ entryR e = false) ∨ entryOut e % levelSize level ≠ 0 ∨ bits e 52 4 ≠ 0 ∨
      bits e 9 3 ≠ 0 then some rMalformed
  else none

/-- Whether two members of a contiguous group agree (R21): output i leaf sizes apart, other fields equal but for the
bits of `free`. SWI, which R18 says the hardware ignores, is compared as the other fields are: R21
outweighs R18 here by the model's reading (DEDUCED). -/
def groupAgrees (level i : Nat) (e first : DWord) (free : DWord) : Bool :=
  entryOut e == entryOut first + i * levelSize level &&
    (e &&& ~~~(free ||| 0x000FFFFFFFFFF000#64)) == (first &&& ~~~(free ||| 0x000FFFFFFFFFF000#64))

/-- HO and RLS, which members of a stage-2 group may differ in. -/
def free2 : DWord := 0x900#64

/-- A and D, which members of a stage-1 group may differ in. -/
def free1 : DWord := 0x60#64

/-- The leaf for an entry found good, with its group. -/
def asLeaf (level loc : Nat) (e first free : DWord) (index : Nat) : Except Nat Leaf :=
  if entryCT e then
    if groupAgrees level (index % 16) e first free then
      .ok { word := e, loc := loc, size := levelSize level, covers := 16 * levelSize level, out := entryOut e }
    else .error rContig
  else .ok { word := e, loc := loc, size := levelSize level, covers := levelSize level, out := entryOut e }

/-! ### Stage 2 -/

/-- The stage-2 walk from a table of a level: the leaf, or the reason of the fault. -/
def walk2 (s : State) (level table gpa : Nat) : Except Nat Leaf :=
  if dramSize ≤ table then .error rOutOfRange
  else
    let i := levelIndex level gpa
    let e := s.readDWord 0 (table + 8 * i)
    if entryV e = false then .error rNotValid
    else if isPointer e then
      match level with
      | 0 => .error rMalformed
      | l + 1 => walk2 s l (entryOut e) gpa
    else
      match leaf2Fault level e with
      | some r => .error r
      | none =>
        let group := table + 8 * (i / 16 * 16)
        (asLeaf level (table + 8 * i) e (s.readDWord 0 group) free2 i).map (fun l =>
          { l with locked := if entryCT e then (span 0 16).any (fun j => (s.readDWord 0 (group + 8 * j)).getLsbD 8) else e.getLsbD 8 })

/-- The stage-2 leaf of S2EN = 0 (R15): the identity, LOCAL, key 0, R, W and X. It has no RLS bit of its own and is
always checked against the range locks. -/
def identityLeaf (gpa : Nat) : Leaf :=
  { word := 0x10F#64, loc := 2 ^ 60, size := 4096, covers := 4096, out := gpa / 4096 * 4096, locked := true }

/-- Stage 2 for a GPA (R15, R22). -/
def stage2 (s : State) (c : Ctx) (gpa : Nat) : Except Nat Leaf :=
  if c.s2en then walk2 s 4 c.s2root gpa
  else if dramSize ≤ gpa then .error rOutOfRange
  else .ok (identityLeaf gpa)

/-- The location of a LOCAL or HOST output. -/
def outLoc (k : OutKind) (out : Nat) : Nat := match k with | .host => hostBase + out | _ => out

/-- A stage-1 table's bytes through stage 2 (R16): location and key serial. -/
def tableLoc (s : State) (c : Ctx) (gpa : Nat) : Except PageFault (Nat × Nat) :=
  match stage2 s c gpa with
  | .error r => .error { stage2 := true, reason := r, gpa := some gpa, table := true }
  | .ok l =>
    let k := kindOf l.word
    if (k ≠ .dram ∧ k ≠ .host) ∨ entryR l.word = false then
      .error { stage2 := true, reason := rTableKind, gpa := some gpa, table := true }
    else .ok (outLoc k (l.out + gpa % l.size), s.serialOf (bits l.word 52 12))

/-- The stage-1 walk from a table of a level. The leaf's place comes with the serial its table is read under. -/
def walk1 (s : State) (c : Ctx) (level table gva : Nat) : Except PageFault (Leaf × Nat) :=
  let i := levelIndex level gva
  match tableLoc s c (table + 8 * i) with
  | .error f => .error f
  | .ok (loc, serial) =>
    let e := s.readDWord serial loc
    let fault (r : Nat) : PageFault := { stage2 := false, reason := r }
    if entryV e = false then .error (fault rNotValid)
    else if isPointer e then
      match level with
      | 0 => .error (fault rMalformed)
      | l + 1 => walk1 s c l (entryOut e) gva
    else
      match leaf1Fault level e with
      | some r => .error (fault r)
      | none =>
        match asLeaf level loc e (s.readDWord serial (loc - 8 * (i % 16))) free1 i with
        | .error r => .error (fault r)
        | .ok l => .ok (l, serial)

/-! ### Both stages (R22, R23) -/

/-- What an access needs: R, W, X. -/
def Access.needs (a : Access) : Bool × Bool × Bool :=
  match a with
  | .fetch => (false, false, true)
  | .read | .capLoad | .prefetch | .engineRead => (true, false, false)
  | .write | .atomic | .capStore | .engineWrite => (true, true, false)

/-- Whether an entry's permissions satisfy an access. -/
def permits (a : Access) (r w x : Bool) : Bool :=
  (!a.needs.1 || r) && (!a.needs.2.1 || w) && (!a.needs.2.2 || x)

/-- The bits of the stage-1 leaf that an access sets (R23): A, and D for one that writes. -/
def adBits (a : Access) : DWord :=
  match a with
  | .prefetch => 0
  | _ => if a.needs.2.1 then 0x60#64 else 0x20#64

/-- The stage-1 word after an access (R23). -/
def adWord (a : Access) (e : DWord) : DWord := e ||| adBits a

/-- The fields of a stage-2 leaf, for the output address of one GPA. -/
def xlatOf (l : Leaf) (gpa : Nat) (ms : Bool) : Xlat :=
  let k := kindOf l.word
  { kind := k
    out := match k with | .notify => bits l.word 12 16 | _ => l.out + gpa % l.size
    key := match k with | .peer | .notify => 0 | _ => bits l.word 52 12
    vdn := match k with | .peer => bits l.word 52 11 | _ => 0
    ms := ms
    cappg := l.word.getLsbD 4
    rls := l.locked
    gpa := gpa
    leaf := if entryCT l.word then l.loc / 128 * 128 else l.loc
    leaves := if entryCT l.word then 128 else 8
    hostOwned := if l.word.getLsbD 10 then true else l.word.getLsbD 11
    ppin := l.word.getLsbD 9 }

/-- The first stage: GPA, whether MS, coverage, permissions, global, update, D. -/
structure First where
  gpa : Nat
  ms : Bool := false
  covers : Nat := 4096
  r : Bool := true
  w : Bool := true
  xp : Bool := true
  global : Bool := false
  ad : Option AdWrite := none
  dirty : Bool := true
  deriving DecidableEq, Repr

/-- Stage 1 for a GVA. -/
def stage1 (s : State) (c : Ctx) (a : Access) (gva : Nat) : Except PageFault First :=
  if c.s1en then
    match walk1 s c 4 c.s1root gva with
    | .error f => .error f
    | .ok (l, serial) =>
      if permits a (entryR l.word) (entryW l.word) (entryX l.word) = false then
        .error { stage2 := false, reason := rPermission }
      else
        let nw := adWord a l.word
        .ok { gpa := l.out + gva % l.size, ms := l.word.getLsbD 8, covers := l.covers, r := entryR l.word,
              w := entryW l.word, xp := entryX l.word, global := l.word.getLsbD 4, dirty := nw.getLsbD 6
              ad := if nw = l.word then none else some { loc := l.loc, serial := serial, word := l.word, set := adBits a } }
  else if 2 ^ 52 ≤ gva then .error { stage2 := false, reason := rOutOfRange }
  else .ok { gpa := gva, covers := 2 ^ 52 }

/-! ### What a walk reads (R30, R33, R34) -/

/-- The stage-2 entries that a walk for a GPA reads from a table of a level, in order. -/
def path2 (s : State) (level table gpa : Nat) : List Visit :=
  if dramSize ≤ table then []
  else
    let loc := table + 8 * levelIndex level gpa
    let e := s.readDWord 0 loc
    let n := levelSize level
    let v : Visit := { seen := { loc := loc, serial := 0, word := e }, gpa := gpa / n * n, size := n }
    if entryV e && isPointer e then match level with | 0 => [v] | l + 1 => v :: path2 s l (entryOut e) gpa
    else [v]

/-- The stage-2 entries read for a GPA. -/
def visits2 (s : State) (c : Ctx) (gpa : Nat) : List Visit := if c.s2en then path2 s 4 c.s2root gpa else []

/-- Visits whose last, the leaf, maps a stage-1 table that serves some GVAs. -/
def servingTable (l : List Visit) (gva size : Nat) : List Visit :=
  l.dropLast ++ l.getLast?.toList.map (fun v => { v with table := some (gva, size) })

/-- All entries that a walk for a GVA reads from a stage-1 table of a level on, in order: those of stage 2, and those of
stage 1. -/
def path1 (s : State) (c : Ctx) (level table gva : Nat) : List (Visit ⊕ Seen) :=
  let a := table + 8 * levelIndex level gva
  let n := 512 * levelSize level
  let below := (servingTable (visits2 s c a) (gva / n * n) n).map Sum.inl
  match tableLoc s c a with
  | .error _ => below
  | .ok (loc, serial) =>
    let e := s.readDWord serial loc
    let here := below ++ [.inr { loc := loc, serial := serial, word := e }]
    if entryV e = false then here
    else if isPointer e then match level with | 0 => here | l + 1 => here ++ path1 s c l (entryOut e) gva
    else here ++ ((visits2 s c (entryOut e + gva % levelSize level)).map Sum.inl)

/-- All entries that a walk for a GVA reads, in order. -/
def pathOf (s : State) (c : Ctx) (gva : Nat) : List (Visit ⊕ Seen) :=
  if c.s1en then path1 s c 4 c.s1root gva else (visits2 s c gva).map Sum.inl

/-- What a walk has read at a place. -/
def seenOf (v : Visit ⊕ Seen) : Seen := match v with | .inl w => w.seen | .inr e => e

/-- The stage-2 entries of a walk that a walk cache keeps: table pointers, and the leaves that map stage-1 tables (R30). -/
def keptVisits (l : List (Visit ⊕ Seen)) : List Visit :=
  l.filterMap (fun v =>
    match v with
    | .inl w => if entryV w.seen.word && (isPointer w.seen.word || w.table.isSome) then some w else none
    | .inr _ => none)

/-- The machine as a walk sees it that has read some table entries before. -/
def State.seeing (s : State) (l : List Seen) : State :=
  { s with mem := l.foldl (fun m e =>
      if ofBytes (m.getsUnder e.serial e.loc 8) = e.word.toNat then m else m.write e.serial (cellsAt e.loc (toBytes 8 e.word.toNat))) s.mem }

/-! ### TRANSLATE -/

/-- A fresh TRANSLATE (R22). -/
def freshWalk (s : State) (c : Ctx) (a : Access) (gva : Nat) : Except PageFault Found :=
  match stage1 s c a gva with
  | .error f => .error f
  | .ok f1 =>
    match stage2 s c f1.gpa with
    | .error r => .error { stage2 := true, reason := r, gpa := some f1.gpa }
    | .ok l =>
      if permits a (entryR l.word) (entryW l.word) (entryX l.word) = false then
        .error { stage2 := true, reason := rPermission, gpa := some f1.gpa }
      else
        let x := { xlatOf l f1.gpa f1.ms with global := f1.global }
        if f1.ms ∧ (x.kind = .host ∨ x.kind = .notify) then .error { stage2 := false, reason := rKindAttr }
        else
          let size := min f1.covers l.covers
          .ok { x := x, ad := f1.ad, path := keptVisits (pathOf s c gva), reads := (pathOf s c gva).map seenOf
                tlb := { part := c.part, fn := c.fn, asid := c.asid, global := f1.global, gva := gva / size * size,
                         gpa := f1.gpa / size * size, size := size
                         x := match x.kind with
                           | .notify => { x with gpa := x.gpa - gva % size }
                           | _ => { x with out := x.out - gva % size, gpa := x.gpa - gva % size }
                         r := f1.r && entryR l.word, w := f1.w && entryW l.word, xp := f1.xp && entryX l.word,
                         dirty := f1.dirty } }

/-! ### The caches (R30 to R34) -/

/-- The caches a miss of one goes on to, the I/O die's last: compute dies 0 and 1 belong to I/O die 0 (R30). -/
def TlbPlace.levels (p : TlbPlace) : List TlbPlace :=
  match p with
  | .core n => [.core n, .cluster (n / 8), .die (n / 256)]
  | .cluster n => [.cluster n, .die (n / 32)]
  | .die n => [.die n]

/-- The I/O die behind a cache. -/
def TlbPlace.ioDie (p : TlbPlace) : Nat := match p with | .core n => n / 256 | .cluster n => n / 32 | .die n => n

/-- The entries a cache holds (R30). -/
def TlbPlace.capacity (p : TlbPlace) : Nat := match p with | .core _ => 64 | .cluster _ => 2048 | .die _ => 32768

/-- Whether a cached translation is tagged for a context and covers a GVA. -/
def TlbEntry.hits (t : TlbEntry) (c : Ctx) (gva : Nat) : Bool :=
  t.part == c.part && t.fn == c.fn && (t.global || t.asid == c.asid) && decide (t.gva ≤ gva ∧ gva < t.gva + t.size)

/-- A cached translation of a GVA. -/
def TlbEntry.at (t : TlbEntry) (gva : Nat) : Xlat :=
  match t.x.kind with
  | .notify => { t.x with gpa := t.x.gpa + (gva - t.gva) }
  | _ => { t.x with out := t.x.out + (gva - t.gva), gpa := t.x.gpa + (gva - t.gva) }

/-- Whether a cached translation serves an access without a walk: permissions, and D already set for one that writes. -/
def TlbEntry.serves (t : TlbEntry) (a : Access) : Bool := permits a t.r t.w t.xp && (!a.needs.2.1 || t.dirty)

/-- What the caches behind a place hold for an access: the first hit from the nearest. -/
def State.cached (s : State) (pl : TlbPlace) (c : Ctx) (a : Access) (gva : Nat) : Option TlbEntry :=
  pl.levels.findSome? (fun q => s.tlb.find? (fun t => t.place == q && t.hits c gva && t.serves a))

/-- A walk in flight for a page of a context at an I/O die. -/
def Walk.serves (w : Walk) (die : Nat) (c : Ctx) (gva : Nat) : Bool :=
  w.die == die && w.part == c.part && w.fn == c.fn && w.asid == c.asid && w.gva / 4096 == gva / 4096

/-- The table entries that a walk starting or going on now sees otherwise than memory holds them: those a walk in flight has
read, and of the walk cache's any that are used (R34); `salt` names the access. -/
def State.seenFor (s : State) (die : Nat) (c : Ctx) (gva salt : Nat) : List Seen :=
  let old := s.walkCache.filter (fun e => e.die == die && e.part == c.part && e.fn == c.fn &&
    s.readDWord e.visit.seen.serial e.visit.seen.loc != e.visit.seen.word)
  ((old.zipIdx.filter (fun e => Config.choice (2 ^ 66 + (s.free * 2 ^ 16 + salt) * 2 ^ 14 + e.2))).map (fun e => e.1.visit.seen)) ++
    (s.walks.filter (fun w => w.serves die c gva)).flatMap (·.seen)

/-- Whether the leaf an update goes to still says what the walk found: valid, with the same output (R24). -/
def State.stillLeaf (s : State) (w : AdWrite) : Bool :=
  let e := s.readDWord w.serial w.loc
  entryV e && entryOut e == entryOut w.word

/-- A walk that ends now: it may have read older entries; where its update finds another leaf it starts again from the root (R24, R34). -/
def State.walkNow (s : State) (die : Nat) (c : Ctx) (a : Access) (gva salt : Nat) : Except PageFault Found :=
  match s.seenFor die c gva salt with
  | [] => freshWalk s c a gva
  | l =>
    match freshWalk (s.seeing l) c a gva with
    | .error f => .error f
    | .ok f => if f.ad.all s.stillLeaf then .ok f else freshWalk s c a gva

/-- TRANSLATE as an access of a place meets it: a cached translation serves without a walk; where it differs from the tables, or the
A and D bits do from what it stands for, either is used (R24, R31, R34); `salt` names the access. -/
def translateAt (s : State) (pl : TlbPlace) (c : Ctx) (a : Access) (gva salt : Nat) : Except PageFault Found :=
  let walked := (s.walkNow pl.ioDie c a gva salt).map (fun f => { f with tlb := { f.tlb with place := pl } })
  match s.cached pl c a gva with
  | none => walked
  | some t =>
    let kept : Except PageFault Found := .ok { x := t.at gva, tlb := { t with place := pl } }
    match walked with
    | .ok f =>
      if f.x = t.at gva ∧ f.ad.isNone then kept
      else if Config.choice (2 ^ 64 + s.free * 2 ^ 16 + salt) then kept else walked
    | .error _ => if Config.choice (2 ^ 64 + s.free * 2 ^ 16 + salt) then kept else walked

/-- TRANSLATE through an I/O die's translation cache, for what has no core. -/
def translate (s : State) (c : Ctx) (a : Access) (gva salt : Nat) : Except PageFault Found := translateAt s (.die 0) c a gva salt

/-- An entry put into its cache; in a full one another gives way, which one is free (R30). -/
def State.cache (s : State) (e : TlbEntry) : State :=
  if s.tlb.contains e then s
  else
    let same (t : TlbEntry) : Bool := t.place == e.place && t.gva == e.gva && t.size == e.size && t.part == e.part && t.fn == e.fn &&
      t.asid == e.asid && t.global == e.global
    let rest := s.tlb.filter (fun t => !same t)
    let here := rest.filter (fun t => t.place == e.place)
    if here.length < e.place.capacity then { s with tlb := e :: rest }
    else
      match here[(Config.word (2 ^ 64 + s.free)).toNat % here.length]? with
      | some v => { s with tlb := e :: rest.erase v }
      | none => s

/-- An entry put into its walk cache of 4,096; in a full one another gives way, which one is free (R30). -/
def State.cacheWalk (s : State) (e : WalkEntry) : State :=
  if s.walkCache.contains e then s
  else
    let rest := s.walkCache.filter (fun t => !(t.die == e.die && t.part == e.part && t.fn == e.fn && t.visit.seen.loc == e.visit.seen.loc))
    let here := rest.filter (fun t => t.die == e.die)
    if here.length < 4096 then { s with walkCache := e :: rest }
    else
      match here[(Config.word (2 ^ 65 + s.free)).toNat % here.length]? with
      | some v => { s with walkCache := e :: rest.erase v }
      | none => s

/-- A and D set by a compare-and-set on the entry as it stands (R24). -/
def State.setAd (s : State) (w : AdWrite) : State :=
  let e := s.readDWord w.serial w.loc
  if s.stillLeaf w ∧ e ||| w.set ≠ e then s.perform none w.serial (cellsAt w.loc (toBytes 8 (e ||| w.set).toNat)) else s

/-- The table lines that a walk read, as its accesses leave them in the MSC (R71). -/
def State.readTables (s : State) (l : List Seen) : State :=
  l.foldl (fun u e => (u.mscRead (lineOf e.loc) (grain (touched (lineOf e.loc) e.loc 8))).mscKey (lineOf e.loc) e.serial) s

/-- What a translation leaves behind: the table lines read, A and D set, the entries of the caches, no walk in flight for the
page. -/
def State.install (s : State) (f : Found) : State :=
  let t := f.tlb
  let s0 := s.readTables f.reads
  let s1 := match f.ad with | some w => s0.setAd w | none => s0
  let s2 := t.place.levels.foldl (fun (u : State) p => u.cache { t with place := p }) s1
  let s3 := f.path.foldl (fun (u : State) v =>
    u.cacheWalk { die := t.place.ioDie, part := t.part, fn := t.fn, asid := t.asid, visit := v }) s2
  { s3 with walks := s3.walks.filter (fun w => !(w.die == t.place.ioDie && w.part == t.part && w.fn == t.fn && w.asid == t.asid &&
      decide (t.gva ≤ w.gva ∧ w.gva < t.gva + t.size))) }

/-- Every translation of a list left behind. -/
def State.installAll (s : State) (l : List Found) : State := l.foldl State.install s

/-! ### The leaves under a range, for LOCK (R27) and the page rule of R129 -/

/-- A mapped piece of a range: its GVA (or GPA), bytes, output kind and location, and the stage-2 leaf's place. -/
structure Piece where
  base : Nat
  size : Nat
  kind : OutKind
  out : Nat
  leaf : Nat
  deriving DecidableEq, Repr

/-- Valid stage-2 leaves under a table of a level that overlap [lo, hi); `base` is the first address the table maps. -/
def pieces2 (s : State) (level table base lo hi : Nat) : List Piece :=
  (List.range 512).flatMap (fun i =>
    let a := base + i * levelSize level
    if a + levelSize level ≤ lo ∨ hi ≤ a ∨ dramSize ≤ table then []
    else
      let e := s.readDWord 0 (table + 8 * i)
      if entryV e = false then []
      else if isPointer e then
        match level with
        | 0 => []
        | l + 1 => pieces2 s l (entryOut e) a lo hi
      else if (leaf2Fault level e).isSome then []
      else [{ base := a, size := levelSize level, kind := kindOf e, out := entryOut e, leaf := table + 8 * i }])

/-- A piece cut to [lo, hi). -/
def Piece.clip (p : Piece) (lo hi : Nat) : Piece :=
  let a := max p.base lo
  { p with base := a, size := min (p.base + p.size) hi - a, out := p.out + (a - p.base) }

/-- Stage 2 over an interval of GPAs. -/
def gpaPieces (s : State) (c : Ctx) (lo hi : Nat) : List Piece :=
  if hi ≤ lo then []
  else if c.s2en then (pieces2 s 4 c.s2root 0 lo hi).map (fun p => p.clip lo hi)
  else if dramSize ≤ lo then []
  else [{ base := lo, size := min hi dramSize - lo, kind := .dram, out := lo, leaf := 2 ^ 60 }]

/-- Valid stage-1 leaves under a table of a level that overlap [lo, hi): GVA, bytes, GPA. -/
def pieces1 (s : State) (c : Ctx) (level table base lo hi : Nat) : List (Nat × Nat × Nat) :=
  (List.range 512).flatMap (fun i =>
    let a := base + i * levelSize level
    if a + levelSize level ≤ lo ∨ hi ≤ a then []
    else
      match tableLoc s c (table + 8 * i) with
      | .error _ => []
      | .ok (loc, serial) =>
        let e := s.readDWord serial loc
        if entryV e = false then []
        else if isPointer e then
          match level with
          | 0 => []
          | l + 1 => pieces1 s c l (entryOut e) a lo hi
        else if (leaf1Fault level e).isSome then []
        else [(a, levelSize level, entryOut e)])

/-- Everything an interval of GVAs maps to. -/
def gvaPieces (s : State) (c : Ctx) (lo hi : Nat) : List Piece :=
  if hi ≤ lo then []
  else if c.s1en then
    (pieces1 s c 4 c.s1root 0 lo hi).flatMap (fun p =>
      let a := max p.1 lo
      let b := min (p.1 + p.2.1) hi
      gpaPieces s c (p.2.2 + (a - p.1)) (p.2.2 + (b - p.1)))
  else gpaPieces s c lo hi

/-- Whether a piece and an output interval share a 4 KiB output page (R129). -/
def Piece.sharesPage (p : Piece) (k : OutKind) (out size : Nat) : Bool :=
  p.kind == k && p.size != 0 && size != 0 &&
    decide (p.out / 4096 ≤ (out + size - 1) / 4096 ∧ out / 4096 ≤ (p.out + p.size - 1) / 4096)

/-- RLS set in a list of leaves in every cached copy of them (R27): translation caches, walk caches, walks in flight, and the
translations that accesses still to perform came by. -/
def State.lockCopies (s : State) (ls : List Nat) : State :=
  let seen (e : Seen) : Seen := if ls.contains e.loc then { e with word := e.word ||| 0x100#64 } else e
  let req (r : Req) : Req := { r with x := r.x.map (Xlat.lockBy ls) }
  let drain (d : DrainOp) : DrainOp := { d with todo := d.todo.map req }
  let hold (w : Nat × Nat × Option Xlat) : Nat × Nat × Option Xlat := (w.1, w.2.1, w.2.2.map (Xlat.lockBy ls))
  { s with
    tlb := s.tlb.map (fun t => { t with x := t.x.lockBy ls })
    walkCache := s.walkCache.map (fun e => { e with visit := { e.visit with seen := seen e.visit.seen } })
    walks := s.walks.map (fun w => { w with seen := w.seen.map seen })
    drains := mapAll s.drains drain
    reduces := mapAll s.reduces (fun r => { r with base := drain r.base, lines := r.lines.map req })
    groups := mapAll s.groups (fun g => { g with epoch := g.epoch.map (fun e =>
      { e with writes := e.writes.map hold, loads := e.loads.map hold }) }) }

/-- RLS set in the stage-2 leaves an interval of GVAs touches and in every cached copy (R27). -/
def State.setRls (s : State) (c : Ctx) (lo hi : Nat) : State :=
  let leaves := ((gvaPieces s c lo hi).map (·.leaf)).filter (fun l => decide (l < dramSize))
  if leaves.isEmpty then s
  else
    (leaves.foldl (fun t l =>
      let e := t.readDWord 0 l
      if e.getLsbD 8 then t else t.perform none 0 (cellsAt l (toBytes 8 (e ||| 0x100#64).toNat))) s).lockCopies leaves

/-! ### Walkers (R30) -/

/-- A walker reads the next entry of the walk for a page of a context, which it starts where none is in flight; an I/O die has at
most 4,096 misses pending, and a miss of a page already pending joins it (R30). -/
def State.walkOn (s : State) (die : Nat) (c : Ctx) (gva : Nat) : State :=
  let next (l : List Seen) : List Seen :=
    match (((pathOf (s.seeing l) c gva).map seenOf).filter (fun e => !l.any (fun o => o.loc == e.loc))).head? with
    | some e => l ++ [e]
    | none => l
  if s.walks.any (fun w => w.serves die c gva) then
    { s with walks := s.walks.map (fun w => if w.serves die c gva then { w with seen := next w.seen } else w) }
  else if 4096 ≤ (s.walks.filter (fun w => w.die == die)).length then s
  else
    { s with walks := s.walks ++ [{ die := die, part := c.part, fn := c.fn, asid := c.asid, gva := gva / 4096 * 4096, seen := next [] }] }

end Sys2Proof.Machine
end

