-- ==== Sys2Proof/Machine/Access.lean ====
section
/-! DEFINITION. Checking one access (R45 to R47, R54), range locks (R129), the failure of an instruction (R9, R49, R261,
R391, R392), fault records (R393 to R397), and the read set and store buffer of an epoch (R114, R115, R127). -/

namespace Sys2Proof.Machine

/-! ### Requesters -/

/-- Who makes an access: its context, its logical cluster and core (none for the collective engine), its team's set and
allocation. -/
structure Requester where
  ctx : Ctx
  cluster : Nat := 0
  core : Nat := 0
  collective : Bool := false
  guide : Bool := false
  engine : Bool := false
  team : Nat := 0
  deriving DecidableEq, Repr

/-- The requester of an issuing group. -/
def Issue.requester (x : Issue) : Requester :=
  let t := x.team
  { ctx := t.ctx, cluster := t.cluster, core := t.core, guide := x.g.isGuide, team := x.g.team }

/-- The translation cache a requester comes to first: its core's L1 TLB, or an I/O die's cache for the collective engine (R30). -/
def Requester.place (rq : Requester) : TlbPlace := if rq.collective then .die (rq.core / 256) else .core rq.core

/-- The device cluster of a partition's logical cluster (R421). -/
def State.deviceCluster (s : State) (p n : Nat) : Nat := nthBit (s.part p).clusters n

/-- Whether a requester is a party of a capability's scope (R37). -/
def State.inScope (s : State) (rq : Requester) (c : Cap) : Bool :=
  match c.scope with
  | 0 => !rq.collective
  | 1 => !rq.collective && rq.cluster == c.anchor
  | 2 => !rq.collective &&
      s.deviceCluster rq.ctx.part rq.cluster / 16 == s.deviceCluster rq.ctx.part c.anchor / 16
  | 3 => true
  | 4 => true
  | _ => false

/-- Whether a VDN is on a function's roster (R413). -/
def State.onRoster (s : State) (fn vdn : Nat) : Bool := (lookD s.roster (fn * 32 + vdn / 64) 0).getLsbD (vdn % 64)

/-- The entry of a VDN (R412). -/
def State.vdnOf (s : State) (v : Nat) : DWord := lookD s.vdn v 0

def vdnV (e : DWord) : Bool := e.getLsbD 63
def vdnHeld (e : DWord) : Bool := bits e 61 2 == 1
def vdnLocal (e : DWord) : Bool := e.getLsbD 60
def vdnDev (e : DWord) : Nat := bits e 49 11
def vdnPorts (e : DWord) : Nat := bits e 31 18
def vdnEpoch (e : DWord) : Nat := bits e 15 16
def vdnFn (e : DWord) : Nat := bits e 0 11

/-- The lowest VDN that binds a function here: the SVDN of what it sends (R412). -/
def State.svdnOf (s : State) (fn : Nat) : Option Nat :=
  (s.vdn.find? (fun e => vdnV e.2 && vdnLocal e.2 && vdnFn e.2 == fn)).map (·.1)

/-- Whether a function can send to a VDN (R412, R414): the entry is in use and the function has an SVDN. -/
def State.reaches (s : State) (fn vdn : Nat) : Bool := vdnV (s.vdnOf vdn) && (s.svdnOf fn).isSome

/-! ### Range locks (R128, R129) -/

/-- Whether two intervals share a byte. -/
def overlap (a n b m : Nat) : Bool := decide (n ≠ 0 ∧ m ≠ 0 ∧ a < b + m ∧ b < a + n)

/-- A memory access as a range lock judges it: context, GVA, translation. -/
structure Touch where
  ctx : Ctx
  gva : Nat
  size : Nat
  x : Xlat
  deriving DecidableEq, Repr

/-- Whether two contexts are one translation context (R128). -/
def sameCtx (a b : Ctx) : Bool := a.part == b.part && a.fn == b.fn && a.asid == b.asid

/-- Whether a memory access overlaps a memory range: in bytes within one context, in 4 KiB output pages otherwise
(R129). -/
def State.touches (s : State) (o : EngineOp) (r : Range) (t : Touch) : Bool :=
  if r.scratch then false
  else if sameCtx o.ctx t.ctx then overlap r.base r.len t.gva t.size
  else (gvaPieces s o.ctx r.base (r.base + r.len)).any (fun p => p.sharesPage t.x.kind t.x.out t.size)

/-- The operations whose ranges are registered. -/
def State.lockers (s : State) : List (Nat × EngineOp) := s.ops.filter (fun e => e.2.locked)

/-- The first operation that refuses a memory access (R129): a write any range, a read a destination. -/
def State.refuser (s : State) (t : Touch) (isWrite : Bool) : Option (Nat × EngineOp) :=
  if t.x.rls then
    s.lockers.find? (fun e => e.2.dsts.any (fun r => s.touches e.2 r t) || (isWrite && e.2.srcs.any (fun r => s.touches e.2 r t)))
  else none

/-- Whether the scratch an operation names is that of a team on a core now: the ranges of a function switched out, and of
an evicted team, name allocations that are elsewhere (R382, R384). -/
def State.onCoreNow (s : State) (o : EngineOp) : Bool :=
  match look s.teams o.team with
  | some t => t.state != .swapped && t.state != .evicted && t.state != .ready
  | none => true

/-- The first operation that refuses a scratch access at a location. -/
def State.scratchRefuser (s : State) (loc size : Nat) (isWrite : Bool) : Option (Nat × EngineOp) :=
  let hit (r : Range) : Bool := r.scratch && overlap r.base r.len loc size
  s.lockers.find? (fun e => s.onCoreNow e.2 && (e.2.dsts.any hit || (isWrite && e.2.srcs.any hit)))

/-! ### CHECK_ACCESS (R45) -/

/-- What a passed check grants: the GVA and its translation. -/
structure Grant where
  gva : Nat
  f : Found
  deriving DecidableEq, Repr

/-- CHECK_CAP with bounds over n bytes from an offset (R8, R45, R47). -/
def State.checkCap (s : State) (rq : Requester) (c : Cap) (perm off n : Nat) : Except Fail Nat :=
  let fail (k : Cause) (a : Nat) : Except Fail Nat := .error (.cause k (BitVec.ofNat 64 a) (some c.owner))
  if c.tag = false then fail .capTag 0
  else if 5 ≤ c.scope ∨ s.inScope rq c = false then fail .capScope c.base
  else if c.otype ≠ 0 ∨ c.has perm = false then fail .capPermission c.base
  else if c.limit < c.base + off + n then fail .capBounds (c.base + off)
  else .ok (c.base + off)

/-- The checks of R45 that need the translation, in its order, and that of R451. -/
def State.checkXlat (s : State) (rq : Requester) (c : Cap) (gva : Nat) (x : Xlat) : Option (Cause × Nat) :=
  if (x.kind = .host ∨ x.kind = .peer) ∧ c.scope ≠ 4 then some (.capScope, gva)
  else if x.kind = .peer ∧ c.has permPEER = false then some (.capPermission, gva)
  else if x.ms ∧ c.has permMS = false then some (.capPermission, gva)
  else if x.kind = .peer ∧ (s.onRoster rq.ctx.fn x.vdn = false ∨ s.reaches rq.ctx.fn x.vdn = false) then some (.peerRoster, x.vdn * 2 ^ 52 + x.out)
  else if rq.ctx.prot ∧ (x.kind = .dram ∨ x.kind = .host) ∧ x.key ≠ c.owner then some (.keyMismatch, gva)
  else if s.keyOk rq.ctx.part rq.ctx.fn x = false then some (.keyMismatch, gva)
  else none

/-- The capability-page and NOTIFY rules of R23. -/
def pageRule (a : Access) (gva size : Nat) (x : Xlat) : Option (Cause × Nat) :=
  let capAccess := a = .capLoad ∨ a = .capStore
  if capAccess ∧ x.cappg = false then some (.capTag, gva)
  else if x.cappg ∧ (a = .write ∨ a = .atomic ∨ a = .engineWrite) then some (.capPermission, gva)
  else if x.kind = .notify ∧ a = .atomic then some (.misaligned, gva)
  else if x.kind = .notify ∧ (a = .write ∨ a = .engineWrite) ∧ ¬ (gva % 4096 = 0 ∧ (size = 4 ∨ size = 8)) then
    some (.misaligned, gva)
  else none

/-- CHECK_ACCESS for `size` bytes at byte offset `off` of a capability (R45): alignment, translation, and the checks
that need it. The RLT lookup is apart. -/
def State.checkAccess (s : State) (rq : Requester) (c : Cap) (off size perm : Nat) (a : Access) (align salt : Nat) :
    Except Fail Grant :=
  match s.checkCap rq c perm off size with
  | .error e => .error e
  | .ok gva =>
    let fail (k : Cause) (ad : Nat) : Except Fail Grant := .error (.cause k (BitVec.ofNat 64 ad) (some c.owner))
    if gva % align ≠ 0 then fail .misaligned gva
    else
      match translateAt s rq.place rq.ctx a gva salt with
      | .error f => .error (.page f gva)
      | .ok f =>
        match s.checkXlat rq c gva f.x with
        | some (k, ad) => fail k ad
        | none =>
          match pageRule a gva size f.x with
          | some (k, ad) => fail k ad
          | none => .ok { gva := gva, f := f }

/-- The key ID logged for an access without a capability: the requester's process's (R49). -/
def Requester.key (rq : Requester) : Nat := rq.ctx.keyId

/-- SCRATCH (R54) for a team: the location of the first byte. -/
def State.scratch (s : State) (rq : Requester) (a : Word) (size align : Nat) : Except Fail Nat :=
  let t := lookD s.teams rq.team {}
  let n := a.toNat
  let member := n / 2 ^ 18 % 8
  let off := n % 2 ^ 18
  if 2 ^ 21 ≤ n ∨ t.setSize ≤ member ∨ t.ssize < off + size then
    .error (.cause .scratchBound (a.zeroExtend 64) (some rq.key))
  else if off % align ≠ 0 then .error (.cause .misaligned (a.zeroExtend 64) (some rq.key))
  else
    let peer := (s.teams.find? (fun e => e.2.launch == t.launch && e.2.teamId == t.teamId - t.member + member)).map (·.2)
    let m := peer.getD t
    .ok (scratchLoc (m.core / 8) (m.sbase + off))

/-! ### What runs -/

/-- Whether a function's teams run: it is the partition's running function, and neither a switch nor a migration has halted it
(R352, R383, R433). -/
def State.fnRuns (s : State) (c : Ctx) : Bool :=
  (s.part c.part).running == some c.fn && ((s.part c.part).switch == .running || (s.part c.part).switch == .staged) &&
    !(s.part c.part).migHeld

/-- Whether a function's engines come to the boundary at which they stop: it is being halted, and its state is still on its cores
(R352, R383, R433). -/
def State.halting (s : State) (c : Ctx) : Bool :=
  (s.part c.part).running == some c.fn && !s.fnRuns c &&
    ((s.part c.part).switch == .halted || ((s.part c.part).migPhase == 2 && !(s.part c.part).migImage))

/-- Whether a team runs: resident, of a function that runs. -/
def State.teamRuns (s : State) (tid : Nat) : Bool :=
  match look s.teams tid with
  | some t => t.state == .resident && s.fnRuns t.ctx
  | none => false

/-! ### The failure of an instruction -/

/-- The code of a page fault (R388). -/
def PageFault.cause (f : PageFault) : Cause := if f.stage2 then .pageFaultS2 else .pageFaultS1

/-- The ACCESS field of a fault record (R394). -/
def Access.code (a : Access) : Nat :=
  match a with
  | .read | .prefetch => 0
  | .write => 1
  | .fetch => 2
  | .atomic => 3
  | .capLoad => 4
  | .capStore => 5
  | .engineRead => 6
  | .engineWrite => 7

/-- The bytes of a fault record (R394). -/
def FaultRec.bytes (r : FaultRec) (id : Word) (time : Nat) : List Byte :=
  let av := if r.fault.gpa.isSome ∧ (r.fault.stage2 ∨ r.fault.table) then 2 ^ 63 else 0
  toBytes 8 (r.gva % 2 ^ 57) ++
    toBytes 8 (av + (if av = 0 then 0 else r.fault.gpa.getD 0 % 2 ^ 52) + r.fault.vdn % 2 ^ 11 * 2 ^ 52) ++
    toBytes 8 (time / 2 ^ 10 % 2 ^ 32 + id.toNat * 2 ^ 32) ++
    toBytes 8 (min r.parties.length 65535 + r.core % 8 * 2 ^ 17 + r.cluster % 64 * 2 ^ 20 +
      (if r.fault.table then 2 ^ 26 else 0) + r.source % 4 * 2 ^ 27 + r.access % 8 * 2 ^ 29 +
      (if r.fault.stage2 then 2 ^ 32 else 0) + r.fault.reason % 16 * 2 ^ 33 + r.fn % 2 ^ 11 * 2 ^ 37 +
      r.asid % 2 ^ 16 * 2 ^ 48)

/-- Held records written while the fault queue has room (R396), at most `fuel`. -/
def State.writeRecords (s : State) (p fuel : Nat) : State :=
  match fuel with
  | 0 => s
  | k + 1 =>
    let q := s.part p
    match q.faults.findIdx? (fun r => r.id.isNone && !r.hidden) with
    | none => s
    | some i =>
      if q.fqHead - q.fqTail = 512 then s
      else
        let r := q.faults[i]?
        match r with
        | none => s
        | some r =>
          let at_ := bits q.fqBase 14 26 * 2 ^ 14 + q.fqHead.toNat % 512 * 32
          let s1 := s.perform none (s.serialOf (bits q.fqBase 0 12)) (cellsAt at_ (r.bytes q.fqHead (s.partClock p)))
          let s2 := s1.onPart p (fun q =>
            { q with fqHead := q.fqHead + 1, faults := q.faults.set i { r with id := some q.fqHead.toNat } })
          s2.writeRecords p k

/-- Whether a fault joins an unresolved record (R396). -/
def FaultRec.joins (r n : FaultRec) : Bool :=
  r.answer.isNone && r.hidden == n.hidden && r.fn == n.fn && r.fault.reason == n.fault.reason && r.fault.stage2 == n.fault.stage2 &&
    (if n.fault.stage2 then (r.fault.gpa.map (· / 4096)) == (n.fault.gpa.map (· / 4096))
     else r.asid == n.asid && r.gva / 4096 == n.gva / 4096)

/-- Whether a page fault arises from a page of a function that the CP is moving (R103). -/
def State.isMoving (s : State) (fn : Nat) (f : PageFault) : Bool :=
  f.stage2 && s.parts.any (fun e => e.2.waiting.any (fun w =>
    match w.what with
    | .migrateInval _ fn' gpa _ _ _ _ _ => fn' == fn && gpa / 2 ^ 16 == f.gpa.getD 0 / 2 ^ 16
    | _ => false))

/-- A party parks on a fault record: joined, or new and written when there is room (R393, R396). -/
def State.parkOn (s : State) (p : Nat) (n0 : FaultRec) : State :=
  let q := s.part p
  let n := { n0 with hidden := s.isMoving n0.fn n0.fault }
  match q.faults.findIdx? (fun r => r.joins n) with
  | some i =>
    s.onPart p (fun q => { q with
      faults := q.faults.mapIdx (fun j r => if j = i then { r with parties := r.parties ++ n.parties } else r) })
  | none => (s.onPart p (fun q => { q with faults := q.faults ++ [n] })).writeRecords p 1

/-- A page fault of a group's instruction: DENY at once while FQBASE.EN = 0 (R395), otherwise its lanes park; in an epoch it replays
(R120), in a shadow it stops the group's issue (R123). -/
def State.pageFault (s : State) (gid : Nat) (t : TrapInfo) (f : PageFault) (gva : Nat) (a : Access) : State :=
  match look s.groups gid with
  | none => s
  | some g =>
    let tm := s.teamOf g
    if g.holdsTrap then s.trap gid t
    else if bits (s.part tm.ctx.part).fqBase 13 1 = 0 ∧ s.isMoving tm.ctx.fn f = false then s.takeTrap gid t
    else
      (s.onGroup gid (fun g => g.parkLanes t.convoy .record)).parkOn tm.ctx.part
        { id := none, fn := tm.ctx.fn, asid := tm.ctx.asid, fault := f, gva := gva, access := a.code,
          source := if g.isGuide then 1 else 0, cluster := tm.cluster, core := tm.core % 8, parties := [.lanes gid t] }

/-- The failing lanes, rising, each with the first failure its checks found: that ends its procedure (R45). -/
def byLane (fs : List (Nat × Fail)) : List (Nat × Fail) :=
  (fs.foldl (fun l e => insertNat l e.1) []).filterMap (fun i => fs.find? (fun e => e.1 == i))

/-- The failing lanes of one cause: their numbers, rising, and the lowest one's address and key. -/
def withCause (fs : List (Nat × Fail)) (c : Cause) : List (Nat × DWord × Option Nat) :=
  fs.filterMap (fun e => match e.2 with | .cause k a o => if k = c then some (e.1, a, o) else none | .page _ _ => none)

/-- The causes, in rising code order. -/
def causesOf (fs : List (Nat × Fail)) : List Cause :=
  let codes := fs.foldl (fun l e => match e.2 with | .cause k _ _ => insertNat l k.code | .page _ _ => l) []
  codes.filterMap (fun n => fs.findSome? (fun e => match e.2 with | .cause k _ _ => if k.code = n then some k else none | _ => none))

/-- The failure of an instruction over its failing lanes (R9, R49, R261, R392): the log entries and the trap of the
lowest cause; or, when every failure is a page fault, the park on the lowest lane's fault, with the lanes whose fault has its
code for a DENY (R397). In an epoch the instruction waits for the commit (R122), in a shadow the group's issue stops (R123). -/
def Issue.failWith (x : Issue) (s : State) (a : Access) (fs : List (Nat × Fail)) : State :=
  if x.g.epoch.isSome then x.s
  else if x.g.drained.isSome then x.s.stick x.gid
  else
  match causesOf fs with
  | c :: rest =>
    let all := withCause fs c
    let addr := ((all.head?).map (·.2.1)).getD 0
    let logs := (c :: rest).filterMap (fun k =>
      match withCause fs k with
      | (i, ad, some o) :: r => some (k, ad, o, i :: r.map (·.1))
      | _ => none)
    (s.logLanes x.g x.pc logs).trap x.gid { cause := c, addr := addr, lanes := all.map (·.1), pc := x.pc, convoy := x.mask }
  | [] =>
    match fs with
    | [] => s
    | (_, .page f gva) :: _ =>
      let same := fs.filterMap (fun e => match e.2 with | .page k v => if k.cause = f.cause then some (e.1, v) else none | _ => none)
      let lowest := same.foldl (fun m e => min m e.2) gva
      s.pageFault x.gid { cause := f.cause, addr := BitVec.ofNat 64 lowest, lanes := same.foldl (fun l e => insertNat l e.1) [], pc := x.pc, convoy := x.mask }
        f gva a
    | _ => s

/-- The failure of an instruction over what its lanes' checks found (R45). -/
def Issue.failIn (x : Issue) (s : State) (a : Access) (found : List (Nat × Fail)) : State := x.failWith s a (byLane found)

/-- The failing lanes of a list of checks. -/
def failsOf {α : Type} (l : List (Nat × Except Fail α)) : List (Nat × Fail) :=
  l.filterMap (fun e => match e.2 with | .error f => some (e.1, f) | .ok _ => none)

/-- The passed checks of a list. -/
def passed {α : Type} (l : List (Nat × Except Fail α)) : List (Nat × α) :=
  l.filterMap (fun e => match e.2 with | .ok v => some (e.1, v) | .error _ => none)

/-! ### Epochs (R114 to R117, R127) -/

/-- A byte as a group's accesses read it: from its youngest buffered store, otherwise from memory (R115). -/
def Issue.byteAt (x : Issue) (serial k : Nat) : Byte :=
  match x.g.epoch with
  | none => x.s.mem.getUnder serial k
  | some e =>
    match (e.stores.reverse.findSome? (fun b => (b.cells.find? (fun c => c.1 == k)).map (·.2))) with
    | some v => v
    | none => x.s.mem.getUnder serial k

/-- n bytes as a group's accesses read them. -/
def Issue.bytesAt (x : Issue) (serial k n : Nat) : List Byte := (span k n).map (x.byteAt serial)

/-- Whether every byte of n from k lies in the group's buffered stores. -/
def Issue.allBuffered (x : Issue) (k n : Nat) : Bool :=
  match x.g.epoch with
  | none => false
  | some e => (span k n).all (fun j => e.stores.any (fun b => b.cells.any (fun c => c.1 == j)))

/-- The lines of the accesses that a read set records (R114). -/
def Issue.readLines (x : Issue) (accs : List (Nat × Nat)) : List Nat :=
  accs.foldl (fun l a => if x.allBuffered a.1 a.2 then l else (span (lineOf a.1) (lineOf (a.1 + a.2 - 1) - lineOf a.1 + 1)).foldl insertNat l) []

/-- Whether an epoch has room for reads of these lines and so many store entries (R116). -/
def Issue.hasRoom (x : Issue) (lines : List Nat) (stores : Nat) : Bool :=
  match x.g.epoch with
  | none => true
  | some e => decide ((lines.foldl insertNat e.reads).length ≤ 64 ∧ e.stores.length + stores ≤ 32)

/-- The cells of one store instruction, one entry for each line (R115). -/
def bufferEntries (serial : Nat) (cells : List (Nat × Byte)) : List Buffered :=
  (linesOf cells).map (fun ln => { line := ln, cells := cells.filter (fun c => lineOf c.1 == ln), key := serial })

/-- Whether a deferred command of the epoch would, once released, refuse an access (R127): the access is then replayed. -/
def Range.meets (r : Range) (scratch : Bool) (base size : Nat) : Bool := r.scratch == scratch && overlap r.base r.len base size

end Sys2Proof.Machine
end

