-- ==== Sys2Proof/Machine/Coherence.lean ====
section
/-! DEFINITION. The coherence protocol of one line (R57 to R70): the directory at its home with its room for entries, the messages
of R65 and what each does on arrival, the L1 copies and their frames, and the whole transactions by which an access obtains its
line. The values of memory are coherent in one place (`Memory`); directory, L1 and MSC state say who holds what. -/

namespace Sys2Proof.Machine

/-! ### Lines -/

/-- The slice core of a line in a fused cluster (R61): the hash of the output address. -/
def sliceHash (line : Nat) : Nat :=
  (line % 8) ^^^ (line / 8 % 8) ^^^ (line / 64 % 8) ^^^ (line / 512 % 8) ^^^ (line / 4096 % 8)

/-- Whether a device cluster runs fused (R62): the partition that owns it says so of its logical number. -/
def State.isFused (s : State) (cluster : Nat) : Bool :=
  s.parts.any (fun e => e.2.clusters.getLsbD cluster && e.2.fused.getLsbD (s.logicalCluster e.1 cluster))

/-- The core whose L1 serves a core's access to a line. -/
def State.l1Core (s : State) (core line : Nat) : Nat :=
  if s.isFused (clusterOf core) then clusterOf core * 8 + sliceHash line else core

/-- The copy of a line in a core's L1. -/
def State.copyOf (s : State) (core line : Nat) : Option L1Line := s.l1.find? (fun l => l.core == core && l.line == line)

/-- A copy put in place of a core's copy of its line. -/
def State.setCopy (s : State) (c : L1Line) : State :=
  { s with l1 := c :: s.l1.filter (fun l => !(l.core == c.core && l.line == c.line)) }

/-- A core's copy of a line dropped. -/
def State.dropCopy (s : State) (core line : Nat) : State :=
  { s with l1 := s.l1.filter (fun l => !(l.core == core && l.line == line)) }

/-- A copy used: the latest in the order of use, which is that of the list (R60). -/
def State.useCopy (s : State) (core line : Nat) : State :=
  match s.copyOf core line with
  | some c => s.setCopy c
  | none => s

/-- The directory entry of a line. -/
def State.entry (s : State) (line : Nat) : DirEntry := lookD s.dir line {}

/-- The directory entry of a line written; a line in I with nothing waiting has none (R63). -/
def State.setEntry (s : State) (line : Nat) (e : DirEntry) : State :=
  { s with dir := if e = {} then del s.dir line else put s.dir line e }

/-- Whether a cached translation shows the line as host-owned (R92). -/
def State.isHostOwned (s : State) (line : Nat) : Bool :=
  s.tlb.any (fun t => t.x.hostOwned && t.x.kind == .dram && decide (t.x.out ≤ 128 * line ∧ 128 * line < t.x.out + t.size))

/-! ### Room in a directory (R63, R69, R91) -/

/-- The lines of a home's directory that share a set with a line: those of its slice under one hash, or, of HOST lines, all that
the host directory of an I/O die tracks for its cores. -/
def State.dirRivals (s : State) (line die : Nat) : List Nat :=
  let held := (s.dir.filter (fun e => e.2.state != .i && isHostLine e.1 == isHostLine line)).map (·.1)
  if isHostLine line then
    held.filter (fun l =>
      let e := s.entry l
      e.sharers.any (fun q => (if e.cv then q / 32 else q / 256) == die) || e.current.any (fun r => r.core.any (fun q => q / 256 == die)))
  else
    let slice := held.filter (fun l => channelOf (128 * l) == channelOf (128 * line))
    if slice.length < 16 then slice else slice.filter (fun l => Config.dirSet l % 256 == Config.dirSet line % 256)

/-- The entries that a set of a slice, or a host directory, has. -/
def dirWays (line : Nat) : Nat := if isHostLine line then 65536 else 16

/-- Whether a line has an entry, or there is room for one. -/
def State.dirFits (s : State) (line die : Nat) : Bool :=
  s.dir.length < 16 || (s.entry line).state != .i || decide ((s.dirRivals line die).length < dirWays line)

/-- The entry that gives way for a line: of those in a stable state the one used least recently (R69). -/
def State.dirVictim (s : State) (line die : Nat) : Option Nat :=
  let stable := (s.dirRivals line die).filter (fun l => (s.entry l).state == .s || (s.entry l).state == .x)
  match stable.filter (fun l => !s.dirOrder.contains l) with
  | l :: _ => some l
  | [] => s.dirOrder.reverse.find? (fun l => stable.contains l)

/-- The I/O die whose host directory serves a request (R91). -/
def HomeReq.die (r : HomeReq) : Nat := r.core.getD 0 / 256

/-- Whether the host has given a home what a request needs: it holds no copy of the line (R92), and both halves of a host line or
host-owned line are there, owned where the request is an own (R91). -/
def State.hostReady (s : State) (line : Nat) (own : Bool) : Bool :=
  !s.snoopFilter.contains line &&
    (if isHostLine line || s.isHostOwned line then
      let h := lookD s.halves line 0
      h &&& 3 == 3#4 && (!own || h &&& 12 == 12#4)
     else true)

/-- Whether the home may take up a request now: no flip holds the line (R93), the host has given what it needs, the directory has
room for its entry (R69), and the MSC for its granules (R98). -/
def State.homeReady (s : State) (line : Nat) (r : HomeReq) : Bool :=
  !s.flipping line && s.hostReady line r.own && (r.core.isNone || (s.dirFits line r.die && !s.mscStalls line))

/-- What the home asks of the host before it can grant; nothing while a flip holds the line. -/
def State.askHost (s : State) (line : Nat) : State :=
  if s.flipping line then s
  else
  let s1 := if s.snoopFilter.contains line ∧ !s.bisnp.contains line then { s with bisnp := s.bisnp ++ [line] } else s
  if (isHostLine line || s1.isHostOwned line) ∧ (look s1.halves line).isNone then { s1 with halves := put s1.halves line 0 }
  else s1

/-- The I/O die that counts a request: that of the stack of a DPA, six to a die, or for HOST memory that of the requesting
core. -/
def hotDie (loc : Nat) (core : Option Nat) : Nat :=
  if loc < dramSize then (if channelOf loc < 192 then 0 else 1) else core.getD 0 / 256

/-! ### Hot pages (R99 to R102) -/

/-- A message put on the network. -/
def State.send (s : State) (m : Msg) : State := { s with msgs := s.msgs ++ [m] }

/-- A hot-page or collision report written to its ring (R100, R102). -/
def State.hotReport (s : State) (page : Nat) (h : HotEntry) (collide : Bool) : State :=
  let r := s.hotRegs
  if (r.head + 2 ^ 32 - r.tail) % 2 ^ 32 = 256 then { s with hotRegs := { r with lost := min (r.lost + 1) (2 ^ 32 - 1) } }
  else
    let host := decide (hostBase / 2 ^ 16 ≤ page)
    let pg := if host then page - hostBase / 2 ^ 16 else page
    let word := pg % 2 ^ 36 * 2 ^ 16 + (if host then 2 ^ 14 else 0) + (if h.ppin then 2 ^ 13 else 0) +
      (if collide then 2 ^ 12 else 0) + h.fn % 2 ^ 11
    let at_ := bits r.base 12 28 * 2 ^ 12 + r.head % 256 * 16
    ({ s with hotRegs := { r with head := (r.head + 1) % 2 ^ 32 } }).perform none 0
      (cellsAt at_ (toBytes 8 word ++ toBytes 8 (s.clock / 2 ^ 16 % 2 ^ 48 * 2 ^ 16 + h.count)))

/-- The counter caches with room for the entry of a page of an I/O die (key 2 × page + die): in a full set of 16 the one used least
recently gives way, and its count is lost (R99). -/
def hotRoom (h : Store HotEntry) (key : Nat) : Store HotEntry :=
  if (look h key).isSome then h
  else
    let die := h.filter (fun e => e.1 % 2 == key % 2)
    let set := if die.length < 16 then die else die.filter (fun e => Config.hotSet (e.1 / 2) % 2048 == Config.hotSet (key / 2) % 2048)
    if set.length < 16 then h
    else
      match set.foldl (fun (b : Option (Nat × HotEntry)) e => match b with | none => some e | some x => if e.2.used < x.2.used then some e else b) none with
      | some v => del h v.1
      | none => h

/-- A request counted for its 64 KiB output page in the counter cache of an I/O die (R99, R101). -/
def State.countHot (s : State) (loc die fn : Nat) (ppin : Bool) : State :=
  if s.hotRegs.en then
    let page := loc / 2 ^ 16
    let h := lookD s.hot (2 * page + die) {}
    let h1 := { h with count := min (h.count + 1) 65535, fn := fn, ppin := ppin, used := s.nextId }
    let report := s.hotRegs.hothi ≤ h1.count ∧ h1.hot = false
    let h2 := if report then { h1 with hot := true } else h1
    let s1 := { s with nextId := s.nextId + 1, hot := put (hotRoom s.hot (2 * page + die)) (2 * page + die) h2 }
    if report then s1.hotReport page h2 false else s1
  else s

/-- The function and PPIN a request for a line is counted with: those of a cached translation of it. -/
def State.hotInfo (s : State) (line : Nat) : Nat × Bool :=
  match s.tlb.find? (fun t => decide (outLoc t.x.kind t.x.out ≤ 128 * line ∧ 128 * line < outLoc t.x.kind t.x.out + t.size)) with
  | some t => (t.fn, t.x.ppin)
  | none => (0, false)

/-- A write-back reaches the home: the granules in the MSC, the block's dirty-map bit (R68, R105); of a HOST line, at the host,
which holds them whole (R81, R91). -/
def State.takeWriteBack (s : State) (line : Nat) (mask : BitVec 8) : State :=
  if mask = 0 then s
  else if isHostLine line then
    { s with mem := { s.mem with bad := s.mem.bad.filter (fun g => !(g / 8 == line && mask.getLsbD (g % 8))) } }
  else
    ((s.mscWrite line mask).mscKey line (s.mem.keyOf (8 * line))).markBlocks [line / 16]

/-- The host halves of a HOST line given back: no core holds it any more (R91). -/
def State.giveHalves (s : State) (line : Nat) : State := if isHostLine line then { s with halves := del s.halves line } else s

/-! ### The home (R66 to R69) -/

/-- The sharers of an S entry with core q recorded (R66): pointers, or on overflow the clusters. -/
def DirEntry.record (e : DirEntry) (q : Nat) : DirEntry :=
  if e.cv then { e with sharers := insertNat e.sharers (clusterOf q) }
  else if e.sharers.contains q then e
  else if e.sharers.length < 4 then { e with sharers := e.sharers ++ [q] }
  else { e with cv := true, sharers := (e.sharers ++ [q]).foldl (fun l c => insertNat l (clusterOf c)) [] }

/-- The cores an invalidation goes to (R67, R69). -/
def DirEntry.targets (e : DirEntry) (except : Option Nat) : List Nat :=
  let all := if e.cv then e.sharers.flatMap (fun n => span (8 * n) 8) else e.sharers
  all.filter (fun c => some c != except)

/-- A home's answer to a finished request: the grant to its core, or nothing for a party outside. -/
def State.answer (s : State) (line : Nat) (r : HomeReq) : State :=
  match r.core with
  | some q => s.send { kind := if r.own then .grantX else .grantS, core := q, line := line, mask := r.mask }
  | none => s

/-- The requests that the coalescer makes of some granules of a line counted; a request without data is one (R74, R99). -/
def State.countGrains (s : State) (line : Nat) (mask : BitVec 8) (core : Option Nat) : State :=
  let info := s.hotInfo line
  (List.range (max 1 (coalesce mask).length)).foldl (fun t _ => t.countHot (128 * line) (hotDie (128 * line) core) info.1 info.2) s

/-- The entry of a line used (R69). -/
def State.useEntry (s : State) (line : Nat) : State :=
  { s with dirOrder := line :: s.dirOrder.filter (fun l => l != line && (s.entry l).state != .i) }

/-- A request taken up by the home of a line in a stable state (R66, R67). -/
def State.serve (s : State) (line : Nat) (r : HomeReq) : State :=
  let e := s.entry line
  let s0 := (if r.core.isSome then (s.mscRead line r.mask).countGrains line r.mask r.core else s).useEntry line
  match e.state with
  | .i =>
    match r.core with
    | some q => (s0.setEntry line { e with state := if r.own then .x else .s, cv := false, sharers := [q] }).answer line r
    | none => s0
  | .s =>
    if r.own then
      let ts := e.targets r.core
      if ts.isEmpty then
        match r.core with
        | some q => (s0.setEntry line { e with state := .x, cv := false, sharers := [q] }).answer line r
        | none => s0.setEntry line { e with state := .i, cv := false, sharers := [] }
      else
        let s1 := s0.setEntry line { e with state := .inv, current := some r, expected := ts.length, count := 0 }
        ts.foldl (fun t c => t.send { kind := .invalidate, core := c, line := line }) s1
    else
      match r.core with
      | some q => (s0.setEntry line (e.record q)).answer line r
      | none => s0
  | .x =>
    let o := (e.sharers.head?).getD 0
    if r.core = some o then s0
    else
      (s0.setEntry line { e with state := .recall, current := some r, expected := 1, count := 0 }).send
        { kind := if r.own then .recallX else .recallS, core := o, line := line }
  | _ => s0

/-- Requests that wait at a home taken up while it is stable and ready, at most `fuel`. -/
def State.pump (s : State) (line fuel : Nat) : State :=
  match fuel with
  | 0 => s
  | k + 1 =>
    let e := s.entry line
    match e.state, e.waiting with
    | .inv, _ => s
    | .recall, _ => s
    | _, [] => s
    | _, r :: rest =>
      if s.homeReady line r then ((s.setEntry line { e with waiting := rest }).serve line r).pump line k
      else s.askHost line

/-- A request arrives at the home of a line. -/
def State.request (s : State) (line : Nat) (r : HomeReq) : State :=
  let e := s.entry line
  (s.setEntry line { e with waiting := e.waiting ++ [r] }).pump line (e.waiting.length + 1)

/-- The home has all it waited for: the request of the transaction is answered, and the next taken up. -/
def State.finishHome (s : State) (line : Nat) : State :=
  let e := s.entry line
  let base : DirEntry := { waiting := e.waiting }
  let s1 :=
    match e.current with
    | some r =>
      match e.state, r.core, r.own with
      | .recall, some q, false => (s.setEntry line { base with state := .s, sharers := e.sharers ++ [q] }).answer line r
      | .recall, none, false => s.setEntry line { base with state := .s, sharers := e.sharers }
      | _, some q, _ => (s.setEntry line { base with state := .x, sharers := [q] }).answer line r
      | _, none, _ => s.setEntry line base
    | none => s.setEntry line base
  s1.pump line (e.waiting.length + 1)

/-! ### Messages on arrival -/

/-- The first message of a kind for a core and line. -/
def State.findMsg (s : State) (test : Msg → Bool) : Option Msg := s.msgs.find? test

/-- A message taken from the network. -/
def State.takeMsg (s : State) (m : Msg) : State := { s with msgs := s.msgs.erase m }

/-- The uncorrectable granules of a line: no cache installs them (R81). -/
def State.badMask (s : State) (line : Nat) : BitVec 8 :=
  (s.badGranules (128 * line) 128).foldl (fun m g => m ||| (1#8 <<< (g % 8))) 0

/-- Groups whose accesses to a line a core's L1 serves, and that hold it in their read set: those of the core, or of its cluster for
the slice core of the line (R61, R118). -/
def State.readersAt (s : State) (core line : Nat) : List Nat :=
  (s.groups.filter (fun e => s.l1Core (s.teamOf e.2).core line == core &&
    (match e.2.epoch with | some ep => ep.reads.contains line | none => false))).map (·.1)

/-- Groups whose buffered store, and no read, needs a line that the core loses: ROLLS rises (R121), at 64 to a LIVELOCK trap at
the checkpoint (R136). -/
def State.loseOwner (s : State) (core line : Nat) : State :=
  let loses (g : Group) : Bool :=
    match g.epoch with
    | some ep => s.l1Core (s.teamOf g).core line == core && ep.stores.any (fun b => b.line == line) && !ep.reads.contains line
    | none => false
  let s1 := { s with groups := s.groups.map (fun (e : Nat × Group) => if loses e.2 then (e.1, { e.2 with outctl := e.2.outctl.count }) else e) }
  (s1.groups.filter (fun (e : Nat × Group) => loses e.2 && e.2.outctl.rolls == 64)).foldl (fun t (e : Nat × Group) => t.rollbackGroup e.1 true) s1

/-! ### Frames of an L1 (R57, R60) -/

/-- The copies that share a set of an L1 with a line, in the order of use: a set has eight ways. -/
def State.l1Ways (s : State) (core line : Nat) : List L1Line :=
  let here := s.l1.filter (fun l => l.core == core)
  if here.length < 8 then here else here.filter (fun l => Config.l1Set l.line % 128 == Config.l1Set line % 128)

/-- Whether a line has a frame in an L1, or there is one for it. -/
def State.l1Fits (s : State) (core line : Nat) : Bool := (s.copyOf core line).isSome || decide ((s.l1Ways core line).length < 8)

/-- A copy gives up its frame: the home is told (R68). -/
def State.evictCopy (s : State) (c : L1Line) : State :=
  (s.dropCopy c.core c.line).send { kind := if c.dirty = 0 then .notice else .writeBack c.dirty, core := c.core, line := c.line }

/-- The groups for which an L1 keeps a line (R60), one group's own pins apart. -/
def State.pins (s : State) (core line mine : Nat) : List Nat := (s.readersAt core line).filter (fun g => g != mine)

/-- A frame made for a miss (R57, R60): in a full set one of the lines not pinned gives way, which one is free; where all are
pinned, and the missing access is the oldest of a group outside outrider mode, the one used least recently, whose
readers roll back as by an invalidation. -/
def State.l1Room (s : State) (core line : Nat) (oldest : Bool) (mine : Nat) : State :=
  if s.l1Fits core line then s
  else
    let ways := s.l1Ways core line
    match ways.filter (fun c => (s.pins core c.line mine).isEmpty), ways.getLast? with
    | [], some c => if oldest then (s.readersAt core c.line).foldl (fun t g => t.rollbackGroup g true) (s.evictCopy c) else s
    | [], none => s
    | l, _ => match l[(Config.word (2 ^ 67 + s.free)).toNat % l.length]? with | some c => s.evictCopy c | none => s

/-- A grant arrives at a core, where it finds a frame (R66). -/
def State.onGrant (s : State) (core line : Nat) (exclusive : Bool) (mask : BitVec 8) : State :=
  let s := s.l1Room core line true (2 ^ 64)
  let old := s.copyOf core line
  let (valid, dirty) := match old with | some c => (c.valid, c.dirty) | none => (0, 0)
  s.setCopy { core := core, line := line, key := s.mem.keyOf (8 * line), exclusive := exclusive, valid := valid ||| (mask &&& ~~~s.badMask line), dirty := dirty }

/-- An invalidation arrives at a core (R67, R118, R121): the copy dropped, dirty granules written back, the readers
rolled back, the acknowledgement sent. -/
def State.onInvalidate (s : State) (core line : Nat) : State :=
  let s1 := match s.copyOf core line with
    | some c => (s.dropCopy core line).takeWriteBack line c.dirty
    | none => s
  let s2 := s1.loseOwner core line
  let s3 := (s2.readersAt core line).foldl (fun t g => t.rollbackGroup g true) s2
  s3.send { kind := .ack, core := core, line := line }

/-- A recall arrives at the owner (R66): dirty granules written back, and the copy kept read-only or dropped. -/
def State.onRecall (s : State) (core line : Nat) (drop : Bool) : State :=
  let mask := match s.copyOf core line with | some c => c.dirty | none => 0
  let s1 := if drop then s.dropCopy core line
    else match s.copyOf core line with
      | some c => s.setCopy { c with exclusive := false, dirty := 0 }
      | none => s
  let s2 := if drop then (s1.readersAt core line).foldl (fun t g => t.rollbackGroup g true) s1 else s1
  let s3 := s2.loseOwner core line
  s3.send { kind := .writeBack mask, core := core, line := line }

/-- An acknowledgement arrives at the home (R67). -/
def State.onAck (s : State) (line : Nat) : State :=
  let e := s.entry line
  match e.state with
  | .inv =>
    let s1 := s.setEntry line { e with count := e.count + 1 }
    if e.count + 1 = e.expected then s1.finishHome line else s1
  | .recall =>
    let s1 := s.setEntry line { e with count := e.count + 1 }
    if e.count + 1 = e.expected then s1.finishHome line else s1
  | _ => s

/-- A sharer leaves the record (R68). -/
def DirEntry.without (e : DirEntry) (core : Nat) : DirEntry :=
  if e.cv then e else { e with sharers := e.sharers.filter (fun c => c != core) }

/-- An eviction notice arrives at the home (R68). -/
def State.onNotice (s : State) (core line : Nat) : State :=
  let e := s.entry line
  let e1 := e.without core
  match e.state with
  | .s => if !e1.cv && e1.sharers.isEmpty then (s.setEntry line { e1 with state := .i }).giveHalves line else s.setEntry line e1
  | .x => if e1.sharers.isEmpty then (s.setEntry line { e1 with state := .i }).giveHalves line else s.setEntry line e1
  | .inv => s.setEntry line e1
  | _ => s

/-- A write-back arrives at the home (R68): the granules into the MSC; it answers a recall of its sender. -/
def State.onWriteBack (s : State) (core line : Nat) (mask : BitVec 8) : State :=
  let s1 := s.takeWriteBack line mask
  let e := s1.entry line
  match e.state with
  | .recall => if (e.sharers.head?) = some core then s1.finishHome line else s1
  | _ => s1.onNotice core line

/-- A message delivered. -/
def State.deliver (s : State) (m : Msg) : State :=
  let t := s.takeMsg m
  match m.kind with
  | .read => t.request m.line { core := some m.core, own := false }
  | .own => t.request m.line { core := some m.core, own := true }
  | .grantS => t.onGrant m.core m.line false m.mask
  | .grantX => t.onGrant m.core m.line true m.mask
  | .invalidate => t.onInvalidate m.core m.line
  | .recallS => t.onRecall m.core m.line false
  | .recallX => t.onRecall m.core m.line true
  | .ack => t.onAck m.line
  | .notice => t.onNotice m.core m.line
  | .writeBack mask => t.onWriteBack m.core m.line mask

/-- Whether a message is an invalidation or a recall. -/
def Msg.isCall (m : Msg) : Bool := m.kind == .invalidate || m.kind == .recallS || m.kind == .recallX

/-- Whether a core holds back invalidations and recalls of a line: a group of it that holds the priority token has the
line in its read set or store buffer, and the message has not waited 2,048 cycles of the core's own clock (R137, R463). -/
def State.heldBack (s : State) (m : Msg) : Bool :=
  s.groups.any (fun e => e.2.outctl.token && s.l1Core (s.teamOf e.2).core m.line == m.core &&
    (match e.2.epoch with
     | some ep => ep.reads.contains m.line || ep.stores.any (fun b => b.line == m.line)
     | none => false)) &&
  (match m.heldSince with | some t => decide (s.ownClock m.core < t + 2048) | none => true)

/-- Whether a message cannot act yet because the dirty granules it brings home find no frame in the MSC (R98), or wait for a governor's
next microsecond (R431). -/
def State.mscWaits (s : State) (m : Msg) : Bool :=
  (match m.kind with
   | .writeBack mask => mask != 0
   | _ => m.isCall && (match s.copyOf m.core m.line with | some c => c.dirty != 0 | none => false)) &&
    (s.mscStalls m.line || s.governed m.line)

/-- A message held back from now on. -/
def State.holdBack (s : State) (m : Msg) : State :=
  match m.heldSince with
  | some _ => s
  | none => { s with msgs := s.msgs.map (fun x => if x = m then { x with heldSince := some (s.ownClock m.core) } else x) }

/-- The messages of one line delivered in order, those held back for a token's holder apart, at most `fuel`. -/
def State.deliverLine (s : State) (line fuel : Nat) : State :=
  match fuel with
  | 0 => s
  | k + 1 =>
    match s.findMsg (fun m => m.line == line && !(m.isCall && s.heldBack m) && !s.mscWaits m) with
    | none => { s with msgs := s.msgs.map (fun m =>
        if m.line = line ∧ m.isCall ∧ m.heldSince.isNone ∧ s.heldBack m then { m with heldSince := some (s.ownClock m.core) } else m) }
    | some m => (s.deliver m).deliverLine line k

/-- The most messages one transaction of a line sends. -/
def lineFuel : Nat := 2000

/-! ### Obtaining a line -/

/-- Whether an access finds what it needs held: the line in S or X for a read, in X for a write (R64), and its granules. -/
def State.holds (s : State) (core line : Nat) (own : Bool) (mask : BitVec 8) : Bool :=
  match s.copyOf (s.l1Core core line) line with
  | some c => (!own || c.exclusive) && mask &&& ~~~c.valid &&& ~~~s.badMask line == 0#8
  | none => false

/-- The home's directory makes room for a line's entry: the entry that gives way is recalled (R69), and of a HOST line the halves
return to the host (R91). -/
def State.dirRoom (s : State) (line die : Nat) : State :=
  if s.dirFits line die then s
  else
    match s.dirVictim line die with
    | none => s
    | some v =>
      let t := (s.serve v { core := none, own := true }).deliverLine v lineFuel
      if (t.entry v).state = .i then t.giveHalves v else t

/-- A request put to the home of a line, or one that waits there taken up as far as it can be, and the messages that follow. -/
def State.ask (s : State) (line : Nat) (r : HomeReq) : State :=
  let e := s.entry line
  let same (x : HomeReq) : Bool := x.core == r.core && x.own == r.own
  if e.current.any same || e.waiting.any same then (s.pump line (e.waiting.length + 1)).deliverLine line lineFuel
  else ((s.deliverLine line lineFuel).request line r).deliverLine line lineFuel

/-- The granules that a line held in X still lacks filled from the MSC (R66, R99). -/
def State.fillOwned (s : State) (q line : Nat) (mask : BitVec 8) : State :=
  match s.copyOf q line with
  | some c =>
    let missing := mask &&& ~~~c.valid
    if c.exclusive ∧ missing ≠ 0 ∧ (s.entry line).state = .x then
      ((s.mscRead line missing).countGrains line missing (some q)).setCopy { c with valid := c.valid ||| (mask &&& ~~~s.badMask line) }
    else s
  | none => s

/-- The granules that a request of a core names: those it lacks; none where it only asks for ownership of a copy (R66). -/
def State.askMask (s : State) (q line : Nat) (own : Bool) (mask : BitVec 8) : BitVec 8 :=
  match s.copyOf q line with
  | some c => if own then 0 else mask &&& ~~~c.valid
  | none => mask

/-- Whether a core's L1 holds a line in X. -/
def State.ownsCopy (s : State) (q line : Nat) : Bool := match s.copyOf q line with | some c => c.exclusive | none => false

/-- A core obtains granules of a line for an access, as one transaction with the home; nothing but the request where the
home cannot grant yet, nothing at all where there is no frame (R60): `oldest` says whether the access may take a pinned one, `mine`
whose pins count for nothing. A line held in X is filled without a request. -/
def State.acquire (s : State) (core line : Nat) (own : Bool) (mask : BitVec 8) (oldest : Bool := true) (mine : Nat := 2 ^ 64) : State :=
  let q := s.l1Core core line
  if s.holds core line own mask then s.useCopy q line
  else
    let s1 := s.l1Room q line oldest mine
    if s1.l1Fits q line then
      let s2 := if s1.ownsCopy q line then s1
        else (s1.dirRoom line (q / 256)).ask line { core := some q, own := own, mask := s1.askMask q line own mask }
      s2.fillOwned q line mask
    else s1

/-- A party outside the cores takes a line (a memory-side access, an engine, a peer, a host): an X owner is recalled, and
for a write every copy is invalidated (R67, R82, R92). -/
def State.takeLine (s : State) (line : Nat) (own : Bool) : State := s.ask line { core := none, own := own }

/-- A line held under another key, in an L1 or in the MSC, is taken from every core, written back and dropped before it is
fetched under this one (R89). -/
def State.changeKey (s : State) (line serial : Nat) : State :=
  if s.l1.any (fun l => l.line == line && l.key != serial) || s.mscOther line serial then
    let t := s.takeLine line true
    if (t.entry line).state = .i then t.mscDrop line else t
  else s

/-- A core's copy of a line is held under a key from now on. -/
def State.keyCopy (s : State) (core line serial : Nat) : State :=
  { s with l1 := s.l1.map (fun (l : L1Line) => if l.core = s.l1Core core line ∧ l.line = line then { l with key := serial } else l) }

/-- A core obtains a line under a key. -/
def State.obtain (s : State) (core line serial : Nat) (own : Bool) (mask : BitVec 8) (oldest : Bool := true) (mine : Nat := 2 ^ 64) : State :=
  (((s.changeKey line serial).acquire core line own mask oldest mine).keyCopy core line serial).mscKey line serial

/-- The device's own copies of a line recalled, or all of them invalidated, whatever the host holds (R91, R93). -/
def State.snoop (s : State) (line : Nat) (own : Bool) : State :=
  let s1 := s.deliverLine line lineFuel
  match (s1.entry line).state with
  | .inv => s1
  | .recall => s1
  | _ => (s1.serve line { core := none, own := own }).deliverLine line lineFuel

/-- Granules marked valid and dirty in the copies a core writes (R57). -/
def State.dirtyCopies (s : State) (core : Nat) (cells : List (Nat × Byte)) : State :=
  { s with l1 := s.l1.map (fun l =>
      if l.core = s.l1Core core l.line then
        let w : BitVec 8 := cells.foldl (fun m c => if lineOf c.1 = l.line then m ||| (1#8 <<< (c.1 % 128 / 16)) else m) 0
        { l with valid := l.valid ||| w, dirty := l.dirty ||| w }
      else l) }

/-- The lines written by cells that a core's L1 holds no more, its frame taken since (R57): their granules written back. -/
def State.backAbsent (s : State) (core : Nat) (cells : List (Nat × Byte)) : State :=
  (linesOf cells).foldl (fun t l =>
    if (t.copyOf (t.l1Core core l) l).isSome then t
    else t.takeWriteBack l ((granulesOf cells).foldl (fun m g => if g / 8 = l then m ||| (1#8 <<< (g % 8)) else m) 0)) s

/-- A cached store performs in a core's L1 (R110): the bytes, the dirty granules, the other readers' rollbacks, the
monitors. The dirty map follows with the write-back (R105). -/
def State.storeCached (s : State) (by_ : Option Nat) (core serial : Nat) (cells : List (Nat × Byte)) : State :=
  if cells.isEmpty then s
  else
    let s1 := { s with mem := s.mem.write serial cells }
    let s2 := (s1.dirtyCopies core cells).backAbsent core cells
    (s2.conflict by_ (linesOf cells)).fire (linesOf cells)

/-! ### The events -/

/-- A core's request for a whole line arrives at its home (R66): what it asks nothing of, it holds. -/
def State.coreAsks (s : State) (core line : Nat) (own : Bool) : State :=
  let q := s.l1Core core line
  let coming (m : Msg) : Bool := m.core == q && m.line == line
  if s.holds core line own 0xFF || s.msgs.any coming then s
  else if s.ownsCopy q line then s.fillOwned q line 0xFF
  else
    let s1 := s.l1Room q line false (2 ^ 64)
    if s1.l1Fits q line then
      (s1.dirRoom line (q / 256)).request line { core := some q, own := own, mask := s1.askMask q line own 0xFF }
    else s1

/-- READ: the home handles a core's read request (R66). A core that holds the line asks nothing. -/
def execRead (core line : Nat) (s : State) : Out := .next (s.coreAsks core line false)

/-- OWN: the home handles a core's request for write ownership (R66). -/
def execOwn (core line : Nat) (s : State) : Out := .next (s.coreAsks core line true)

/-- The virtual network of a message (R65). -/
def MsgKind.net (k : MsgKind) : Nat :=
  match k with
  | .read | .own => 0
  | .grantS | .grantX | .invalidate | .recallS | .recallX => 1
  | .ack | .notice | .writeBack _ => 2

/-- The home of a line: the MSC slice of its channel, or the host directory of an I/O die (R64). -/
def homeOf (core line : Nat) : Nat := if isHostLine line then 384 + core / 256 else channelOf (128 * line)

/-- The message next in order between a core and the home of a line on a network, those apart that wait (R65, R98, R137). -/
def State.nextMsg (s : State) (core line net : Nat) : Option Msg :=
  s.msgs.find? (fun m => m.core == core && homeOf core m.line == homeOf core line && m.kind.net == net &&
    !(m.heldSince.isSome && s.heldBack m) && !s.mscWaits m)

/-- The message next in order delivered, where it is of the line and of a kind; otherwise nothing takes place. An invalidation or a
recall may be held back for a token's holder (R137). -/
def State.arrive (s : State) (core line net : Nat) (kind : MsgKind → Bool) : State :=
  match s.nextMsg core line net with
  | some m =>
    if m.line = line ∧ kind m.kind then (if m.isCall && s.heldBack m then s.holdBack m else s.deliver m) else s
  | none => s

/-- GRANT: a grant arrives at a core (R65, R66). -/
def execGrant (core line : Nat) (s : State) : Out := .next (s.arrive core line 1 (fun k => k == .grantS || k == .grantX))

/-- INVALIDATION: an invalidation arrives at a core (R67), or is held back for a token's holder (R137). -/
def execInvalidation (core line : Nat) (s : State) : Out := .next (s.arrive core line 1 (fun k => k == .invalidate))

/-- RECALL: a recall arrives at the owner (R66), or is held back for a token's holder (R137). -/
def execRecall (core line : Nat) (s : State) : Out := .next (s.arrive core line 1 (fun k => k == .recallS || k == .recallX))

/-- ACKNOWLEDGEMENT: an acknowledgement arrives at the home (R67). -/
def execAcknowledgement (core line : Nat) (s : State) : Out := .next (s.arrive core line 2 (fun k => k == .ack))

/-- EVICTION_NOTICE: a notice on its way arrives; otherwise the core drops a clean copy and its notice arrives (R68). A
pinned line is not dropped (R60). -/
def execEvictionNotice (core line : Nat) (s : State) : Out :=
  let s1 := match s.findMsg (fun m => m.core == core && m.line == line && m.kind == .notice), s.copyOf core line with
    | none, some c => if c.dirty = 0 ∧ (s.readersAt core line).isEmpty then s.evictCopy c else s
    | _, _ => s
  .next (s1.arrive core line 2 (fun k => k == .notice))

/-- WRITE_BACK: a write-back on its way arrives; otherwise the core drops a dirty copy with the mask of its dirty
granules and the write-back arrives (R68). -/
def execWriteBack (core line : Nat) (mask : BitVec 8) (s : State) : Out :=
  let s1 := match s.findMsg (fun m => m.core == core && m.line == line && m.kind == .writeBack mask), s.copyOf core line with
    | none, some c => if c.dirty = mask ∧ mask ≠ 0 ∧ (s.readersAt core line).isEmpty then s.evictCopy c else s
    | _, _ => s
  .next (s1.arrive core line 2 (fun k => k == .writeBack mask))

/-- TOKEN_HOLD_EXPIRY: the messages a cluster's cores have held back for 2,048 cycles of their own clocks act (R137, R463). -/
def execTokenHoldExpiry (cluster : Nat) (s : State) : Out :=
  let due := s.msgs.filter (fun m => clusterOf m.core == cluster &&
    (match m.heldSince with | some t => decide (t + 2048 ≤ s.ownClock m.core) | none => false) && !s.mscWaits m)
  .next (due.foldl (fun t m => t.deliver m) s)

end Sys2Proof.Machine
end

