-- ==== Sys2Proof/Machine/Float.lean ====
section
/-! DEFINITION. Number formats and exact arithmetic (R184 to R193, R196 to R198, R204, R205): values as exact dyadic
numbers, rounded once. -/

namespace Sys2Proof.Machine

/-- What a format has beyond finite values: infinities and NaN, E4M3's single NaN, or neither. -/
inductive FmtKind where
  | ieee | e4m3 | finite
  deriving DecidableEq, Repr

/-- A floating-point format (R184). -/
structure Fmt where
  ebits : Nat
  mbits : Nat
  bias : Nat
  kind : FmtKind
  deriving DecidableEq, Repr

def Fmt.fp32 : Fmt := ⟨8, 23, 127, .ieee⟩
def Fmt.bf16 : Fmt := ⟨8, 7, 127, .ieee⟩
def Fmt.fp16 : Fmt := ⟨5, 10, 15, .ieee⟩
def Fmt.e4m3 : Fmt := ⟨4, 3, 7, .e4m3⟩
def Fmt.e5m2 : Fmt := ⟨5, 2, 15, .ieee⟩
def Fmt.e2m3 : Fmt := ⟨2, 3, 1, .finite⟩
def Fmt.e3m2 : Fmt := ⟨3, 2, 3, .finite⟩
def Fmt.e2m1 : Fmt := ⟨2, 1, 1, .finite⟩

/-- A value: NaN, an infinity, or (−1)^neg × m × 2^e. -/
inductive FVal where
  | nan
  | inf (neg : Bool)
  | num (neg : Bool) (m : Nat) (e : Int)
  deriving DecidableEq, Repr

/-- The sign bit of a format at its place. -/
def Fmt.sign (f : Fmt) (neg : Bool) : Nat := if neg then 2 ^ (f.ebits + f.mbits) else 0

/-- The largest finite magnitude's encoding. -/
def Fmt.maxCode (f : Fmt) : Nat :=
  match f.kind with
  | .ieee => (2 ^ f.ebits - 1) * 2 ^ f.mbits - 1
  | .e4m3 => 2 ^ (f.ebits + f.mbits) - 2
  | .finite => 2 ^ (f.ebits + f.mbits) - 1

/-- The canonical NaN (R187); FP6 and FP4 have none, and +0 stands there (R197). -/
def Fmt.nanCode (f : Fmt) : Nat :=
  match f.kind with
  | .ieee => (2 ^ f.ebits - 1) * 2 ^ f.mbits + 2 ^ (f.mbits - 1)
  | .e4m3 => 2 ^ (f.ebits + f.mbits) - 1
  | .finite => 0

/-- The least exponent of a normal value. -/
def Fmt.emin (f : Fmt) : Int := 1 - (f.bias : Int)

/-- The value of an encoding (R184). -/
def Fmt.decode (f : Fmt) (w : Nat) : FVal :=
  let neg := w / 2 ^ (f.ebits + f.mbits) % 2 = 1
  let e := w / 2 ^ f.mbits % 2 ^ f.ebits
  let m := w % 2 ^ f.mbits
  let special := e = 2 ^ f.ebits - 1
  match f.kind with
  | .ieee =>
    if special then (if m = 0 then .inf neg else .nan)
    else if e = 0 then .num neg m (f.emin - f.mbits)
    else .num neg (m + 2 ^ f.mbits) ((e : Int) - f.bias - f.mbits)
  | .e4m3 =>
    if special ∧ m = 2 ^ f.mbits - 1 then .nan
    else if e = 0 then .num neg m (f.emin - f.mbits)
    else .num neg (m + 2 ^ f.mbits) ((e : Int) - f.bias - f.mbits)
  | .finite =>
    if e = 0 then .num neg m (f.emin - f.mbits)
    else .num neg (m + 2 ^ f.mbits) ((e : Int) - f.bias - f.mbits)

/-- Whether an encoding is subnormal. -/
def Fmt.isSubnormal (f : Fmt) (w : Nat) : Bool := w / 2 ^ f.mbits % 2 ^ f.ebits = 0 && w % 2 ^ f.mbits != 0

/-- An input under FTZ (R193): a subnormal reads as zero of its sign. -/
def Fmt.read (f : Fmt) (ftz : Bool) (w : Nat) : FVal :=
  if ftz && f.isSubnormal w then .num (w / 2 ^ (f.ebits + f.mbits) % 2 = 1) 0 0 else f.decode w

/-- 2^e for a non-negative e. -/
def pow2 (e : Int) : Nat := 2 ^ e.toNat

/-- The exponent of the leading bit of m × 2^e. -/
def topExp (m : Nat) (e : Int) : Int := (Nat.log2 m : Int) + e

/-- The choice between k and k + 1 of R191, for a magnitude that lies rem / 2^sh of the way from k to k + 1, and a
little further when sticky. -/
def roundsUp (mode : Mode) (neg : Bool) (k rem sh : Nat) (sticky : Bool) : Bool :=
  if rem = 0 ∧ sticky = false then false
  else
    match mode with
    | .rne => 2 ^ sh < 2 * rem || (2 ^ sh = 2 * rem && (sticky || k % 2 = 1))
    | .rz => false
    | .ru => !neg
    | .rd => neg
    | .sr rnd => 2 ^ 16 ≤ rem * 2 ^ 16 / 2 ^ sh + rnd

/-- A magnitude m × 2^e (a little more when sticky) on the grid of step 2^q: how many steps, and whether inexact. -/
def toGrid (mode : Mode) (neg : Bool) (m : Nat) (e q : Int) (sticky : Bool) : Nat × Bool × Bool :=
  if q ≤ e then
    let k := m * pow2 (e - q)
    let up := roundsUp mode neg k 0 0 sticky
    (if up then k + 1 else k, sticky, up)
  else
    let sh := (q - e).toNat
    let k := m / 2 ^ sh
    let rem := m % 2 ^ sh
    let up := roundsUp mode neg k rem sh sticky
    (if up then k + 1 else k, rem != 0 || sticky, up)

/-- The step of the format's values around m × 2^e: its exponent range is unbounded above, its subnormals kept (R191,
R193). -/
def Fmt.quantum (f : Fmt) (m : Nat) (e : Int) : Int := max (topExp m e - f.mbits) (f.emin - f.mbits)

/-- The encoding of k steps of 2^q, k ≠ 0, unsigned; beyond the largest finite value it is larger than maxCode. -/
def Fmt.encode (f : Fmt) (k : Nat) (q : Int) : Nat :=
  let t := topExp k q
  if t < f.emin then k
  else ((t + f.bias).toNat) * 2 ^ f.mbits + (k * 2 ^ f.mbits / 2 ^ Nat.log2 k - 2 ^ f.mbits)

/-- An overflow's result (R192). -/
def Fmt.overflow (f : Fmt) (mode : Mode) (sat neg up : Bool) : Nat :=
  let big := f.sign neg + f.maxCode
  let inf :=
    match f.kind with
    | .ieee => f.sign neg + f.maxCode + 1
    | .e4m3 => f.nanCode
    | .finite => big
  if sat then big
  else
    match mode with
    | .rne => inf
    | .rz => big
    | .ru => if neg then big else inf
    | .rd => if neg then inf else big
    | .sr _ => if up then inf else big

/-- ROUND of an exact (or sticky) magnitude with its sign, and the conditions raised (R191 to R193). m = 0 without
sticky is a zero of that sign. -/
def Fmt.round (f : Fmt) (mode : Mode) (ftz sat neg : Bool) (m : Nat) (e : Int) (sticky : Bool := false) : Nat × Nat :=
  if m = 0 ∧ sticky = false then (f.sign neg, 0)
  else
    let tiny := decide (topExp m e < f.emin)
    let q := f.quantum m e
    let (k, inexact, up) := toGrid mode neg m e q sticky
    if tiny && ftz then (f.sign neg, fUF + fNX)
    else
      let code := if k = 0 then 0 else f.encode k q
      if f.maxCode < code then (f.overflow mode sat neg up, fOF + fNX)
      else (f.sign neg + code, (if inexact then fNX else 0) + (if tiny && inexact then fUF else 0))

/-- A value written in a format: NaN canonical, infinities as the format has them. -/
def Fmt.write (f : Fmt) (mode : Mode) (ftz : Bool) (x : FVal) : Nat × Nat :=
  match x with
  | .nan => (f.nanCode, 0)
  | .inf neg => (f.sign neg + f.maxCode + 1, 0)
  | .num neg m e => f.round mode ftz false neg m e

/-! ### Exact operations -/

/-- A signed numerator on exponent e. -/
def scaled (neg : Bool) (m : Nat) (e e0 : Int) : Int := (if neg then -1 else 1) * (m * pow2 (e - e0) : Nat)

/-- The value of a signed numerator, zero with the given sign. -/
def ofScaled (n : Int) (e : Int) (zeroNeg : Bool) : FVal :=
  if n = 0 then .num zeroNeg 0 0 else .num (decide (n < 0)) n.natAbs e

/-- The sign of an exact zero sum of two addends (R191). -/
def zeroSign (mode : Mode) (m1 : Nat) (neg1 : Bool) (m2 : Nat) (neg2 : Bool) : Bool :=
  if m1 = 0 ∧ m2 = 0 ∧ neg1 = neg2 then neg1 else (match mode with | .rd => true | _ => false)

/-- a + b exactly, with the conditions of R196. -/
def FVal.add (mode : Mode) (a b : FVal) : FVal × Nat :=
  match a, b with
  | .nan, _ => (.nan, 0)
  | _, .nan => (.nan, 0)
  | .inf x, .inf y => if x = y then (.inf x, 0) else (.nan, fNV)
  | .inf x, _ => (.inf x, 0)
  | _, .inf y => (.inf y, 0)
  | .num n1 m1 e1, .num n2 m2 e2 =>
    let e := min e1 e2
    (ofScaled (scaled n1 m1 e1 e + scaled n2 m2 e2 e) e (zeroSign mode m1 n1 m2 n2), 0)

/-- −a. -/
def FVal.neg (a : FVal) : FVal :=
  match a with
  | .nan => .nan
  | .inf x => .inf (!x)
  | .num x m e => .num (!x) m e

/-- a × b exactly, with the conditions of R196. -/
def FVal.mul (a b : FVal) : FVal × Nat :=
  match a, b with
  | .nan, _ => (.nan, 0)
  | _, .nan => (.nan, 0)
  | .inf x, .inf y => (.inf (x != y), 0)
  | .inf x, .num y m _ => if m = 0 then (.nan, fNV) else (.inf (x != y), 0)
  | .num x m _, .inf y => if m = 0 then (.nan, fNV) else (.inf (x != y), 0)
  | .num x m1 e1, .num y m2 e2 => (.num (x != y) (m1 * m2) (e1 + e2), 0)

/-- Whether a value is NaN. -/
def FVal.isNan (a : FVal) : Bool := match a with | .nan => true | _ => false

/-- a < b for values that are not NaN. -/
def FVal.lt (a b : FVal) : Bool :=
  match a, b with
  | .nan, _ => false
  | _, .nan => false
  | .inf x, .inf y => x && !y
  | .inf x, _ => x
  | _, .inf y => !y
  | .num n1 m1 e1, .num n2 m2 e2 =>
    let e := min e1 e2
    decide (scaled n1 m1 e1 e < scaled n2 m2 e2 e)

/-- a = b as numbers, +0 = −0; false with a NaN. -/
def FVal.eq (a b : FVal) : Bool := !a.isNan && !b.isNan && !a.lt b && !b.lt a

/-- The sign of a value. -/
def FVal.isNeg (a : FVal) : Bool :=
  match a with
  | .nan => false
  | .inf x => x
  | .num x _ _ => x

/-- The order FMIN and FMAX use: −0 below +0 (R196). -/
def FVal.below (a b : FVal) : Bool := a.lt b || (a.eq b && a.isNeg && !b.isNeg)

/-- Exact sum of products of one sign of infinity, for dots and matrix blocks: none when invalid. -/
def sumExact (mode : Mode) (l : List FVal) (start : FVal) : FVal × Nat :=
  l.foldl (fun acc x => let r := FVal.add mode acc.1 x; (r.1, acc.2 ||| r.2)) (start, 0)

/-! ### Operations of one format, on encodings -/

/-- a + b (R245, R248). -/
def Fmt.addW (f : Fmt) (mode : Mode) (ftz : Bool) (a b : Nat) : Nat × Nat :=
  let r := FVal.add mode (f.read ftz a) (f.read ftz b)
  let w := f.write mode ftz r.1
  (w.1, r.2 ||| w.2)

/-- a − b: the sum with the second operand's sign inverted (R191). -/
def Fmt.subW (f : Fmt) (mode : Mode) (ftz : Bool) (a b : Nat) : Nat × Nat :=
  let r := FVal.add mode (f.read ftz a) (f.read ftz b).neg
  let w := f.write mode ftz r.1
  (w.1, r.2 ||| w.2)

/-- a × b. -/
def Fmt.mulW (f : Fmt) (mode : Mode) (ftz : Bool) (a b : Nat) : Nat × Nat :=
  let r := FVal.mul (f.read ftz a) (f.read ftz b)
  let w := f.write mode ftz r.1
  (w.1, r.2 ||| w.2)

/-- a × b + c, rounded once (R204). -/
def Fmt.fmaW (f : Fmt) (mode : Mode) (ftz : Bool) (a b c : Nat) : Nat × Nat :=
  let p := FVal.mul (f.read ftz a) (f.read ftz b)
  let r := FVal.add mode p.1 (f.read ftz c)
  let w := f.write mode ftz r.1
  (w.1, p.2 ||| r.2 ||| w.2)

/-- An operand as FMIN and FMAX return it: flushed under FTZ, bits otherwise kept. -/
def Fmt.flush (f : Fmt) (ftz : Bool) (a : Nat) : Nat :=
  if ftz && f.isSubnormal a then f.sign (a / 2 ^ (f.ebits + f.mbits) % 2 = 1) else a

/-- The minimum or maximum of R196. -/
def Fmt.minmaxW (f : Fmt) (ftz isMax : Bool) (a b : Nat) : Nat :=
  let x := f.read ftz a
  let y := f.read ftz b
  if x.isNan && y.isNan then f.nanCode
  else if x.isNan then f.flush ftz b
  else if y.isNan then f.flush ftz a
  else if (if isMax then x.below y else y.below x) then f.flush ftz b
  else f.flush ftz a

/-- FCMP's condition (R246) with its conditions. -/
def fcmpCond (code : Nat) (x y : FVal) : Bool × Nat :=
  let un := x.isNan || y.isNan
  match code with
  | 0 => (x.eq y, 0)
  | 1 => (!x.eq y, 0)
  | 2 => (x.lt y, if un then fNV else 0)
  | 3 => (!un && !y.lt x, if un then fNV else 0)
  | 4 => (y.lt x, if un then fNV else 0)
  | 5 => (!un && !x.lt y, if un then fNV else 0)
  | 6 => (un, 0)
  | _ => (!un, 0)

/-! ### Conversions (R197, R198, R217) -/

/-- A floating-point conversion of R197, saturating or not. -/
def convert (dst : Fmt) (mode : Mode) (ftz sat : Bool) (x : FVal) : Nat × Nat :=
  match x with
  | .nan => (dst.nanCode, match dst.kind with | .finite => fNV | _ => 0)
  | .inf neg =>
    match dst.kind with
    | .ieee => if sat then (dst.sign neg + dst.maxCode, fNV) else (dst.sign neg + dst.maxCode + 1, 0)
    | .e4m3 => if sat then (dst.sign neg + dst.maxCode, fNV) else (dst.nanCode, fNV)
    | .finite => (dst.sign neg + dst.maxCode, fNV)
  | .num neg m e => dst.round mode ftz (sat || dst.kind = .finite) neg m e

/-- The rounded integer of a value, and whether it differs from it. -/
def roundInt (mode : Mode) (neg : Bool) (m : Nat) (e : Int) : Int × Bool :=
  let (k, inexact, _) := toGrid mode neg m e 0 false
  ((if neg then -1 else 1) * (k : Int), inexact)

/-- A conversion to an integer range (R198), modulo 2^32. -/
def toInt (mode : Mode) (lo hi : Int) (x : FVal) : Word × Nat :=
  match x with
  | .nan => (0, fNV)
  | .inf neg => (BitVec.ofInt 32 (if neg then lo else hi), fNV)
  | .num neg m e =>
    let (k, inexact) := roundInt mode neg m e
    if k < lo then (BitVec.ofInt 32 lo, fNV)
    else if hi < k then (BitVec.ofInt 32 hi, fNV)
    else (BitVec.ofInt 32 k, if inexact then fNX else 0)

/-- An integer saturated to a range. -/
def clampInt (lo hi x : Int) : Int := max lo (min hi x)

/-- A conversion by its code (R217, R250) under a mode and FTZ. -/
def cvt (code : Nat) (mode : Mode) (ftz : Bool) (a : Word) : Word × Nat :=
  let w := a.toNat
  let x := Fmt.fp32.read ftz w
  let out (r : Nat × Nat) : Word × Nat := (BitVec.ofNat 32 r.1, r.2)
  let int (n : Int) : FVal := .num (decide (n < 0)) n.natAbs 0
  match code with
  | 0 => out (convert .fp16 mode ftz false x)
  | 1 => out (convert .bf16 mode ftz false x)
  | 2 => out (convert .e4m3 mode false false x)
  | 3 => out (convert .e4m3 mode false true x)
  | 4 => out (convert .e5m2 mode false false x)
  | 5 => out (convert .e5m2 mode false true x)
  | 6 => out (convert .e2m3 mode false true x)
  | 7 => out (convert .e3m2 mode false true x)
  | 8 => out (convert .e2m1 mode false true x)
  | 9 => out (convert .fp32 mode ftz false (Fmt.fp16.read ftz (w % 2 ^ 16)))
  | 10 => out (convert .fp32 mode ftz false (Fmt.bf16.read ftz (w % 2 ^ 16)))
  | 11 => out (convert .fp32 mode ftz false (Fmt.e4m3.decode (w % 2 ^ 8)))
  | 12 => out (convert .fp32 mode ftz false (Fmt.e5m2.decode (w % 2 ^ 8)))
  | 13 => out (convert .fp32 mode ftz false (Fmt.e2m3.decode (w % 2 ^ 6)))
  | 14 => out (convert .fp32 mode ftz false (Fmt.e3m2.decode (w % 2 ^ 6)))
  | 15 => out (convert .fp32 mode ftz false (Fmt.e2m1.decode (w % 2 ^ 4)))
  | 16 => toInt mode (-2 ^ 31) (2 ^ 31 - 1) x
  | 17 => toInt mode 0 (2 ^ 32 - 1) x
  | 18 => out (convert .fp32 mode ftz false (int a.toInt))
  | 19 => out (convert .fp32 mode ftz false (int a.toNat))
  | 20 => toInt mode (-2 ^ 15) (2 ^ 15 - 1) x
  | 21 => toInt mode (-2 ^ 7) (2 ^ 7 - 1) x
  | 22 => (BitVec.ofInt 32 (clampInt (-2 ^ 15) (2 ^ 15 - 1) a.toInt), 0)
  | 23 => (BitVec.ofInt 32 (clampInt (-2 ^ 7) (2 ^ 7 - 1) a.toInt), 0)
  | 24 => (BitVec.ofInt 32 (clampInt 0 (2 ^ 8 - 1) a.toInt), 0)
  | 25 => out (convert .bf16 mode ftz false x)
  | _ => out (convert .fp16 mode ftz false (Fmt.bf16.read ftz (w % 2 ^ 16)))

/-! ### MX blocks (R185, R188 to R190) -/

/-- The element formats of a block. -/
inductive Elem where
  | fmt (f : Fmt)
  | int8
  deriving DecidableEq, Repr

/-- Element emax (R188). -/
def Elem.emax (e : Elem) : Int :=
  match e with
  | .int8 => 0
  | .fmt f => if f = .e4m3 then 8 else if f = .e5m2 then 15 else if f = .e3m2 then 4 else 2

/-- An element's value under scale code x (R188, R189). -/
def Elem.value (el : Elem) (x code : Nat) : FVal :=
  if x = 255 then .nan
  else
    let k := (x : Int) - 127
    match el with
    | .int8 =>
      let n := (BitVec.ofNat 8 code).toInt
      .num (decide (n < 0)) n.natAbs (k - 6)
    | .fmt f =>
      match f.decode code with
      | .num neg m e => .num neg m (e + k)
      | v => v

/-- QUANT_MX (R190): the scale and the element codes. -/
def quantMx (xs : List FVal) (el : Elem) (mode : Nat → Mode) : Nat × List Nat :=
  if xs.any (fun x => match x with | .num _ _ _ => false | _ => true) then (255, xs.map (fun _ => 0))
  else
    let tops := xs.filterMap (fun x => match x with | .num _ m e => if m = 0 then none else some (topExp m e) | _ => none)
    let xe : Int :=
      match tops with
      | [] => 0
      | t :: r => r.foldl max t - el.emax
    let xe := max (-127) (min 127 xe)
    let q (i : Nat) (x : FVal) : Nat :=
      match x with
      | .num neg m e =>
        match el with
        | .int8 =>
          let n := (roundInt (mode i) neg m (e + 6 - xe)).1
          (BitVec.ofInt 8 (clampInt (-127) 127 n)).toNat
        | .fmt f => (f.round (mode i) false true neg m (e - xe)).1
      | _ => 0
    ((xe + 127).toNat, xs.mapIdx q)

end Sys2Proof.Machine
end

