-- ==== Sys2Proof/Machine/Peer.lean ====
section
/-! DEFINITION. The VDN table (R412), a function's own context (R15, R362), the near-memory steps (R82), and an access
that arrives from a peer, or that the device serves internally, at its home (R25, R129, R280, R414). -/

namespace Sys2Proof.Machine

/-! ### Function and process records (R14, R15, R362) -/

/-- Words 0 to 4 of a partition block. -/
def Part.word (p : Part) (n : Nat) : DWord := (p.block[n]?).getD 0

/-- The DPA of a function's record. -/
def State.fnRecord (s : State) (p fn : Nat) : Nat := ((s.part p).word 2).toNat + 64 * fn

/-- The context in which the function itself translates: its stage 2, stage 1 off. S2EN = 0 with FN not 0 is refused: such
a function's stage 2 maps nothing (R15). -/
def State.fnCtx (s : State) (p fn : Nat) : Ctx :=
  let d := s.readDWord 0 (s.fnRecord p fn)
  let on := d.getLsbD 0
  { part := p, fn := fn, s2root := if on then bits d 12 28 * 2 ^ 12 else 2 ^ 52, s2en := on || fn != 0 }

/-- The partition a function belongs to: the one whose function array names it. The PF and functions no partition names
have none. -/
def State.partOf (s : State) (fn : Nat) : Option Nat :=
  (s.parts.find? (fun e => (e.2.word 2).toNat != 0 && bits (s.readDWord 0 (s.fnRecord e.1 fn + 8)) 0 11 == fn)).map (·.1)

/-! ### Lines taken from outside the cores -/

/-- Whether no core holds a line, or for a read none in X, and its home is at rest. -/
def State.copiesGone (s : State) (line : Nat) (own : Bool) : Bool :=
  match (s.entry line).state with
  | .i => true
  | .s => !own
  | _ => false

/-- Whether the home has given a line to a party outside: no owner left, and for a write no copy at all; no flip holds it (R93), the
host has given what is needed (R91, R92), and no governor makes the write wait (R431). -/
def State.lineFree (s : State) (line : Nat) (own : Bool) : Bool :=
  !(own && s.governed line) && !s.flipping line && s.hostReady line own && s.copiesGone line own

/-- The lines of a byte range taken; scratch has none. -/
def State.takeRange (s : State) (loc size : Nat) (own : Bool) : State :=
  if scratchBase ≤ loc ∨ size = 0 then s else (linesFrom loc size).foldl (fun t l => t.takeLine l own) s

/-- Whether every line of a byte range has been given. -/
def State.rangeFree (s : State) (loc size : Nat) (own : Bool) : Bool :=
  if scratchBase ≤ loc ∨ size = 0 then true else (linesFrom loc size).all (fun l => s.lineFree l own)

/-- What an access from outside the cores does below the homes of its lines: through the MSC, which merges a granule written in part
into the one it holds or fetches (R71, R72), under one key (R89); or, memory-side, at the NMU, for which the MSC drops the lines (R82).
Each request of the coalescer's table that it makes is counted (R99), of several accesses that share a request the first alone. -/
def State.below (s : State) (loc size serial : Nat) (ms write : Bool) (requests : Option Nat := none) : State :=
  if scratchBase ≤ loc ∨ size = 0 then s
  else
    (linesFrom loc size).foldl (fun t l =>
      let m := touched l loc size
      let whole := filled l loc size
      let n := requests.getD (coalesce m).length
      let info := t.hotInfo l
      let u := (List.range n).foldl (fun t _ => t.countHot (128 * l) (hotDie (128 * l) none) info.1 info.2) t
      if ms then (u.mscDrop l).chanUse (128 * l)
      else
        let v := if u.mscOther l serial then u.mscDrop l else u
        let w := v.mscRead l (if write then m &&& ~~~whole else grain m)
        (if write then w.mscWrite l m else w).mscKey l serial) s

/-- Whether it can be done now: the pseudo-channel of a memory-side access is awake (R80), its channel in no copy phase, and the MSC
has room (R98). -/
def State.belowReady (s : State) (loc size : Nat) (ms : Bool) : Bool :=
  if scratchBase ≤ loc ∨ size = 0 then true
  else (linesFrom loc size).all (fun l =>
    if ms then isHostLine l || (!s.retiring (128 * l) && s.chanAwake (128 * l)) else !s.mscStalls l)

/-! ### One access's effect on bytes (R83, R84) -/

/-- The result of an atomic operation of R224 on n-bit values. -/
def atomicNew (op n : Nat) (old v cmp : Nat) : Nat :=
  let so := if 2 ^ (n - 1) ≤ old then (old : Int) - 2 ^ n else old
  let sv := if 2 ^ (n - 1) ≤ v then (v : Int) - 2 ^ n else v
  match op with
  | 0 => v
  | 1 => if old = cmp then v else old
  | 2 => (old + v) % 2 ^ n
  | 3 => if v ≤ old then 0 else old + 1
  | 4 => if so ≤ sv then old else v
  | 5 => if so ≤ sv then v else old
  | 6 => min old v
  | 7 => max old v
  | 8 => old &&& v
  | 9 => old ||| v
  | 10 => old ^^^ v
  | 11 => (Fmt.fp32.addW .rne false old v).1
  | 12 => (Fmt.bf16.addW .rne false (old % 2 ^ 16) (v % 2 ^ 16)).1 +
      2 ^ 16 * (Fmt.bf16.addW .rne false (old / 2 ^ 16) (v / 2 ^ 16)).1
  | 13 => Fmt.fp32.minmaxW false false old v
  | 14 => Fmt.fp32.minmaxW false true old v
  | _ => old

/-- What an access returns and what it writes, given the bytes at its place. -/
def What.apply (w : What) (old : List Byte) : List Byte × Option (List Byte) :=
  match w with
  | .load => (old, none)
  | .store v => ([], some v)
  | .masked _ v => ([], some v)
  | .atomic op wide _ v cmp =>
    let n := if wide then 64 else 32
    (old, some (toBytes (n / 8) (atomicNew op n (ofBytes old) (v.toNat % 2 ^ n) (cmp.toNat % 2 ^ n))))

/-- Whether an access writes. -/
def What.writes (w : What) : Bool := match w with | .load => false | _ => true

/-- Whether an access needs the bytes that stand at its place. -/
def What.reads (w : What) : Bool := match w with | .store _ | .masked _ _ => false | _ => true

/-- The bytes an access writes at a location. -/
def What.cells (w : What) (loc : Nat) (l : List Byte) : List (Nat × Byte) :=
  match w with
  | .masked m _ => (cellsAt loc l).filter (fun c => m.getLsbD (c.1 - loc))
  | _ => cellsAt loc l

/-! ### At the home -/

/-- What a home answers (R77, R411, R416): data, an acknowledgement, RETRY with its hint, an ERROR that ends as a cause
or as a page fault, MOVED, or nothing yet. -/
inductive Answer where
  | data (l : List Byte)
  | ack
  | retry (hint : Nat)
  | error (c : Cause)
  | fault (reason : Nat)
  | moved
  | wait
  deriving DecidableEq, Repr

/-- Uncorrectable granules recorded and counted, each once (R81, R465, R468). -/
def State.recordGranules (s : State) (gs : List Nat) (part : Option Nat) (fn : Nat) : State :=
  gs.foldl (fun t g => (t.countError 0 true).waybill 0x0001 (BitVec.ofNat 64 (16 * g)) 0 part fn) s

/-- The uncorrectable granules of a range recorded and counted. -/
def State.recordBad (s : State) (loc size : Nat) (part : Option Nat) (fn : Nat) : State :=
  s.recordGranules (s.badGranules loc size) part fn

/-- Whether a write meets uncorrectable granules: those it would leave standing in part, which the MSC must fetch to merge (R72, R81). -/
def State.mergesBad (s : State) (w : What) (loc size : Nat) : Bool :=
  (s.badGranules loc size).any (fun g => !coversGranule (w.cells loc (List.replicate size 0)) g)

/-- An access performs at its home or NMU: lines taken, its channel ready, and below the home through the MSC or at the NMU (R72, R82,
R280); uncorrectable granules that it reads, or merges into, give ERROR. -/
def State.atHome (s : State) (loc size serial : Nat) (ms : Bool) (w : What) (part : Option Nat) (fn : Nat)
    (requests : Option Nat := none) : State × Answer :=
  let s1 := s.takeRange loc size w.writes
  if !s1.rangeFree loc size w.writes then (s1, .wait)
  else if !s1.belowReady loc size ms then (if ms then (linesFrom loc size).foldl (fun t l => t.chanUse (128 * l)) s1 else s1, .wait)
  else
    let s3 := s1.below loc size serial ms w.writes requests
    if (w.reads ∧ s3.isBad loc size) ∨ (ms = false ∧ s3.mergesBad w loc size) then (s3.recordBad loc size part fn, .error .machineCheck)
    else
      let old := s3.mem.getsUnder serial loc size
      let (back, new) := w.apply old
      match new with
      | none => (s3, .data back)
      | some l => (s3.perform none serial (w.cells loc l), if w.reads then .data back else .ack)

/-- A violation-log entry for a refused inbound access (R49). -/
def State.logInbound (s : State) (part fn svdn gpa key : Nat) (c : Cause) : State :=
  s.logViolation part
    { addr := BitVec.ofNat 64 gpa, pc := svdn % 2 ^ 11, cause := c, source := 4, lanes := 0, lane := 0, fn := fn, key := key,
      cluster := 0, core := 0 }

/-- The wait hint of a RETRY from a range lock (R129). -/
def State.lockHint (s : State) (o : EngineOp) : Nat :=
  match o.kind with
  | .copy _ => if o.program then (Config.hint s.free).toNat else min (o.promise - s.partClock o.ctx.part) 65535
  | _ => (Config.hint s.free).toNat

/-- Whether the partition a function belongs to is in the stop of a migration (R433). -/
def State.isHeld (s : State) (part : Nat) : Bool := (s.part part).migHeld

/-- What becomes of a packet that arrives for a VDN, before it is served (R412, R414, R429, R433, R437): refused without a
record, answered MOVED, forwarded, answered RETRY with a stated or an open hint, refused by the roster, or let in. -/
inductive Gate where
  | unbound | moved | forward (part : Nat) | retry (hint : Option Nat) | roster (part : Option Nat) (fn : Nat)
  | pass (part : Option Nat) (fn : Nat)
  deriving DecidableEq, Repr

/-- The gate of a packet from one VDN to another. -/
def State.gate (s : State) (dvdn svdn : Nat) : Gate :=
  let e := s.vdnOf dvdn
  let fn := vdnFn e
  let part := s.partOf fn
  if vdnV e = false then .unbound
  else if vdnLocal e = false then
    match part with
    | some p => if (s.part p).migPhase = 3 then .forward p else .moved
    | none => .moved
  else if (match part with | some p => s.isHeld p | none => false) then .retry (some 65535)
  else if vdnHeld e then .retry none
  else if s.onRoster fn svdn then .pass part fn
  else .roster part fn

/-- The context in which a function's inbound accesses are translated: none of its processes', as no 16-bit ASID names it. A function that
no partition names maps nothing. -/
def State.inCtx (s : State) (part : Option Nat) (fn : Nat) : Ctx :=
  match part with
  | some p => { s.fnCtx p fn with asid := 2 ^ 16 }
  | none => { fn := fn, asid := 2 ^ 16, s2root := 2 ^ 52, s2en := true }

/-- A violation-log entry in the log of the bound function's partition, if it has one. -/
def State.logRefused (s : State) (part : Option Nat) (fn svdn gpa key : Nat) (c : Cause) : State :=
  match part with
  | some p => s.logInbound p fn svdn gpa key c
  | none => s

/-- The page's key ID, for the log. -/
def State.inKey (s : State) (part : Option Nat) (fn gpa : Nat) : Nat :=
  match stage2 s (s.inCtx part fn) gpa with
  | .ok l => bits l.word 52 12
  | .error _ => 0

/-- An access that the gate has let in, at its page (R25, R98, R129, R280, R386); what R25 refuses is logged with cause PAGE_FAULT_S2
(R49, DEDUCED). -/
def State.inboundAt (s : State) (part : Option Nat) (fn svdn gpa size : Nat) (w : What) : State × Answer :=
  let ctx := s.inCtx part fn
  let refused (key r : Nat) : State × Answer := (s.logRefused part fn svdn gpa key .pageFaultS2, .fault (if r = rKindAttr then rKindAttr else rRemote))
  match stage2 s ctx gpa with
  | .error r => refused 0 r
  | .ok l =>
    let acc : Access := if w.writes then .write else .read
    if permits acc (entryR l.word) (entryW l.word) (entryX l.word) = false then refused (bits l.word 52 12) rPermission
    else
      let x := xlatOf l gpa false
      let mm : Bool := match w with | .atomic _ _ mm _ _ => mm | _ => false
      if x.kind ≠ .dram then refused x.key rKindAttr
      else if s.keyOk (part.getD 0) fn x = false then (s.logRefused part fn svdn gpa x.key .keyMismatch, .error .keyMismatch)
      else if x.cappg ∧ w.writes then (s.logRefused part fn svdn gpa x.key .capPermission, .error .capPermission)
      else
        match s.refuser { ctx := ctx, gva := 2 ^ 60, size := size, x := x } w.writes with
        | some (_, o) => (s.bump, .retry (s.lockHint o))
        | none =>
          if s.retiring x.out ∧ (w.writes ∨ mm) then (s.bump, .retry (Config.hint s.free).toNat)
          else s.atHome x.out size (s.serialOf x.key) mm w part fn

/-- An access to a peer GPA of a VDN from a sender's VDN, at this device (R25, R414, R433, R437). -/
def State.inbound (s : State) (dvdn svdn gpa size : Nat) (w : What) : State × Answer :=
  match s.gate dvdn svdn with
  | .unbound => (s, .error .peerRoster)
  | .moved => (s, .moved)
  | .forward _ => (s, .moved)
  | .retry (some h) => (s, .retry h)
  | .retry none => (s.bump, .retry (Config.hint s.free).toNat)
  | .roster part fn => (s.logRefused part fn svdn gpa (s.inKey part fn gpa) .peerRoster, .error .peerRoster)
  | .pass part fn => s.inboundAt part fn svdn gpa size w

/-! ### Sending (R412, R414, R416) -/

/-- A packet to a VDN as its entry stands: waiting while the entry is HELD, served within, or sent. -/
def State.outState (s : State) (vdn : Nat) : OutState :=
  let e := s.vdnOf vdn
  if vdnHeld e then .held else if vdnLocal e then .within else .sent s.clock (vdnEpoch e)

/-- The port mask a packet is spread over: its entry's, or for migration data that of MIGCTL (R412, R432). -/
def State.portsFor (s : State) (q : Outbound) : BitVec 18 :=
  match q.owner with
  | .move p => (s.part p).migPorts
  | _ => BitVec.ofNat 18 (vdnPorts (s.vdnOf q.vdn))

/-- A packet by its entry as it now stands: a packet already sent keeps its route (R412). -/
def State.routed (s : State) (o : Outbound) : Outbound := { o with state := s.outState o.vdn, ports := s.portsFor o }

/-- Whether a packet's route has a working port left (R409). -/
def State.hasPort (s : State) (q : Outbound) : Bool := q.ports &&& ~~~s.portsDown != 0

/-- An outbound access given to the fabric interface. -/
def State.sendOut (s : State) (o : Outbound) : State × Nat :=
  let id := s.nextId
  ({ s with nextId := id + 1, outbound := put s.outbound id (s.routed o) }, id)

end Sys2Proof.Machine
end

