-- ==== Sys2Proof/Machine/Queue.lean ====
section
/-! DEFINITION. Queue tables, queue control blocks, notify stores, hardware slots and mapping (R363 to R370, R376, R379). -/

namespace Sys2Proof.Machine

/-! ### The CP's accesses -/

/-- A store by the CP: lines taken, the bytes through the MSC. A capability page takes them as any other, and the granules' tags
clear: R39 names no CP write (DESIGN CHOICE). -/
def State.cpStore (s : State) (loc serial : Nat) (l : List Byte) : State :=
  ((s.takeRange loc l.length true).below loc l.length serial false true).perform none serial (cellsAt loc l)

/-- Free bytes stored in an area of memory whose layout is not stated (R382 to R384, R424). -/
def State.storeFree (s : State) (loc serial n : Nat) : State :=
  if n = 0 then s
  else { s.cpStore loc serial ((List.range n).map (fun i => Config.byte (s.free + i))) with free := s.free + n }

/-! ### Queue table (R363) -/

/-- A queue-table entry. -/
structure QueueEntry where
  qcb : Nat
  proc : Nat
  fn : Nat
  kind : Nat
  prio : Nat
  deriving DecidableEq, Repr

/-- Entry q of a partition's queue table: none at or beyond QTLEN, while V = 0, or for a kind that is refused (R363). -/
def State.queueEntry (s : State) (p q : Nat) : Option QueueEntry :=
  let pt := s.part p
  if bits (pt.word 1) 0 32 ≤ q then none
  else
    let a := (pt.word 0).toNat + 16 * q
    let lo := s.readDWord 0 a
    let hi := s.readDWord 0 (a + 8)
    if lo.getLsbD 0 && bits lo 35 2 != 3 && !(bits lo 35 2 == 2 && bits lo 37 11 != 0) then
      some { qcb := bits hi 0 52, proc := bits lo 48 16, fn := bits lo 37 11, kind := bits lo 35 2, prio := bits lo 31 4 }
    else none

/-! ### Queue control blocks (R364) -/

/-- Where the CP finds a GPA of a function that it writes: a LOCAL or HOST page granting R and W in stage 2. -/
def State.gpaStore (s : State) (p fn gpa : Nat) : Option (Nat × Nat) :=
  match stage2 s (s.fnCtx p fn) gpa with
  | .error _ => none
  | .ok l =>
    let x := xlatOf l gpa false
    if (x.kind = .dram ∨ x.kind = .host) ∧ entryR l.word ∧ entryW l.word ∧ s.keyOk p fn x then some (outLoc x.kind x.out, s.serialOf x.key)
    else none

/-- Where a queue's QCB stands (R366). -/
def State.qcbAt (s : State) (p : Nat) (e : QueueEntry) : Option (Nat × Nat) := s.gpaStore p e.fn e.qcb

/-- A QCB as memory holds it. -/
def State.readQcb (s : State) (loc serial : Nat) : Queue :=
  let n (off k : Nat) : Nat := ofBytes (s.mem.getsUnder serial (loc + off) k)
  { ringBase := n 0 8, ringLog := n 8 1, state := n 9 1, prio := n 10 1, age := n 11 1, rptr := BitVec.ofNat 32 (n 12 4),
    wptr := BitVec.ofNat 32 (n 16 4), lcnt := BitVec.ofNat 32 (n 20 4), err := n 24 4 }

/-- Bytes 0 to 27 of a QCB. -/
def Queue.bytes (q : Queue) : List Byte :=
  toBytes 8 q.ringBase ++ toBytes 1 q.ringLog ++ toBytes 1 q.state ++ toBytes 1 q.prio ++ toBytes 1 q.age ++
    toBytes 4 q.rptr.toNat ++ toBytes 4 q.wptr.toNat ++ toBytes 4 q.lcnt.toNat ++ toBytes 4 q.err

/-- A queue's QCB written to memory, where it can be reached. -/
def State.writeQcb (s : State) (p q : Nat) (k : Queue) : State :=
  match s.queueEntry p q with
  | none => s
  | some e =>
    match s.qcbAt p e with
    | none => s
    | some (loc, serial) => s.cpStore loc serial k.bytes

/-- A queue's control block: its slot's while mapped, otherwise memory's. -/
def State.queueOf (s : State) (p q : Nat) : Option Queue :=
  match look (s.part p).mapped q with
  | some k => some k
  | none =>
    match s.queueEntry p q with
    | none => none
    | some e => (s.qcbAt p e).map (fun a => s.readQcb a.1 a.2)

/-- A queue's control block changed, in its slot or in memory. -/
def State.onQueue (s : State) (p q : Nat) (f : Queue → Queue) : State :=
  match look (s.part p).mapped q with
  | some k => s.onPart p (fun t => { t with mapped := put t.mapped q (f k) })
  | none => match s.queueOf p q with | some k => s.writeQcb p q (f k) | none => s

/-- The effective priority (R379). -/
def Queue.effective (q : Queue) : Nat := min (q.prio + q.age) 15

/-! ### Launches of a queue -/

/-- How many teams a launch has. -/
def Launch.teams (l : Launch) : Nat := l.dimX * l.dimY * l.dimZ

/-- The launches a queue has accepted and that have not completed, oldest first. -/
def State.launchesOf (s : State) (p q : Nat) : List (Nat × Launch) :=
  (lookD (s.part p).launches q []).filterMap (fun i =>
    match look s.launches i with | some l => if l.status = 0x10 then some (i, l) else none | none => none)

/-- Whether a queue has an accepted launch with team sets not yet admitted. -/
def State.hasUnadmitted (s : State) (p q : Nat) : Bool := (s.launchesOf p q).any (fun e => decide (e.2.nextTeam < e.2.teams))

/-- Whether a queue has work (R369). -/
def State.hasWork (s : State) (p q : Nat) : Bool :=
  (match s.queueOf p q with | some k => k.state == 1 && k.rptr != k.wptr | none => false) || s.hasUnadmitted p q

/-! ### Mapping (R368 to R370) -/

/-- Whether R370 lets a queue be unmapped. -/
def State.canUnmap (s : State) (p q : Nat) : Bool :=
  !(s.part p).partway.contains q && !(s.part p).waiting.any (fun w => w.queue == q) && !s.hasUnadmitted p q

/-- A queue unmapped: the QCB written back, the pending bit set where READY with packets left. -/
def State.unmap (s : State) (p q : Nat) : State :=
  match look (s.part p).mapped q with
  | none => s
  | some k =>
    (s.writeQcb p q k).onPart p (fun t =>
      { t with
        mapped := del t.mapped q
        pendingBits := if k.state = 1 ∧ k.rptr ≠ k.wptr then insertNat t.pendingBits q else t.pendingBits })

/-- A queue mapped: its QCB read, its pending bit cleared; a command that waited in it when the partition was moved is not fetched
again (R435). -/
def State.map (s : State) (p q : Nat) : State :=
  match s.queueOf p q with
  | none => s
  | some k =>
    let held : Store (List Byte) := match look (s.part p).resume q with | some b => [(k.rptr.toNat, b)] | none => []
    s.onPart p (fun t => { t with
      mapped := put t.mapped q { k with ahead := held }, pendingBits := removeNat t.pendingBits q, resume := del t.resume q })

/-- The slots of a partition (R367). -/
def State.slots (s : State) (p : Nat) : Nat := 4 * ((List.range 64).filter (fun i => (s.part p).clusters.getLsbD i)).length

/-- The pending queue the CP serves next (R369): highest effective priority, lowest number. -/
def State.nextPending (s : State) (p : Nat) : Option Nat :=
  let cs := (s.part p).pendingBits.filterMap (fun q =>
    match s.queueOf p q with | some k => if k.state = 1 then some (q, k.effective) else none | none => none)
  (cs.foldl (fun b e => match b with | none => some e | some x => if x.2 < e.2 then some e else some x) none).map (·.1)

/-- The mapped queue that gives way to a pending queue of an effective priority (R369). -/
def State.victim (s : State) (p eff : Nat) : Option Nat :=
  let ms := (s.part p).mapped
  match ms.find? (fun e => !s.hasWork p e.1) with
  | some e => some e.1
  | none =>
    let low := ms.foldl (fun (b : Option (Nat × Queue)) e =>
      match b with | none => some e | some x => if e.2.effective ≤ x.2.effective then some e else some x) none
    match low with
    | some e => if e.2.effective < eff then some e.1 else none
    | none => none

/-- Whether a mapped queue is the one to be unmapped now: stopped, or in the way of the next pending queue while no slot
is free. -/
def State.givesWay (s : State) (p q : Nat) : Bool :=
  (match look (s.part p).mapped q with | some k => k.state == 2 | none => false) ||
    (decide (s.slots p ≤ (s.part p).mapped.length) &&
      (match s.nextPending p with
       | some n => (match s.queueOf p n with | some k => s.victim p k.effective == some q | none => false)
       | none => false))

/-- QUEUE_MAP: the pending queue whose turn it is takes a free slot (R369). -/
def execQueueMap (p q : Nat) (s : State) : Out :=
  if s.nextPending p = some q ∧ (s.part p).mapped.length < s.slots p ∧ (look (s.part p).mapped q).isNone then .next (s.map p q)
  else .next s

/-- QUEUE_UNMAP: a queue that is stopped or gives way is unmapped, between commands (R370, R376). -/
def execQueueUnmap (p q : Nat) (s : State) : Out :=
  if s.givesWay p q ∧ s.canUnmap p q then .next (s.unmap p q) else .next s

/-- A process that gains work starts at the least virtual time of its function's processes with work, if there are any (R378). -/
def Part.gain (t : Part) (q proc : Nat) : Part :=
  let ws := (t.worked.map (·.2)).filter (fun k => k / 65536 == proc / 65536)
  let times := ws.map (fun k => lookD t.vtime k 0)
  { t with
    worked := put t.worked q proc
    vtime := match times with | [] => t.vtime | a :: r => if ws.contains proc then t.vtime else put t.vtime proc (r.foldl min a) }

/-- What the CP keeps of a queue's work, kept in step: since when it has had work without an admission (R379), and its process among
those with work (R378). -/
def State.noteWork (s : State) (p q : Nat) : State :=
  if s.hasWork p q then
    s.onPart p (fun t =>
      let u := if (look t.ageSince q).isNone then { t with ageSince := put t.ageSince q s.clock } else t
      match s.queueEntry p q with
      | some e => if (look t.worked q).isNone then u.gain q (e.fn * 65536 + e.proc) else u
      | none => u)
  else s.onPart p (fun t => { t with ageSince := del t.ageSince q, worked := del t.worked q })

/-- A queue stops for a reason (R376); it is unmapped at once where R370 allows. A command that has begun when its ring overruns is
finished first (DEDUCED). -/
def State.stopQueue (s : State) (p q err : Nat) : State :=
  let s1 := (s.onQueue p q (fun k => { k with state := 2, err := if k.state = 2 then k.err else err })).onPart p (fun t =>
    { t with partway := if err = 1 then t.partway else removeNat t.partway q })
  (if (look (s1.part p).mapped q).isSome ∧ s1.canUnmap p q then s1.unmap p q else s1).noteWork p q

/-! ### Notify stores (R23, R366) -/

/-- Whether a queue holds more packets than its ring. -/
def Queue.overrun (k : Queue) : Bool := decide (2 ^ k.ringLog < (k.wptr - k.rptr).toNat)

/-- A notify store of a function to queue q as R366 gives it. -/
def State.takeNotify (s : State) (p fn q : Nat) (value : DWord) : State :=
  let s0 := s.onPart p (fun t => { t with notify := put t.notify (fn * 65536 + q) value })
  let w : Word := value.truncate 32
  let drop (t : State) : State := t.waybill 0x0010 (BitVec.ofNat 64 q) value (some p) fn
  match s0.queueEntry p q with
  | none => drop s0
  | some e =>
    if e.fn ≠ fn then drop s0
    else
      match look (s0.part p).mapped q with
      | some _ =>
        let s1 := s0.onQueue p q (fun k => { k with wptr := w })
        (match look (s1.part p).mapped q with
         | some k => if k.overrun then s1.stopQueue p q 1 else s1
         | none => s1)
      | none =>
        match s0.qcbAt p e with
        | none => drop s0
        | some (loc, serial) =>
          let k : Queue := { s0.readQcb loc serial with wptr := w }
          let s1 := s0.cpStore (loc + 16) serial (toBytes 4 w.toNat)
          if k.state ≠ 1 then s1
          else
            let s2 := s1.onPart p (fun t => { t with pendingBits := insertNat t.pendingBits q })
            if k.overrun then s2.stopQueue p q 1 else s2

/-- The CP accepts a notify store of a function to queue q. -/
def State.acceptNotify (s : State) (p fn q : Nat) (value : DWord) : State := (s.takeNotify p fn q value).noteWork p q

/-- NOTIFY_STORE: the CP accepts a notify store (R366). -/
def execNotifyStore (p fn q : Nat) (value : Word) (s : State) : Out := .next (s.acceptNotify p fn q (value.zeroExtend 64))

/-- AGEING (R379): 2 ms have passed during which the queue had work and none of its team sets was admitted. -/
def execAgeing (p q : Nat) (s : State) : Out :=
  match look (s.part p).ageSince q with
  | some t =>
    if s.hasWork p q ∧ t + 4800000 ≤ s.clock then
      .next ((s.onQueue p q (fun k => { k with age := min (k.age + 1) 15 })).onPart p (fun u =>
        { u with ageSince := put u.ageSince q (t + 4800000) }))
    else .next s
  | none => .next (s.noteWork p q)

end Sys2Proof.Machine
end

