-- ==== Sys2Proof/Machine/LoadStore.lean ====
section
/-! DEFINITION. Lane accesses to memory and scratch (R259 to R282): checks of every lane before any access performs, cached
accesses through the core's L1, accesses of an epoch (R114 to R117, R127), drained accesses and their shadow (R123, R261),
near-memory and peer accesses, and the instructions themselves. -/

namespace Sys2Proof.Machine

/-! ### What the lanes ask for -/

/-- The active lanes that PARTDONE does not exempt (R261). -/
def Issue.pending (x : Issue) : List Nat := x.act.filter (fun i => !x.g.partdone.getLsbD i)

/-- One checked access of a lane: the request with its translation, or why it fails. -/
abbrev Checked := Except Fail (Req × Option Found)

/-- Where an output address of a kind is kept: a location, or the peer GPA or queue number it is. -/
def outPlace (x : Xlat) : Nat := match x.kind with | .dram | .host => outLoc x.kind x.out | _ => x.out

/-- An access through a capability (R45, R259), the RLT lookup included outside outrider mode (R129, R261). -/
def Issue.viaCap (x : Issue) (c : Cap) (i part unit off size perm : Nat) (a : Access) (align : Nat) (w : What) : Checked :=
  match x.s.checkAccess x.requester c off size perm a align (i * 8 + part) with
  | .error e => .error e
  | .ok g =>
    let t : Touch := { ctx := x.team.ctx, gva := g.gva, size := size, x := g.f.x }
    if x.g.epoch.isNone ∧ (x.s.refuser t w.writes).isSome then .error (.cause .rangeLock (BitVec.ofNat 64 g.gva) none)
    else
      .ok ({ lane := i, part := part, unit := unit, gva := g.gva, loc := outPlace g.f.x, size := size,
             key := x.s.serialOf g.f.x.key, owner := c.owner, x := some g.f.x, what := w
             excl := !w.writes && c.has permW && (c.scope == 0 || (c.scope == 1 && x.s.isFused (clusterOf x.team.core))) }, some g.f)

/-- A scratch access (R54), the RLT lookup included outside outrider mode. -/
def Issue.viaScratch (x : Issue) (i : Nat) (a : Word) (size : Nat) (w : What) : Checked :=
  match x.s.scratch x.requester a size size with
  | .error e => .error e
  | .ok loc =>
    if x.g.epoch.isNone ∧ (x.s.scratchRefuser loc size w.writes).isSome then
      .error (.cause .rangeLock (a.zeroExtend 64) none)
    else .ok ({ lane := i, unit := i, gva := a.toNat, loc := loc, size := size, what := w }, none)

/-- A memory instruction: its access kind, its lanes' checked accesses, and where its results go. -/
structure MemOp where
  acc : Access
  reqs : List (Nat × Checked)
  place : Place := .none
  regs : List Nat := []

/-- Whether a request makes its instruction one of the drain kind (R122, R261). -/
def Req.drains (r : Req) : Bool :=
  match r.x with
  | none => false
  | some x => x.ms || x.kind == .peer || x.kind == .notify

/-! ### Values in registers (R262, R267) -/

/-- 32-bit words of bytes. -/
def wordsOf (l : List Byte) (n : Nat) : List Word :=
  match n with
  | 0 => []
  | k + 1 => BitVec.ofNat 32 (ofBytes (l.take 4)) :: wordsOf (l.drop 4) k

/-- The elements of an MX piece in a register. -/
def mxSpread (z v : Nat) : Nat :=
  if z = 6 then (List.range 4).foldl (fun n i => n + v / 2 ^ (6 * i) % 64 * 2 ^ (8 * i)) 0 else v

/-- A register's elements as the bytes of an MX piece. -/
def mxPack (z : Nat) (w : Word) : List Byte :=
  if z = 6 then toBytes 3 ((List.range 4).foldl (fun n i => n + w.toNat / 2 ^ (8 * i) % 64 * 2 ^ (6 * i)) 0)
  else toBytes 4 w.toNat

/-- The words a lane's returned bytes give. -/
def Place.words (p : Place) (l : List Byte) : List Word :=
  match p with
  | .none => []
  | .plain signed =>
    match l.length with
    | 1 => [if signed then (BitVec.ofNat 8 (ofBytes l)).signExtend 32 else BitVec.ofNat 32 (ofBytes l)]
    | 2 => [if signed then (BitVec.ofNat 16 (ofBytes l)).signExtend 32 else BitVec.ofNat 32 (ofBytes l)]
    | n => wordsOf l (n / 4)
  | .mx z => [BitVec.ofNat 32 (mxSpread z (ofBytes l.dropLast)), BitVec.ofNat 32 (ofBytes (l.drop (l.length - 1)))]

/-- The bytes a lane got, in the order of its accesses. -/
def bytesOf (done : List (Nat × Nat × List Byte)) (i : Nat) : List Byte :=
  (done.filter (fun e => e.1 == i)).flatMap (fun e => e.2.2)

/-! ### Performing -/

/-- What a list of accesses has done so far: bytes returned by lane and part, cells written with their keys. -/
structure Performed where
  done : List (Nat × Nat × List Byte) := []
  overlay : Store Byte := []
  cells : List (Nat × Nat × Byte) := []

/-- One access after others of its instruction (R107, R279). -/
def Issue.performOne (x : Issue) (a : Performed) (r : Req) : Performed :=
  let old := (span r.loc r.size).map (fun k => match look a.overlay k with | some b => b | none => x.byteAt r.key k)
  let res := r.what.apply old
  let new := cellsAt r.loc (res.2.getD [])
  { done := a.done ++ [(r.lane, r.part, res.1)]
    overlay := new.foldl (fun o c => put o c.1 c.2) a.overlay
    cells := a.cells ++ new.map (fun c => (r.key, c.1, c.2)) }

/-- Requests by unit: the units in the order of their lowest lane, each unit's in lane order (R268). -/
def byUnit (rs : List Req) : List Req :=
  let us := rs.foldl (fun l r => if l.contains r.unit then l else l ++ [r.unit]) []
  us.flatMap (fun u => rs.filter (fun r => r.unit == u))

/-- The key serials of a list of cells. -/
def keysOf (cells : List (Nat × Nat × Byte)) : List Nat := cells.foldl (fun l c => insertNat l c.1) []

/-- The cells under one key. -/
def underOne (cells : List (Nat × Nat × Byte)) (k : Nat) : List (Nat × Byte) :=
  (cells.filter (fun c => c.1 == k)).map (fun c => (c.2.1, c.2.2))

/-- Stores of a group performed outside outrider mode: in the core's L1, or at the scratch arrays. -/
def State.performCells (s : State) (gid core : Nat) (cells : List (Nat × Nat × Byte)) : State :=
  (keysOf cells).foldl (fun t k =>
    let l := underOne cells k
    let scr := l.filter (fun c => decide (scratchBase ≤ c.1))
    let memory := l.filter (fun c => decide (c.1 < scratchBase))
    (t.perform (some gid) 0 scr).storeCached (some gid) core k memory) s

/-- TADDR of a machine check on a read (R400). -/
def Req.checkAddr (r : Req) : DWord := BitVec.ofNat 64 (if r.x.isSome then r.gva else 2 ^ 60 + r.gva)

/-- Uncorrectable granules and words that accesses read, recorded in the waybill, each once (R81, R400). -/
def State.recordReads (s : State) (t : Team) (rs : List Req) : State :=
  let gs := (rs.filter (·.x.isSome)).foldl (fun l r => (s.badGranules r.loc r.size).foldl insertNat l) []
  ((rs.filter (·.x.isNone)).foldl (fun (a : State × List Nat) r =>
    if a.2.contains (r.loc / 4) then a else (a.1.recordArray 4 r.checkAddr t, r.loc / 4 :: a.2))
    (s.recordGranules gs (some t.ctx.part) t.ctx.fn, [])).1

/-- What requests ask of one line of memory: its key, the granules of the coalescer's requests, and whether a miss asks for
ownership. -/
structure LineAsk where
  line : Nat
  key : Nat
  mask : BitVec 8
  excl : Bool
  deriving DecidableEq, Repr

/-- Lines of memory that requests touch, each as the coalescer asks for it (R74, R75). -/
def memLines (rs : List Req) : List LineAsk :=
  let ms := rs.filter (fun r => r.x.isSome)
  let lines := ms.foldl (fun l r => (linesFrom r.loc r.size).foldl insertNat l) []
  lines.map (fun n =>
    let here := ms.filter (fun r => (linesFrom r.loc r.size).contains n)
    { line := n, key := ((here.head?).map (·.key)).getD 0, excl := here.any (·.excl)
      mask := grain (here.foldl (fun m r => m ||| touched n r.loc r.size) 0) })

/-- A core obtains lines one after the other, in X where asked; whether it held each as its turn came. An access of an epoch
(`lazy`) takes no pinned frame (R60). -/
def State.obtainLines (s : State) (core : Nat) (ls : List LineAsk) (own lazy_ : Bool) : State × Bool :=
  ls.foldl (fun a l =>
    let ask := own || (l.excl && !a.1.holds core l.line false l.mask)
    let t := a.1.obtain core l.line l.key ask l.mask (!lazy_)
    (t, a.2 && t.holds core l.line own l.mask)) (s, true)

/-- The core obtains the lines of a list of requests, in X for those that write; whether each was held as its turn came, in an
epoch only those that are read. -/
def State.obtained (s : State) (core : Nat) (rs : List Req) (lazy_ : Bool) : State × Bool :=
  let a := s.obtainLines core (memLines (rs.filter (fun r => r.what.reads && (lazy_ || !r.what.writes)))) false lazy_
  let b := a.1.obtainLines core (memLines (rs.filter (fun r => r.what.writes))) true lazy_
  (b.1, a.2 && (lazy_ || b.2))

/-- The machine with the lines of a list of requests obtained. -/
def State.obtainAll (s : State) (core : Nat) (rs : List Req) (lazy_ : Bool) : State := (s.obtained core rs lazy_).1

/-- Whether the core holds what the requests need now: in an epoch only what they read. -/
def State.holdsFor (s : State) (core : Nat) (rs : List Req) (lazy_ : Bool) : Bool :=
  (memLines (rs.filter (fun r => r.what.reads))).all (fun l => s.holds core l.line false l.mask) &&
    (lazy_ || (memLines (rs.filter (fun r => r.what.writes))).all (fun l => s.holds core l.line true l.mask))

/-- Whether an access of an epoch must replay (R127, R129): a live range would refuse it now, or an unreleased command of
the group would once released. A store is judged by live ranges at the commit. -/
def Issue.mustReplay (x : Issue) (r : Req) : Bool :=
  let live :=
    match r.x with
    | some t => !r.what.writes && (x.s.refuser { ctx := x.team.ctx, gva := r.gva, size := r.size, x := t } false).isSome
    | none => !r.what.writes && (x.s.scratchRefuser r.loc r.size false).isSome
  let base := if r.x.isSome then r.gva else r.loc
  let hit (g : Range) : Bool := g.meets r.x.isNone base r.size
  live || x.g.deferred.any (fun d => d.dsts.any hit || (r.what.writes && d.srcs.any hit))

/-- Where an access is, as a range lock or an invalidation judges it: GVA, or scratch location, size and translation. -/
def Req.span (r : Req) : Nat × Nat × Option Xlat := (if r.x.isSome then r.gva else r.loc, r.size, r.x)

/-- What an epoch holds after a memory instruction of a convoy, known by its lowest lane: reads, buffered stores, the ranges of its
writes, its store flag. -/
def Epoch.after (e : Epoch) (lane : Nat) (lines : List Nat) (bs : List Buffered) (rs : List Req) (flag : Nat) : Epoch :=
  let ws := rs.filter (fun r => r.what.writes)
  { e with
    reads := lines.foldl insertNat e.reads
    stores := e.stores ++ bs
    writes := e.writes ++ ws.map Req.span
    writers := e.writers ++ ws.map (fun _ => (lane, lookD e.counts lane 0))
    loads := e.loads ++ (rs.filter (fun r => r.what.reads)).map Req.span
    storeFlags := if flag < 12 ∧ !ws.isEmpty then e.storeFlags ++ [flag] else e.storeFlags }

/-- Whether the stores of an instruction cover every byte of a granule. -/
def mends (qs : List Req) (g : Nat) : Bool :=
  (span (16 * g) 16).all (fun k => qs.any (fun r => r.what.writes && !r.what.reads && decide (r.loc ≤ k ∧ k < r.loc + r.size)))

/-- Whether an access in the L1 or scratch meets an uncorrectable granule or word: one that it reads, or a granule that it
writes in part, which the line's grant would have to carry (R66, R81, R464). A granule that the core's L1 holds is sound. -/
def State.meetsBad (s : State) (core : Nat) (qs : List Req) (r : Req) : Bool :=
  let bad := (s.badGranules r.loc r.size).filter (fun g =>
    match s.copyOf (s.l1Core core (g / 8)) (g / 8) with | some c => !c.valid.getLsbD (g % 8) | none => true)
  (r.what.reads && (!bad.isEmpty || s.mem.badWords.any (fun w => decide (r.loc < wordLoc w + 4 ∧ wordLoc w < r.loc + r.size)))) ||
    (r.x.isSome && bad.any (fun g => !mends qs g))

/-- The first line that accesses still lack and another party delays, with whether it is to be owned (R158). -/
def State.farMiss (s : State) (core : Nat) (rs : List Req) : Option (Nat × Bool) :=
  let lacks (own : Bool) (l : LineAsk) : Option (Nat × Bool) :=
    if s.far l.line ∧ s.holds core l.line own l.mask = false then some (l.line, own) else none
  match (memLines (rs.filter (fun r => r.what.writes))).findSome? (lacks true) with
  | some m => some m
  | none => (memLines (rs.filter (fun r => r.what.reads))).findSome? (lacks false)

/-- An instruction whose lines are not all held waits in place; where another party delays one, its lanes are parked (R158). -/
def Issue.awaiting (x : Issue) (s : State) (rs : List Req) : State :=
  if x.undone s then s
  else
    match s.farMiss x.team.core rs with
    | some m => s.onGroup x.gid (fun g => g.parkLanes x.mask (.home m.1 m.2))
    | none => s

/-- A cached or scratch instruction over its checked requests. -/
def Issue.cached (x : Issue) (o : MemOp) (rs : List (Req × Option Found)) : State :=
  let core := x.team.core
  let qs := byUnit (rs.map (·.1))
  let inEpoch := x.g.epoch.isSome
  let got := x.s.obtained core qs inEpoch
  let s1 := got.1
  if !(got.2 || s1.holdsFor core qs inEpoch) || x.undone s1 then x.awaiting s1 qs
  else
    let y : Issue := { x with s := s1 }
    let bad := qs.filter (fun r => s1.meetsBad core qs r && !y.allBuffered r.loc r.size)
    if inEpoch ∧ (!bad.isEmpty ∨ qs.any y.mustReplay) then s1.replay x.gid x.mask
    else if !bad.isEmpty then
      y.failIn (s1.recordReads x.team bad) o.acc (bad.map (fun r => (r.lane, Fail.cause .machineCheck r.checkAddr none)))
    else
      let p := qs.foldl y.performOne {}
      let s2 := s1.installAll (rs.filterMap (·.2))
      let value (i : Nat) : List (Nat × Word) :=
        if x.pending.contains i then o.regs.zip (o.place.words (bytesOf p.done i)) else []
      if inEpoch then
        let lines := y.readLines ((qs.filter (fun r => r.what.reads)).map (fun r => (r.loc, r.size)))
        let bs := (keysOf p.cells).flatMap (fun k => bufferEntries k (underOne p.cells k))
        let late := !bs.isEmpty && o.place == .none
        if y.hasRoom lines bs.length then
          y.commitIn s2 { v := value, pend := late
                          group := fun g =>
                            { g with partdone := 0, epoch := g.epoch.map (fun e => e.after ((x.mask.head?).getD 0) lines bs qs (if late then x.fm.flag else 15)) } }
        else y.stall
      else y.commitIn (s2.performCells x.gid core p.cells) { v := value, group := fun g => { g with partdone := 0 } }

/-! ### Drained accesses (R123, R261) -/

/-- The register keys a lane's results go to. -/
def Issue.destKeys (x : Issue) (regs : List Nat) (i : Nat) : List Nat := regs.map (fun r => (x.lane i).key (rename x.rg (x.lane i) r))

/-- The unfinished writes a drained instruction leaves. -/
def Issue.drainHazards (x : Issue) (regs : List Nat) : List Hazard :=
  x.pending.flatMap (fun i => regs.map (fun r =>
    let l := x.lane i
    let q := rename x.rg l r
    { lane := i, file := .v, reg := q, key := l.key q, old := l.reg q, due := x.dist, varLat := true, flag := x.fm.flag,
      drained := true }))

/-- What a drained instruction is while in flight, issued into a state. -/
def Issue.drainOp (x : Issue) (s : State) (o : MemOp) (rs : List Req) (step : Option Nat) : DrainOp :=
  { gid := x.gid, saved := x.g.arch, ctl := x.g.outctl, mask := x.mask, act := x.act, pc := x.pc, acc := o.acc,
    flag := x.fm.flag, prior := x.act.filter (fun i => x.g.partdone.getLsbD i), place := o.place,
    dest := x.pending.map (fun i => (i, x.destKeys o.regs i)), step := step, todo := byUnit rs
    after := ((look s.groups x.gid).map (·.arch)).getD {} }

/-- Which lanes of a drained instruction have performed whole. -/
def DrainOp.performed (d : DrainOp) : List Nat :=
  (d.dest.map (·.1)).filter (fun i => !d.failed.any (fun f => f.1 == i) && d.done.any (fun e => e.1 == i))

/-- Whether a drained instruction still writes a register of a lane: no instruction of its shadow has written it that completes
later (R226). -/
def DrainOp.owes (d : DrainOp) (a : GroupArch) (i key : Nat) : Bool :=
  d.step.isSome || a.hazards.any (fun h => h.drained && h.lane == i && h.file == .v && h.key == key)

/-- The results of performed lanes written, where `owed` says so. -/
def DrainOp.writeTo (d : DrainOp) (a : GroupArch) (owed : Nat → Nat → Bool) : GroupArch :=
  { a with
    lanes := a.lanes.mapIdx (fun i l =>
      if d.performed.contains i then
        match d.dest.find? (fun e => e.1 == i) with
        | some e => (e.2.zip (d.place.words (bytesOf d.done i))).foldl (fun l w => if owed i w.1 then { l with v := put l.v w.1 w.2 } else l) l
        | none => l
      else l)
    struck := a.struck.filter (fun b => !(b.file == .v && d.performed.contains b.lane && owed b.lane b.key &&
      d.dest.any (fun e => e.1 == b.lane && e.2.contains b.key))) }

/-- The lanes that waited for a drained step resume. -/
def GroupArch.unpark (a : GroupArch) (id : Nat) : GroupArch :=
  ({ a with lanes := a.lanes.map (fun l => if l.park = some (.memorySide id) then { l with park := none } else l) } : GroupArch).repath

/-- A drained instruction all of whose accesses have performed (R123): results written, the flag falls, and its shadow
stands; a step of SPILL or FILL records its progress. -/
def Group.drained_ok (g : Group) (id : Nat) (d : DrainOp) : Group :=
  let g1 := { g with
    arch := ({ (d.writeTo g.arch (d.owes g.arch)) with hazards := g.arch.hazards.filter (fun h => !h.drained) } : GroupArch).unpark id
    drained := none, stuck := false, kept := [] }
  match d.step with
  | some j => { g1 with spillprog := BitVec.ofNat 9 (256 + j), partdone := 0 }
  | none => g1.fall d.flag

/-- A drained instruction that failed in some lanes (R123, R261): the shadow discarded, the performed lanes written and
recorded in PARTDONE. -/
def Group.drained_bad (g : Group) (id : Nat) (d : DrainOp) : Group :=
  let g1 := g.settle
  let g2 := match d.step with | some _ => g1 | none => g1.fall d.flag
  { g2 with
    arch := ({ (d.writeTo d.saved (fun _ _ => true)) with hazards := d.saved.hazards.filter (fun h => !h.varLat) } : GroupArch).unpark id
    outctl := { d.ctl with token := g.outctl.token }
    drained := none, stuck := false, kept := []
    partdone := maskOf (d.prior ++ d.performed) }

/-- The shadow of a drained instruction discarded, which itself goes on: at a halt (R123). -/
def Group.dropShadow (g : Group) (d : DrainOp) : Group :=
  { g.settle with
    arch := { d.after with hazards := d.after.hazards.filter (fun h => !h.varLat || h.drained) }
    outctl := { (if d.step.isSome then d.ctl else d.ctl.step d.mask) with token := g.outctl.token }
    stuck := false, kept := [] }

/-- The shadow of a group discarded, if it runs in one. -/
def State.leaveShadow (s : State) (gid : Nat) : State :=
  match look s.groups gid with
  | none => s
  | some g =>
    match g.drained.bind (fun id => match look s.drains id with | some d => some d | none => (look s.reduces id).map (·.base)) with
    | some d => s.setGroup gid (g.dropShadow d)
    | none => s

/-- A drained instruction completes. -/
def State.finishDrain (s : State) (id : Nat) (d : DrainOp) : State :=
  let s0 := { s with drains := del s.drains id }
  match look s.groups d.gid with
  | none => s0
  | some g =>
    if d.failed.isEmpty then s0.setGroup d.gid (g.drained_ok id d)
    else
      let g1 := g.drained_bad id d
      let s1 := s0.setGroup d.gid g1
      let x : Issue := { s := s1, gid := d.gid, g := g1, mask := d.mask, act := d.act, rg := none, fm := {}, pc := d.pc, dist := 0 }
      x.failIn s1 d.acc d.failed

/-- Why a lane fails on an answer of its home (R261, R388, R414). -/
def Req.failOf (r : Req) (a : Answer) : Option Fail :=
  let x := r.x.getD { kind := .dram, out := 0 }
  match a with
  | .error .machineCheck => some (.cause .machineCheck r.checkAddr none)
  | .error .peerRoster => some (.cause .peerRoster (BitVec.ofNat 64 (x.vdn * 2 ^ 52 + r.loc)) (some r.owner))
  | .error .rangeLock => some (.cause .rangeLock (BitVec.ofNat 64 r.gva) none)
  | .error c => some (.cause c (BitVec.ofNat 64 r.gva) (some r.owner))
  | .fault reason => some (.page { stage2 := true, reason := reason, gpa := some r.loc, vdn := x.vdn } r.gva)
  | _ => none

/-- A request of a drained instruction has its answer. -/
def DrainOp.answered (d : DrainOp) (r : Req) (a : Answer) : DrainOp :=
  let d1 := { d with todo := d.todo.erase r, out := none }
  match r.failOf a with
  | some f => { d1 with failed := d1.failed ++ [(r.lane, f)] }
  | none => { d1 with done := d1.done ++ [(r.lane, r.part, match a with | .data l => l | _ => [])] }

/-! ### What stands or travels together (R75, R133) -/

/-- How an access of a drained instruction travels. -/
inductive Route where
  | plain | near | peer | notify
  deriving DecidableEq, Repr

/-- The route of an access. -/
def Req.route (r : Req) : Route :=
  match r.x with
  | none => .plain
  | some x => match x.kind with | .peer => .peer | .notify => .notify | _ => if x.ms then .near else .plain

/-- Whether two accesses fall to the same requests of the coalescer: one segment of one memory, under one key; MX blocks stand
apart. -/
def Req.joins (a b : Req) : Bool :=
  a.route == b.route && !a.block && !b.block && a.loc / 128 == b.loc / 128 && a.key == b.key &&
    (a.x.map (·.vdn)) == (b.x.map (·.vdn))

/-- The coalescer's request that holds an access, among accesses: where it begins and its bytes (R74, R75). -/
def requestOf (rs : List Req) (r : Req) : Option (Nat × Nat) :=
  let base := r.loc / 128 * 128
  let mask := (if r.block then [r] else rs.filter r.joins).foldl (fun m q => m ||| touched (r.loc / 128) q.loc q.size) 0
  ((coalesce mask).find? (fun q => decide (base + q.1 ≤ r.loc ∧ r.loc + r.size ≤ base + q.1 + q.2))).map (fun q => (base + q.1, q.2))

/-- The accesses that share a request with one. -/
def sharing (rs : List Req) (r : Req) : List Req :=
  match requestOf rs r with
  | none => [r]
  | some q => rs.filter (fun k => k == r || (r.joins k && decide (q.1 ≤ k.loc ∧ k.loc + k.size ≤ q.1 + q.2)))

/-- The accesses at the head of a drained instruction that perform together: an MX block with its scale (R133), those that share
a request to an NMU or a peer (R75), or one access. -/
def DrainOp.batch (d : DrainOp) : List Req :=
  match d.todo with
  | [] => []
  | r :: _ =>
    if r.block then d.todo.filter (fun q => q.unit == r.unit)
    else match r.route with | .near | .peer => sharing d.todo r | _ => [r]

/-- The bytes that stores of a list put at a range, the later over the earlier, and which they cover. -/
def storedAt (rs : List Req) (base n : Nat) : List (Option Byte) :=
  (span base n).map (fun k => rs.foldl (fun b r =>
    match r.what with
    | .store v => if r.loc ≤ k ∧ k < r.loc + v.length then v[k - r.loc]? else b
    | _ => b) none)

/-- The packet that some accesses to a peer make: where it begins, its bytes, what it asks, and the accesses it carries (R75, R411).
A write that leaves bytes of its request alone goes granule by granule, for a mask covers one granule only; an atomic goes alone. -/
def peerPacket (todo : List Req) (r : Req) : Nat × Nat × What × List Req :=
  match r.what, requestOf todo r with
  | .load, some q => (q.1, q.2, .load, if r.block then [r] else sharing todo r)
  | .store _, some q =>
    let rs := if r.block then [r] else sharing todo r
    let whole := storedAt rs q.1 q.2
    if whole.all Option.isSome then (q.1, q.2, .store (whole.map (fun b => b.getD 0)), rs)
    else
      let g := r.loc / 16 * 16
      if g + 16 < r.loc + r.size then (r.loc, r.size, r.what, [r])
      else
        let here := rs.filter (fun k => decide (g ≤ k.loc ∧ k.loc + k.size ≤ g + 16))
        let bytes := storedAt here g 16
        (g, 16, .masked (bytes.zipIdx.foldl (fun m e => if e.1.isSome then m ||| (1#128 <<< e.2) else m) 0) (bytes.map (fun b => b.getD 0)), here)
  | w, _ => (r.loc, r.size, w, [r])

/-- The answer to a packet, as each access it carried has it. -/
def DrainOp.answeredAll (d : DrainOp) (base : Nat) (rs : List Req) (a : Answer) : DrainOp :=
  rs.foldl (fun d r => d.answered r (match a with | .data l => .data ((l.drop (r.loc - base)).take r.size) | b => b)) { d with out := none }

/-- The packet that a drained instruction waits for has its answer. -/
def DrainOp.peerAnswered (d : DrainOp) (a : Answer) : DrainOp :=
  match d.batch.find? (fun r => r.route == .peer) with
  | some r => let p := peerPacket d.todo r; d.answeredAll p.1 p.2.2.2 a
  | none => { d with out := none }

/-- An outbound access that has just been given to the interface, or comes to be sent again: the answer, once final, of one that
the device serves itself (R412), and of one whose mask has no working port (R409). -/
def State.serveOut (s : State) (oid : Nat) : State × Option Answer :=
  match look s.outbound oid with
  | none => (s, none)
  | some o =>
    match o.state with
    | .within =>
      (match s.inbound o.vdn o.svdn o.gpa o.size o.what with
       | (t, .wait) => (t, none)
       | (t, .retry h) => ({ t with outbound := put t.outbound oid { o with state := .retry (t.clock + h) } }, none)
       | (t, a) => ({ t with outbound := del t.outbound oid }, some a))
    | .sent _ _ => if s.hasPort o then (s, none) else ({ s with outbound := del s.outbound oid }, some (.error .machineCheck))
    | _ => (s, none)

/-- A drained notify access (R23, R366); it waits while the partition's CP stands still (R433). -/
def State.notifyAccess (s : State) (c : Ctx) (r : Req) : State × Answer :=
  if (s.part c.part).migHeld then (s, .wait)
  else
    match r.what with
    | .store v => (s.acceptNotify c.part c.fn r.loc (BitVec.ofNat 64 (ofBytes v)), .ack)
    | _ =>
      let v := lookD (s.part c.part).notify (c.fn * 65536 + r.loc) 0
      (s, .data (if r.gva % 4096 = 0 ∧ (r.size = 4 ∨ r.size = 8) then toBytes r.size v.toNat else toBytes r.size 0))

/-- A drained instruction's access to an ordinary page, whose line the core has obtained: in the core's L1, as R110 gives, where
no range refuses it now (R129). -/
def State.plainAccess (s : State) (t : Team) (gid : Nat) (qs : List Req) (r : Req) : State × Answer :=
  let refused : Bool := match r.x with
    | some x => (s.refuser { ctx := t.ctx, gva := r.gva, size := r.size, x := x } r.what.writes).isSome
    | none => (s.scratchRefuser r.loc r.size r.what.writes).isSome
  if refused then (s, .error .rangeLock)
  else if s.meetsBad t.core qs r then (s.recordReads t [r], .error .machineCheck)
  else
    let res := r.what.apply (s.mem.getsUnder r.key r.loc r.size)
    (s.performCells gid t.core ((cellsAt r.loc (res.2.getD [])).map (fun c => (r.key, c.1, c.2))), .data res.1)

/-- An atomic performs at the home's NMU exactly where the sender's page is memory-side (R280). -/
def What.sent (w : What) (ms : Bool) : What :=
  match w with
  | .atomic op wide _ v cmp => .atomic op wide ms v cmp
  | _ => w

/-- The packet of an access to a peer leaves (R412, R414); a LOCAL = 1 entry is served within. -/
def State.peerAccess (s : State) (id : Nat) (d : DrainOp) (c : Ctx) (r : Req) : State × Option Answer :=
  let x := r.x.getD { kind := .peer, out := 0 }
  match s.svdnOf c.fn with
  | none => (s, some (.error .peerRoster))
  | some sv =>
    let p := peerPacket d.todo r
    let sent := s.sendOut { owner := .drain id, part := c.part, fn := c.fn, svdn := sv, vdn := x.vdn, gpa := p.1,
                            size := p.2.1, what := p.2.2.1.sent x.ms, state := .held }
    let s1 := { sent.1 with drains := put sent.1.drains id { d with out := some sent.2 } }
    s1.serveOut sent.2

/-- How many requests of the coalescer's table an access stands for among those that perform with it: all those of a line for the
first on it, none for the others (R75, R99). -/
def leads (us : List Req) (r : Req) : Nat :=
  match us.find? (fun q => q.route == r.route && q.loc / 128 == r.loc / 128) with
  | some q =>
    if q = r then
      (coalesce ((us.filter (fun q => q.route == r.route && q.loc / 128 == r.loc / 128)).foldl (fun m q => m ||| touched (r.loc / 128) q.loc q.size) 0)).length
    else 0
  | none => 0

/-- One memory-side access: refused by a range registered since its check (R129), or performed. -/
def State.nmuAccess (s : State) (t : Team) (r : Req) (requests : Option Nat := none) : State × Answer :=
  match r.x with
  | none => (s, .wait)
  | some x =>
    match s.refuser { ctx := t.ctx, gva := r.gva, size := r.size, x := x } r.what.writes with
    | some _ => (s, .error .rangeLock)
    | none => s.atHome r.loc r.size r.key true r.what (some t.ctx.part) t.ctx.fn requests

/-- One access of a batch at its place in this device. -/
def State.localAccess (s : State) (t : Team) (gid : Nat) (us : List Req) (r : Req) : State × Answer :=
  match r.route with
  | .near => s.nmuAccess t r (some (leads us r))
  | .notify => s.notifyAccess t.ctx r
  | _ => s.plainAccess t gid us r

/-- What the accesses of a batch need before any performs: lines of ordinary pages obtained as the coalescer asks for them, over the
whole instruction (R74), lines of memory-side pages given, their channels ready (R80, R98). -/
def State.readyBatch (s : State) (t : Team) (d : DrainOp) (us : List Req) : State × Bool :=
  let plain := us.filter (fun r => r.route == .plain)
  let near := us.filter (fun r => r.route == .near)
  let mates := d.todo.filter (fun r => r.route == .plain && plain.any (fun p => p == r || p.joins r))
  let a := s.obtained t.core mates false
  let s1 := near.foldl (fun u r => u.takeRange r.loc r.size r.what.writes) a.1
  let given := near.all (fun r => s1.rangeFree r.loc r.size r.what.writes)
  let awake := near.all (fun r => s1.belowReady r.loc r.size true)
  let s2 := if given && !awake then near.foldl (fun u r => u.chanUse r.loc) s1 else s1
  (s2, (a.2 || s1.holdsFor t.core plain false) && given && awake)

/-- The accesses of a batch perform as one step; of an MX block a lane that fails in any part performs in none (R133). -/
def State.performBatch (s : State) (t : Team) (d : DrainOp) (us : List Req) : State × DrainOp :=
  let failing (r : Req) : Option Answer :=
    match s.localAccess t d.gid us r with
    | (_, .error c) => some (.error c)
    | _ => none
  let spoilt := us.filter (fun r => r.block && (d.failed.any (fun f => f.1 == r.lane) || us.any (fun q => q.lane == r.lane && (failing q).isSome)))
  us.foldl (fun a r =>
    if spoilt.contains r then
      match failing r with
      | some n => let u := (a.1.localAccess t d.gid us r).1; (u, a.2.answered r n)
      | none => (a.1, { a.2 with todo := a.2.todo.erase r })
    else
      let n := a.1.localAccess t d.gid us r
      (n.1, a.2.answered r n.2)) (s, d)

/-- Whether a drained instruction's next accesses may be made: on its core; of a team switched out those that do not go through it, for
what follows a carried access at a peer, an NMU or the CP (R385) follows it there. Once its partition's image has left, none is (R433). -/
def State.mayAccess (s : State) (t : Team) (us : List Req) : Bool :=
  !(s.part t.ctx.part).migImage && (t.state == .resident || (t.state == .swapped && us.all (fun r => r.route != .plain)))

/-- The requests of a drained instruction up to the next that waits: for its NMU, a peer's answer, a line (R123), or its core. They go
in ascending LANEID (R107). An MX block's parts at peers go before those at home, which then perform with the last answer. -/
def State.drive (s : State) (id fuel : Nat) : State :=
  match fuel with
  | 0 => s
  | k + 1 =>
    match look s.drains id with
    | none => s
    | some d =>
      let tid := (lookD s.groups d.gid {}).team
      let t := lookD s.teams tid {}
      if d.out.isSome ∨ s.mayAccess t d.batch = false then s
      else if d.todo.isEmpty then (if s.teamRuns tid then s.finishDrain id d else s)
      else
        let us := d.batch
        match us.find? (fun r => r.route == .peer) with
        | some r =>
          (match s.peerAccess id d t.ctx r with
           | (u, some a) => ({ u with drains := put u.drains id (d.peerAnswered a) } : State).drive id k
           | (u, none) => u)
        | none =>
          if us.any (fun r => r.route == .near) then s
          else
            let p := s.readyBatch t d us
            if p.2 = false ∨ us.any (fun r => r.route == .notify && (s.part t.ctx.part).migHeld) then p.1
            else
              let q := p.1.performBatch t d us
              ({ q.1 with drains := put q.1.drains id q.2 } : State).drive id k

/-- The most requests one drained instruction makes: 64 lanes of five parts. -/
def driveFuel : Nat := 400

/-- A drained instruction begins: its results are unfinished, its flag stands, and its accesses follow (R123). -/
def Issue.startDrain (x : Issue) (o : MemOp) (rs : List (Req × Option Found)) : State :=
  if x.g.epoch.isSome ∨ x.g.drained.isSome ∨ !x.g.release.isEmpty then x.stall
  else
    let id := x.s.nextId
    let s1 := { x.s.installAll (rs.filterMap (·.2)) with nextId := id + 1 }
    let s2 := x.commitIn s1 { pend := true, group := fun g =>
      { g with
        partdone := 0, drained := some id
        arch := { g.arch with hazards := g.arch.hazards ++ x.drainHazards o.regs } } }
    State.drive { s2 with drains := put s2.drains id (x.drainOp s2 o (rs.map (·.1)) none) } id driveFuel

/-- A memory instruction over its checked accesses (R261). A failing check in an epoch waits as the drain kind does
(R122). -/
def Issue.access (x : Issue) (o : MemOp) : State :=
  match failsOf o.reqs with
  | [] =>
    let rs := (passed o.reqs).map (·.2)
    if rs.any (fun r => r.1.drains) then x.startDrain o rs else x.cached o rs
  | fs => x.failIn x.s o.acc fs

/-! ### At the NMU (R82) -/

/-- Whether the head of a drained instruction waits for its NMU. -/
def DrainOp.atNmu (d : DrainOp) : Bool :=
  d.out.isNone && !d.batch.any (fun r => r.route == .peer) && d.batch.any (fun r => r.route == .near)

/-- MEMORY_SIDE_ACCESS: the next request of a drained instruction performs at its NMU (R75, R82), an MX block with its scale as
one (R133); while its channel sleeps or is being retired it waits at the slice (R80, R98). Where the instruction waits for something
else, it goes on as far as it can. -/
def execMemorySideAccess (id : Nat) (s : State) : Out :=
  match look s.drains id with
  | none => .next s
  | some d =>
    let t := lookD s.teams (lookD s.groups d.gid {}).team {}
    if d.atNmu ∧ s.mayAccess t d.batch then
      let p := s.readyBatch t d d.batch
      if p.2 then
        let q := p.1.performBatch t d d.batch
        .next (State.drive { q.1 with drains := put q.1.drains id q.2 } id driveFuel)
      else .next p.1
    else .next (s.drive id driveFuel)

/-! ### Accesses of one instruction at one moment -/

/-- A few accesses made ready where their instruction issues: ordinary lines obtained by the core, memory-side ones given to the NMU,
its channels ready, and counted there (R82). -/
def State.gotten (s : State) (core : Nat) (rs : List Req) : State × Bool :=
  let near := rs.filter (fun r => r.drains)
  let far := rs.filter (fun r => !r.drains)
  let a := s.obtained core far false
  let s1 := near.foldl (fun t r => t.takeRange r.loc r.size r.what.writes) a.1
  if near.any (fun r => !s1.rangeFree r.loc r.size r.what.writes) then (s1, false)
  else if near.any (fun r => !s1.belowReady r.loc r.size true) then (near.foldl (fun t r => t.chanUse r.loc) s1, false)
  else (near.foldl (fun t r => t.below r.loc r.size r.key true r.what.writes (some (leads near r))) s1, a.2 || s1.holdsFor core far false)

/-- Whether an access so made ready meets an uncorrectable granule. -/
def State.badRead (s : State) (core : Nat) (r : Req) : Bool := if r.drains then r.what.reads && s.isBad r.loc r.size else s.meetsBad core [r] r

/-! ### Loads and stores (R263, R265) -/

/-- Bytes of a SIZE code. -/
def sizeBytes (z : Nat) : Nat := 2 ^ z

/-- The registers a value of a SIZE code takes from RD (R262). -/
def sizeRegs (d z : Nat) : List Nat := span d (max 1 (sizeBytes z / 4))

/-- The pair or quad a value of a SIZE code takes. -/
def sizeWide (d z : Nat) : List (Nat × Nat) := if z ≤ 2 then [] else [(d, sizeBytes z / 4)]

/-- The bytes a store of a SIZE code takes from registers. -/
def Issue.storeBytes (x : Issue) (i d z : Nat) : List Byte :=
  ((sizeRegs d z).zipIdx.flatMap (fun (r : Nat × Nat) => toBytes 4 (x.v (r.2 + 1) i r.1).toNat)).take (sizeBytes z)

/-- The form of a load. -/
def loadForm (d i z f s : Nat) : Form :=
  { vr := [i], vw := sizeRegs d z, wide := sizeWide d z, varLat := true, flag := f, stall := s, mem := true }

/-- The form of a store. -/
def storeForm (d i z f s : Nat) : Form :=
  { vr := i :: sizeRegs d z, wide := sizeWide d z, varLat := true, flag := f, stall := s, mem := true }

/-- A load through a capability. -/
def loadCap (signed : Bool) (d c i z f s : Nat) (st : State) : Out :=
  issue (loadForm d i z f s) (fun x =>
    let n := sizeBytes z
    x.access
      { acc := .read, place := .plain signed, regs := sizeRegs d z
        reqs := x.pending.map (fun l =>
          (l, x.viaCap (x.g.cap c) l 0 l ((x.v 0 l i).toNat * n) n permR .read n .load)) }) st

/-- A load from scratch. -/
def loadScratch (signed : Bool) (d i z f s : Nat) (st : State) : Out :=
  issue (loadForm d i z f s) (fun x =>
    x.access
      { acc := .read, place := .plain signed, regs := sizeRegs d z
        reqs := x.pending.map (fun l => (l, x.viaScratch l (x.v 0 l i) (sizeBytes z) .load)) }) st

/-- LD (R263). -/
def execLd (d : Fin 32) (c : Fin 16) (i : Fin 32) (z : Fin 8) (f : Fin 16) (w : Fin 8) (s : State) : Out :=
  loadCap false d c i z f w s

/-- LD.s (R263). -/
def execLdS (d : Fin 32) (c : Fin 16) (i : Fin 32) (z : Fin 8) (f : Fin 16) (w : Fin 8) (s : State) : Out :=
  loadCap true d c i z f w s

/-- ST (R263). -/
def execSt (d : Fin 32) (c : Fin 16) (i : Fin 32) (z : Fin 8) (f : Fin 16) (w : Fin 8) (s : State) : Out :=
  issue (storeForm d i z f w) (fun x =>
    let n := sizeBytes z
    x.access
      { acc := .write
        reqs := x.pending.map (fun l =>
          (l, x.viaCap (x.g.cap c) l 0 l ((x.v 0 l i).toNat * n) n permW .write n (.store (x.storeBytes l d z)))) }) s

/-- LDS (R265). -/
def execLds (d i : Fin 32) (z : Fin 8) (f : Fin 16) (w : Fin 8) (s : State) : Out := loadScratch false d i z f w s

/-- LDS.s (R265). -/
def execLdsS (d i : Fin 32) (z : Fin 8) (f : Fin 16) (w : Fin 8) (s : State) : Out := loadScratch true d i z f w s

/-- STS (R265). -/
def execSts (d i : Fin 32) (z : Fin 8) (f : Fin 16) (w : Fin 8) (s : State) : Out :=
  issue (storeForm d i z f w) (fun x =>
    x.access
      { acc := .write
        reqs := x.pending.map (fun l =>
          (l, x.viaScratch l (x.v 0 l i) (sizeBytes z) (.store (x.storeBytes l d z)))) }) s

/-! ### MX blocks (R266 to R268) -/

/-- Pieces of a block, bytes of a piece and of a block, by SIZE (R267). -/
def mxShape (z : Nat) : Nat × Nat × Nat :=
  match z with
  | 5 => (8, 4, 32)
  | 6 => (8, 3, 24)
  | _ => (4, 4, 16)

/-- The lowest lane that names the same block. -/
def mxUnit (x : Issue) (i z l : Nat) : Nat :=
  let p := (mxShape z).1
  ((x.pending.find? (fun j => (x.v 0 j i).toNat / p == (x.v 0 l i).toNat / p))).getD l

/-- A lane's accesses to its piece and scale: the piece in two parts where it crosses a page. The block's first element
byte must be aligned to 8 (R260). -/
def Issue.mxReqs (x : Issue) (c i z l perm : Nat) (a : Access) (els : List Byte) (scale : Byte) : List (Nat × Checked) :=
  let (p, n, b) := mxShape z
  let k := (x.v 0 l i).toNat
  let off := k / p * b + k % p * n
  let ec := x.g.cap c
  let u := mxUnit x i z l
  let what (bs : List Byte) : What := match a with | .read => .load | _ => .store bs
  let first := min n (4096 - (ec.base + off) % 4096)
  let inBlock (k : Checked) : Checked := match k with | .ok (r, g) => .ok ({ r with block := true }, g) | .error e => .error e
  let whole : Checked :=
    match x.s.checkCap x.requester ec perm off n with
    | .error e => .error e
    | .ok gva =>
      let blk := gva - k % p * n
      if blk % 8 ≠ 0 then .error (.cause .misaligned (BitVec.ofNat 64 blk) (some ec.owner))
      else x.viaCap ec l 0 u off first perm a 1 (what (els.take first))
  (l, inBlock whole) ::
    (if first < n then [(l, inBlock (x.viaCap ec l 1 u (off + first) (n - first) perm a 1 (what (els.drop first))))] else []) ++
    [(l, inBlock (x.viaCap (x.g.cap (c + 1)) l 2 u (k / p) 1 perm a 1 (what [scale])))]

/-- LDMX (R266 to R268). -/
def execLdmx (d : Fin 32) (c : Fin 16) (i : Fin 32) (z : Fin 8) (f : Fin 16) (w : Fin 8) (s : State) : Out :=
  issue { vr := [i.val], vw := [d.val, d + 1], wide := [(d.val, 2)], varLat := true, flag := f, stall := w, mem := true } (fun x =>
    x.access
      { acc := .read, place := .mx z, regs := [d.val, d + 1]
        reqs := x.pending.flatMap (fun l => x.mxReqs c i z l permR .read [] 0) }) s

/-- STMX (R266 to R268). -/
def execStmx (d : Fin 32) (c : Fin 16) (i : Fin 32) (z : Fin 8) (f : Fin 16) (w : Fin 8) (s : State) : Out :=
  issue { vr := [i.val, d.val, d + 1], wide := [(d.val, 2)], varLat := true, flag := f, stall := w, mem := true } (fun x =>
    x.access
      { acc := .write
        reqs := x.pending.flatMap (fun l =>
          x.mxReqs c i z l permW .write (mxPack z (x.v 1 l d)) ((x.v 2 l (d + 1)).truncate 8)) }) s

/-! ### Prefetch (R269) -/

/-- PREF: read requests for the lanes whose access would pass every check, need no A update and meet no destination
range; every other lane's is dropped. Nothing else changes. -/
def execPref (c : Fin 16) (i : Fin 32) (z w : Fin 8) (s : State) : Out :=
  issue { vr := [i.val], stall := w, mem := true } (fun x =>
    let n := sizeBytes z
    let ok := (passed (x.act.map (fun l =>
      (l, x.s.checkAccess x.requester (x.g.cap c) ((x.v 0 l i).toNat * n) n permR .prefetch n l)))).filter (fun e =>
        let t := e.2.f.x
        !t.ms && (t.kind == .dram || t.kind == .host) &&
          (match freshWalk x.s x.team.ctx .read e.2.gva with | .ok f => f.ad.isNone | .error _ => false) &&
          (x.s.refuser { ctx := x.team.ctx, gva := e.2.gva, size := n, x := t } false).isNone)
    let rs := ok.map (fun e => { lane := e.1, unit := e.1, gva := e.2.gva, loc := outPlace e.2.f.x, size := n,
                                 key := x.s.serialOf e.2.f.x.key, x := some e.2.f.x, what := .load : Req })
    x.commitIn (x.s.obtainLines x.team.core (memLines rs) false true).1 {}) s

/-! ### Atomics (R278 to R280) -/

/-- Whether a request lies on a page an ATOMM performs on: memory-side (R280). -/
def memorySidePage (k : Checked) : Checked :=
  match k with
  | .ok (r, f) =>
    match r.x with
    | some x =>
      if x.ms ∨ x.kind = .notify then .ok (r, f)
      else .error (.cause .capPermission (BitVec.ofNat 64 r.gva) (some r.owner))
    | none => .ok (r, f)
  | .error e => .error e

/-- The registers of an atomic's operands from RD (R224). -/
def atomRegs (o d : Nat) (z : Bool) : List Nat :=
  span d ((if z then 2 else 1) * (if o = 1 then 2 else 1))

/-- A lane's value and comparand (R224). -/
def Issue.atomOperands (x : Issue) (l o d : Nat) (z : Bool) : DWord × DWord :=
  if z then (x.pair 1 l d, if o = 1 then x.pair 3 l (d + 2) else 0)
  else ((x.v 1 l d).zeroExtend 64, if o = 1 then (x.v 2 l (d + 1)).zeroExtend 64 else 0)

/-- The form of an atomic. -/
def atomForm (o d a f s : Nat) (z : Bool) : Form :=
  let rs := atomRegs o d z
  { vr := a :: rs, vw := if f < 12 then span d (if z then 2 else 1) else [], wide := if rs.length = 1 then [] else [(d, rs.length)],
    varLat := true, flag := f, stall := s, mem := true }

/-- The accesses of an atomic's lanes. -/
def Issue.atomReqs (x : Issue) (o c a d : Nat) (z mm : Bool) (perm : Nat) : List (Nat × Checked) :=
  let n := if z then 8 else 4
  x.pending.map (fun l =>
    let v := x.atomOperands l o d z
    (l, x.viaCap (x.g.cap c) l 0 l ((x.v 0 l a).toNat * n) n perm .atomic n (.atomic o z mm v.1 v.2)))

/-- ATOM (R278 to R280). -/
def execAtom (o : Fin 16) (z : Bool) (c : Fin 16) (a d : Fin 32) (f : Fin 16) (w : Fin 8) (s : State) : Out :=
  issue (atomForm o d a f w z) (fun x =>
    x.access
      { acc := .atomic, place := if f.val < 12 then .plain false else .none
        regs := if f.val < 12 then span d (if z then 2 else 1) else []
        reqs := x.atomReqs o c a d z false (permR + permW + permATOM) }) s

/-- ATOMM (R278 to R280): drained, on memory-side pages alone. -/
def execAtomm (o : Fin 16) (z : Bool) (c : Fin 16) (a d : Fin 32) (f : Fin 16) (w : Fin 8) (s : State) : Out :=
  issue { atomForm o d a f w z with drain := true } (fun x =>
    x.access
      { acc := .atomic, place := if f.val < 12 then .plain false else .none
        regs := if f.val < 12 then span d (if z then 2 else 1) else []
        reqs := (x.atomReqs o c a d z true (permR + permW + permATOM + permMS)).map (fun e => (e.1, memorySidePage e.2)) }) s

end Sys2Proof.Machine
end

