-- ==== Sys2Proof/Machine/CapInstr.lean ====
section
/-! DEFINITION. The capability instructions (R270 to R277). -/

namespace Sys2Proof.Machine

/-! ### Shared rules (R270) -/

/-- The form of an instruction that writes a capability register: it drains and may not stand in a region (R48, R166). -/
def capForm (sr : List Nat) (f w : Nat) (mem : Bool) : Form :=
  { sr := sr, flag := f, stall := w, varLat := decide (f < 12), rule := .forbidden, drain := true, mem := mem }

/-- A failure of the whole convoy: every active lane fails alike. -/
def Issue.failWhole (x : Issue) (s : State) (a : Access) (f : Fail) : State := x.failIn s a (x.act.map (fun i => (i, f)))

/-- A destination of c0 outside trap mode is ILLEGAL_INSTRUCTION; otherwise the register is written or the failure
reported (R40, R270). -/
def Issue.writeCap (x : Issue) (d : Nat) (owner : Nat) (r : Except (Cause × Nat) Cap) : State :=
  if d = 0 ∧ x.g.trapMode = false then x.trap .illegalInstruction x.s.fetched x.act
  else
    match r with
    | .error (k, a) => x.failWhole x.s .read (.cause k (BitVec.ofNat 64 a) (some owner))
    | .ok c => x.commit { group := fun g => g.setCap d c }

/-- The access of CLOAD or CSTORE: one granule, at an index from an s-register. -/
def Issue.granuleReq (x : Issue) (c i perm : Nat) (a : Access) (w : What) : Checked :=
  x.viaCap (x.g.cap c) x.low 0 0 ((x.sreg 0 i).toNat * 16) 16 perm a 16 w

/-! ### The instructions -/

/-- CLOAD (R271). -/
def execCload (d c : Fin 16) (i : Fin 32) (f : Fin 16) (w : Fin 8) (s : State) : Out :=
  issue (capForm [i] f w true) (fun x =>
    if d.val = 0 ∧ x.g.trapMode = false then x.trap .illegalInstruction x.s.fetched x.act
    else if x.pending.isEmpty then x.commit { group := fun g => { g with partdone := 0 } }
    else
      match x.granuleReq c i permR .capLoad .load with
      | .error e => x.failWhole x.s .capLoad e
      | .ok (r, fd) =>
        let (s1, held) := x.s.gotten x.team.core [r]
        if held = false then x.awaiting s1 [r]
        else if s1.badRead x.team.core r then
          x.failWhole (s1.recordReads x.team [r]) .capLoad (.cause .machineCheck r.checkAddr none)
        else
          let v : Cap := { bits := BitVec.ofNat 128 (ofBytes (s1.mem.getsUnder r.key r.loc 16)), tag := s1.mem.tag (granule r.loc) }
          let v1 : Cap := { v with tag := v.tag && v.owner == (x.g.cap 0).owner }
          x.commitIn (s1.installAll fd.toList) { group := fun g => { g.setCap d v1 with partdone := 0 } }) s

/-- A capability stored with its tag, as one access (R39, R272). -/
def State.storeCap (s : State) (gid core : Nat) (r : Req) (c : Cap) : State :=
  let cells := (cellsAt r.loc (toBytes 16 c.bits.toNat)).map (fun e => (r.key, e.1, e.2))
  let s1 := if r.drains then s.perform (some gid) r.key (underOne cells r.key) else s.performCells gid core cells
  { s1 with mem := s1.mem.setTag (granule r.loc) c.tag }

/-- CSTORE (R272). -/
def execCstore (d c : Fin 16) (i : Fin 32) (f : Fin 16) (w : Fin 8) (s : State) : Out :=
  issue { sr := [i.val], flag := f, stall := w, varLat := decide (f.val < 12), mem := true } (fun x =>
    let v := x.g.cap d
    let bytes := toBytes 16 v.bits.toNat
    let fail (e : Fail) : State := x.failWhole x.s .capStore e
    if x.pending.isEmpty then x.commit { group := fun g => { g with partdone := 0 } }
    else
    match x.granuleReq c i permW .capStore (.store bytes) with
    | .error e => fail e
    | .ok (r, fd) =>
      if v.tag ∧ v.scope = 0 then fail (.cause .capScope (BitVec.ofNat 64 r.gva) (some r.owner))
      else
        match x.g.epoch with
        | none =>
          let (s1, held) := x.s.gotten x.team.core [r]
          if held = false then x.awaiting s1 [r]
          else x.commitIn ((s1.installAll fd.toList).storeCap x.gid x.team.core r v) { group := fun g => { g with partdone := 0 } }
        | some _ =>
          if r.drains then x.stall
          else if x.mustReplay r then x.s.replay x.gid x.mask
          else if x.hasRoom [] 1 then
            let s1 := x.s.obtainAll x.team.core [r] true
            let b : Buffered := { line := lineOf r.loc, cells := cellsAt r.loc bytes, tag := some (granule r.loc, v.tag), key := r.key }
            x.commitIn (s1.installAll fd.toList)
              { pend := true, group := fun g => { g with epoch := g.epoch.map (fun e => e.after x.low [] [b] [r] f) } }
          else x.stall) s

/-- CNARROW (R273). -/
def execCnarrow (d c : Fin 16) (i : Fin 32) (w : Fin 8) (s : State) : Out :=
  issue (capForm (span i 4) 15 w false) (fun x =>
    let src := x.g.cap c
    x.writeCap d src.owner (narrow src (x.spair 0 i).toNat (x.spair 2 (i + 2)).toNat)) s

/-- CRESTR (R274). -/
def execCrestr (d c : Fin 16) (i : Fin 32) (w : Fin 8) (s : State) : Out :=
  issue (capForm [i] 15 w false) (fun x =>
    let src := x.g.cap c
    x.writeCap d src.owner (restrict src (x.sreg 0 i).toNat x.team.cluster (x.s.inScope x.requester src))) s

/-- CSEAL (R276). -/
def execCseal (d c a : Fin 16) (w : Fin 8) (s : State) : Out :=
  issue (capForm [] 15 w false) (fun x => x.writeCap d (x.g.cap c).owner (sealCap (x.g.cap c) (x.g.cap a))) s

/-- CSEAL.un (R276). -/
def execCsealUn (d c a : Fin 16) (w : Fin 8) (s : State) : Out :=
  issue (capForm [] 15 w false) (fun x => x.writeCap d (x.g.cap c).owner (unsealCap (x.g.cap c) (x.g.cap a))) s

/-- CGET (R275): one field, whatever the tag. -/
def execCget (d : Fin 32) (c : Fin 16) (z w : Fin 8) (s : State) : Out :=
  issue { vw := [d.val], lat := 6, stall := w } (fun x => x.commit { v := fun _ => [(d.val, (x.g.cap c).get z)] }) s

/-- A CTEST: a predicate per lane, latency 6. -/
def ctest (p w : Nat) (vr : List Nat) (f : Issue → Nat → Bool) (s : State) : Out :=
  issue { vr := vr, pw := [p], lat := 6, stall := w } (fun x => x.commit { p := fun i => [(p, f x i)] }) s

/-- CTEST.tag (R277). -/
def execCtestTag (p : Fin 4) (c : Fin 16) (w : Fin 8) (s : State) : Out := ctest p w [] (fun x _ => (x.g.cap c).tag) s

/-- CTEST.unsealed (R277). -/
def execCtestUnsealed (p : Fin 4) (c : Fin 16) (w : Fin 8) (s : State) : Out :=
  ctest p w [] (fun x _ => (x.g.cap c).tag && (x.g.cap c).otype == 0) s

/-- CTEST.sub (R277). -/
def execCtestSub (p : Fin 4) (c k : Fin 16) (w : Fin 8) (s : State) : Out :=
  ctest p w [] (fun x _ => (x.g.cap c).subset (x.g.cap k)) s

/-- CTEST.in (R277). -/
def execCtestIn (p : Fin 4) (c : Fin 16) (i : Fin 32) (z w : Fin 8) (s : State) : Out :=
  ctest p w [i.val] (fun x l =>
    let k := x.g.cap c
    let n := sizeBytes z
    k.tag && decide (k.base + (x.v 0 l i).toNat * n + n ≤ k.limit)) s

end Sys2Proof.Machine
end

