-- ==== Sys2Proof/WellFormed.lean ====
section
/-! DEFINITION. Which instructions the opcode map permits: the field values that R209 to R230 and R347 call
ILLEGAL_INSTRUCTION, ENGINE_FAULT or BAD_FIELD when a word holds them are refused here, once, and the decoder asks
here. Machine events carry no encoded field and are always well formed. -/

namespace Sys2Proof

/-- FSET of an instruction that may name a flag: 0 to 11, or 15 for none (R215). -/
def flagOk (f : Fin 16) : Bool := decide (f.val < 12 ∨ f = 15)

/-- FSET of an instruction of variable latency, which must name a flag (R215). -/
def flagNamed (f : Fin 16) : Bool := decide (f.val < 12)

/-- A pair stands at an even number (R182, R218, R223). -/
def even {n : Nat} (r : Fin n) : Bool := decide (r.val % 2 = 0)

/-- SIZE 0 to 4, with a pair or quad where the size asks for one (R182, R220). -/
def sizeRegs (z : Fin 8) (d : Fin 32) : Bool :=
  decide (z.val ≤ 2 ∨ (z = 3 ∧ d.val % 2 = 0) ∨ (z = 4 ∧ d.val % 4 = 0))

/-- The CSR numbers the CSR map assigns (R306). -/
def csrAssigned (c : Fin 64) : Bool := decide (c.val ≤ 0x0B ∨ (0x10 ≤ c.val ∧ c.val ≤ 0x17))

/-- Operation, size and value registers of ATOM and ATOMM (R224): 0 to 14, some of 32 bits only, CAS with a pair or
a quad, other 64-bit operations with a pair. -/
def atomOk (o : Fin 16) (z : Bool) (d : Fin 32) : Bool :=
  decide (o ≠ 15) &&
  (!z || decide (o ≠ 3 ∧ o.val ≤ 10)) &&
  (if o = 1 then (if z then decide (d.val % 4 = 0) else decide (d.val % 2 = 0))
   else (!z || decide (d.val % 2 = 0)))

/-- MCFG's two formats (R228): codes 0 to 13, both MX or neither, INT8 and MXINT8 only with themselves. -/
def matrixFormats (a b : Fin 16) : Bool :=
  decide (a.val ≤ 13 ∧ b.val ≤ 13 ∧ (8 ≤ a.val ↔ 8 ≤ b.val) ∧ (a = 7 ↔ b = 7) ∧ (a = 13 ↔ b = 13))

/-- A well-formed instruction: every field holds a value that its row permits. -/
def Instr.wf (i : Instr) : Bool :=
  match i with
  | .add _ _ _ f _ => flagOk f
  | .sub _ _ _ f _ => flagOk f
  | .mul _ _ _ f _ => flagOk f
  | .mulhi _ _ _ f _ => flagOk f
  | .mulhiUns _ _ _ f _ => flagOk f
  | .mad _ _ _ f _ => flagOk f
  | .and _ _ _ f _ => flagOk f
  | .or _ _ _ f _ => flagOk f
  | .xor _ _ _ f _ => flagOk f
  | .not _ _ f _ => flagOk f
  | .shl _ _ _ f _ => flagOk f
  | .shr _ _ _ f _ => flagOk f
  | .sar _ _ _ f _ => flagOk f
  | .min _ _ _ f _ => flagOk f
  | .minUns _ _ _ f _ => flagOk f
  | .max _ _ _ f _ => flagOk f
  | .maxUns _ _ _ f _ => flagOk f
  | .abs _ _ f _ => flagOk f
  | .clz _ _ f _ => flagOk f
  | .popc _ _ f _ => flagOk f
  | .brev _ _ f _ => flagOk f
  | .bfe _ _ _ f _ => flagOk f
  | .bfeUns _ _ _ f _ => flagOk f
  | .bfi _ _ _ f _ => flagOk f
  | .sel p _ _ _ f _ => flagOk f && decide (p ≠ 0)
  | .cmp _ _ _ _ f _ => flagOk f
  | .mov _ _ f _ => flagOk f
  | .add64 d a b f _ => flagOk f && even d && even a && even b
  | .sub64 d a b f _ => flagOk f && even d && even a && even b
  | .mad64 d a b f _ => flagOk f && even d && even a && even b
  | .fadd _ _ _ f _ => flagOk f
  | .fsub _ _ _ f _ => flagOk f
  | .fmul _ _ _ f _ => flagOk f
  | .ffma _ _ _ f _ => flagOk f
  | .fmin _ _ _ f _ => flagOk f
  | .fmax _ _ _ f _ => flagOk f
  | .fcmp _ _ _ _ f _ => flagOk f
  | .frcp _ _ f _ => flagNamed f
  | .frsq _ _ f _ => flagNamed f
  | .fsqrt _ _ f _ => flagNamed f
  | .fex2 _ _ f _ => flagNamed f
  | .flg2 _ _ f _ => flagNamed f
  | .fsin _ _ f _ => flagNamed f
  | .fcos _ _ f _ => flagNamed f
  | .hadd2F16 _ _ _ f _ => flagOk f
  | .hadd2Bf16 _ _ _ f _ => flagOk f
  | .hmul2F16 _ _ _ f _ => flagOk f
  | .hmul2Bf16 _ _ _ f _ => flagOk f
  | .hfma2F16 _ _ _ f _ => flagOk f
  | .hfma2Bf16 _ _ _ f _ => flagOk f
  | .dot4S8 _ _ _ f _ => flagOk f
  | .dot4E4m3 _ _ _ f _ => flagOk f
  | .dot4E5m2 _ _ _ f _ => flagOk f
  | .dot8S4 _ _ _ f _ => flagOk f
  | .dot8E2m1 _ _ _ f _ => flagOk f
  | .cvt c _ _ f _ => flagOk f && decide (c.val ≤ 26)
  | .cvtsr c _ _ f _ => flagOk f && decide (c.val ≤ 8 ∨ c.val = 25 ∨ c.val = 26)
  | .pack _ _ _ f _ => flagOk f
  | .unpk e _ _ f _ => flagOk f && decide (if e.val / 8 % 2 = 0 then e.val % 8 ≤ 3 else e.val % 8 ≤ 1)
  | .addU _ _ _ _ => true
  | .subU _ _ _ _ => true
  | .mulU _ _ _ _ => true
  | .mulhiU _ _ _ _ => true
  | .mulhiUnsU _ _ _ _ => true
  | .madU _ _ _ _ => true
  | .andU _ _ _ _ => true
  | .orU _ _ _ _ => true
  | .xorU _ _ _ _ => true
  | .notU _ _ _ => true
  | .shlU _ _ _ _ => true
  | .shrU _ _ _ _ => true
  | .sarU _ _ _ _ => true
  | .minU _ _ _ _ => true
  | .minUnsU _ _ _ _ => true
  | .maxU _ _ _ _ => true
  | .maxUnsU _ _ _ _ => true
  | .absU _ _ _ => true
  | .clzU _ _ _ => true
  | .popcU _ _ _ => true
  | .brevU _ _ _ => true
  | .bfeU _ _ _ _ => true
  | .bfeUnsU _ _ _ _ => true
  | .bfiU _ _ _ _ => true
  | .selU p _ _ _ _ => decide (p ≠ 0)
  | .cmpU _ _ _ _ _ => true
  | .movU _ _ _ => true
  | .add64U d a b _ => even d && even a && even b
  | .sub64U d a b _ => even d && even a && even b
  | .mad64U d a b _ => even d && even a && even b
  | .faddU _ _ _ _ => true
  | .fsubU _ _ _ _ => true
  | .fmulU _ _ _ _ => true
  | .ffmaU _ _ _ _ => true
  | .fminU _ _ _ _ => true
  | .fmaxU _ _ _ _ => true
  | .fcmpU _ _ _ _ _ => true
  | .hadd2F16U _ _ _ _ => true
  | .hadd2Bf16U _ _ _ _ => true
  | .hmul2F16U _ _ _ _ => true
  | .hmul2Bf16U _ _ _ _ => true
  | .hfma2F16U _ _ _ _ => true
  | .hfma2Bf16U _ _ _ _ => true
  | .dot4S8U _ _ _ _ => true
  | .dot4E4m3U _ _ _ _ => true
  | .dot4E5m2U _ _ _ _ => true
  | .dot8S4U _ _ _ _ => true
  | .dot8E2m1U _ _ _ _ => true
  | .packU _ _ _ _ => true
  | .addI _ _ _ => true
  | .mulI _ _ _ => true
  | .andI _ _ _ => true
  | .orI _ _ _ => true
  | .xorI _ _ _ => true
  | .shlI _ _ _ => true
  | .shrI _ _ _ => true
  | .sarI _ _ _ => true
  | .movI _ _ _ => true
  | .movHi _ _ _ => true
  | .faddI _ _ _ => true
  | .fmulI _ _ _ => true
  | .movF32 _ _ _ => true
  | .hadd2F16I _ _ _ => true
  | .hmul2F16I _ _ _ => true
  | .movE4m3x2 _ _ _ => true
  | .addA16 d r => decide (¬(d = 0 ∧ r = 0))
  | .subA16 _ _ => true
  | .mulA16 _ _ => true
  | .andA16 _ _ => true
  | .orA16 _ _ => true
  | .xorA16 _ _ => true
  | .shlA16 _ _ => true
  | .shrA16 _ _ => true
  | .minA16 _ _ => true
  | .maxA16 _ _ => true
  | .movA16 _ _ => true
  | .faddA16 _ _ => true
  | .fmulA16 _ _ => true
  | .fminA16 _ _ => true
  | .fmaxA16 _ _ => true
  | .ffmaA16 _ _ => true
  | .waitf m => decide (m ≠ 0)
  | .nop => true
  | .yield => true
  | .ret8 => true
  | .ret16 => true
  | .mend => true
  | .exit => true
  | .fence => true
  | .stall n => decide (n ≠ 0)
  | .ld d _ _ z f _ => flagNamed f && sizeRegs z d
  | .ldS _ _ _ z f _ => flagNamed f && decide (z.val ≤ 1)
  | .st d _ _ z f _ => flagOk f && sizeRegs z d
  | .lds d _ z f _ => flagNamed f && sizeRegs z d
  | .ldsS _ _ z f _ => flagNamed f && decide (z.val ≤ 1)
  | .sts d _ z f _ => flagOk f && sizeRegs z d
  | .ldmx d c _ z f _ => flagNamed f && decide (5 ≤ z.val) && decide (c.val ≤ 14) && even d
  | .stmx d c _ z f _ => flagOk f && decide (5 ≤ z.val) && decide (c.val ≤ 14) && even d
  | .pref _ _ z _ => decide (z.val ≤ 4)
  | .cload d _ _ f _ => flagOk f && decide (d ≠ 15)
  | .cstore _ _ _ f _ => flagOk f
  | .cnarrow d _ i _ => decide (d ≠ 15) && decide (i.val % 4 = 0)
  | .crestr d _ _ _ => decide (d ≠ 15)
  | .cget _ _ z _ => decide (z.val ≤ 6)
  | .cseal d _ _ _ => decide (d ≠ 15)
  | .csealUn d _ _ _ => decide (d ≠ 15)
  | .ctestTag _ _ _ => true
  | .ctestUnsealed _ _ _ => true
  | .ctestSub _ _ _ _ => true
  | .ctestIn _ _ _ z _ => decide (z.val ≤ 4)
  | .bra _ _ _ => true
  | .braN p _ _ => decide (p ≠ 0)
  | .brl _ _ _ => true
  | .call8 _ _ => true
  | .call16 _ _ => true
  | .jmp _ _ => true
  | .meld _ _ _ => true
  | .shflIdx _ _ _ _ f _ => flagOk f
  | .shflUp _ _ _ _ f _ => flagOk f
  | .shflDown _ _ _ _ f _ => flagOk f
  | .shflXor _ _ _ _ f _ => flagOk f
  | .voteAll _ _ f _ => flagOk f
  | .voteAny _ _ f _ => flagOk f
  | .voteBallot d _ f _ => flagOk f && even d
  | .redux o _ _ f _ => flagOk f && decide (o.val ≤ 10)
  | .matchAny d _ f _ => flagOk f && even d
  | .matchAll _ _ f _ => flagOk f
  | .fork _ q _ => decide (q ≠ 0)
  | .copy x _ _ f _ => flagOk f && decide (x ≠ 63)
  | .copyq _ _ => true
  | .chain _ _ _ f _ => flagOk f
  | .coll _ _ f _ => flagOk f
  | .post _ f _ => flagOk f
  | .ecancel _ _ => true
  | .estat _ _ => true
  | .sleept t _ => even t
  | .waitc _ _ _ _ _ => true
  | .bar _ m _ => decide (m ≠ 0)
  | .arrive _ m _ => decide (m ≠ 0)
  | .await _ m _ => decide (m ≠ 0)
  | .rvz q _ => decide (q ≠ 0)
  | .dqpush _ m _ => decide (m ≠ 0)
  | .dqpop _ _ => true
  | .csrr c d _ => csrAssigned c && even d
  | .csrw c a _ => csrAssigned c && even a
  | .trap _ _ => true
  | .tret => true
  | .spill n _ f _ => flagOk f && decide (1 ≤ n.val) && decide (n.val ≤ 216)
  | .fill n _ f _ => flagOk f && decide (1 ≤ n.val) && decide (n.val ≤ 216)
  | .redx y t _ _ f _ => flagOk f && decide (y.val ≤ 2) && decide (t.val ≤ 13)
  | .movS _ _ _ => true
  | .atom o z _ _ d f _ => flagOk f && atomOk o z d
  | .atomm o z _ _ d f _ => flagOk f && atomOk o z d
  | .mcfg afmt bfmt kb => matrixFormats afmt bfmt && decide (kb ≠ 0)
  | .mload _ _ _ => true
  | .mma _ _ => true
  | .mdrain _ _ rm tr trm _ toff _ => decide (rm.val ≤ 4) && decide (trm.val ≤ 4) && (tr || decide (toff = 0))
  | .mwait kind _ addr => decide (kind.val ≤ 1) && decide (kind = 1 ∨ addr = 0)
  | .mstep back count _ => decide (back ≠ 0 ∨ count = 0)
  | .chainFadd _ a b => decide (a ≠ 15) && decide (b ≠ 15)
  | .chainFsub _ a b => decide (a ≠ 15) && decide (b ≠ 15)
  | .chainFmul _ a b => decide (a ≠ 15) && decide (b ≠ 15)
  | .chainFfma _ a b c => decide (a ≠ 15) && decide (b ≠ 15) && decide (c ≠ 15)
  | .chainFmin _ a b => decide (a ≠ 15) && decide (b ≠ 15)
  | .chainFmax _ a b => decide (a ≠ 15) && decide (b ≠ 15)
  | .chainFex2 _ a => decide (a ≠ 15)
  | .chainFlg2 _ a => decide (a ≠ 15)
  | .chainFrcp _ a => decide (a ≠ 15)
  | .chainFrsq _ a => decide (a ≠ 15)
  | .chainFsqrt _ a => decide (a ≠ 15)
  | .chainSel _ a b c => decide (a ≠ 15) && decide (b ≠ 15) && decide (c ≠ 15)
  | .sumr _ a => decide (a ≠ 15)
  | .maxr _ a => decide (a ≠ 15)
  | .outq _ a m k => decide (a ≠ 15) && decide (m.val ≤ 4) && decide (k ≠ 15)
  | .chainMov _ a => decide (a ≠ 15)
  | .send a => decide (a.dt ≠ 3)
  | .recv a => decide (a.dt ≠ 3)
  | .recvadd a => decide (a.dt ≠ 3)
  | .waitw a => decide (a.dt ≠ 3)
  | .signal a => decide (a.dt ≠ 3)
  | .sparse a => decide (a.dt ≠ 3)
  | .recvsparse a => decide (a.dt ≠ 3)
  | .endStep a => decide (a.dt ≠ 3)
  | .descriptorRelease _ => true
  | .engineOperationCompletion _ => true
  | .epochCommit _ => true
  | .tokenHoldExpiry _ => true
  | .pathRotation _ _ => true
  | .sleeptWake _ _ => true
  | .waitcReread _ _ => true
  | .read _ _ => true
  | .own _ _ => true
  | .grant _ _ => true
  | .invalidation _ _ => true
  | .recall _ _ => true
  | .acknowledgement _ _ => true
  | .evictionNotice _ _ => true
  | .writeBack _ _ _ => true
  | .data _ => true
  | .ack _ => true
  | .retry _ _ => true
  | .retryReissue _ => true
  | .error _ => true
  | .refresh _ _ _ => true
  | .powerDown _ => true
  | .selfRefresh _ => true
  | .powerStateExit _ => true
  | .memorySideAccess _ => true
  | .nmuCommand _ _ => true
  | .partialSum _ => true
  | .snpdata _ => true
  | .snpinv _ => true
  | .snpcur _ => true
  | .cxlCacheResponse _ _ _ => true
  | .cxlMemRead _ => true
  | .cxlMemWrite _ _ => true
  | .bisnpAnswer _ => true
  | .epochEnd _ => true
  | .chretireGo _ => true
  | .retirementSwitch _ => true
  | .backgroundSweep _ => true
  | .notifyStore _ _ _ _ => true
  | .queueMap _ _ => true
  | .queueUnmap _ _ => true
  | .nopCommand _ => true
  | .launch _ _ _ => true
  | .launchi _ _ _ _ => true
  | .waitmem _ _ _ _ => true
  | .write _ _ _ => true
  | .branch _ _ _ _ => true
  | .loop _ _ _ => true
  | .qprio _ _ _ => true
  | .process _ _ _ => true
  | .kill _ _ _ => true
  | .invS1Va _ _ _ _ _ _ => true
  | .invS1Asid _ _ _ => true
  | .invS2Gpa _ _ _ _ => true
  | .invFn _ _ => true
  | .invPart _ => true
  | .invalidationCompletion _ _ => true
  | .biasflip _ _ _ _ _ => true
  | .deferred _ _ => true
  | .migrate64k _ _ _ _ _ _ => true
  | .cancel _ _ => true
  | .admission _ => true
  | .ageing _ _ => true
  | .eviction _ _ => true
  | .sliceEnd _ => true
  | .staging _ => true
  | .exchange _ => true
  | .contextWriteBack _ => true
  | .fqrespRetry _ _ _ => true
  | .fqrespDeny _ _ _ => true
  | .fqtailWrite _ _ => true
  | .peerRd _ => true
  | .peerWr _ => true
  | .peerAtom _ => true
  | .peerAtomm _ => true
  | .launchPacket _ => true
  | .cdata _ => true
  | .clear _ => true
  | .sparseFlit _ => true
  | .spend _ => true
  | .peerData _ _ => true
  | .peerAck _ => true
  | .peerError _ _ => true
  | .peerRetry _ _ => true
  | .resend _ => true
  | .moved _ => true
  | .movedReread _ => true
  | .linkTimeout _ => true
  | .portDown _ => true
  | .vdnTableWrite _ _ => true
  | .migctlGo _ _ => true
  | .migctlStop _ => true
  | .migctlAbort _ => true
  | .precopyRoundEnd _ _ => true
  | .governorWindow _ => true
  | .migrationDataWrite _ => true
  | .imageWrite _ => true
  | .carriedResultWrite _ => true
  | .install _ => true
  | .switch _ => true
  | .resume _ => true
  | .forwardingEnd _ => true
  | .partcluWrite _ _ => true
  | .partcfgWrite _ _ => true
  | .keyinstall _ _ => true
  | .keyretire _ _ => true
  | .attest _ _ => true
  | .seal _ _ => true
  | .unlock _ _ => true
  | .fwload _ _ => true
  | .fwcommit _ _ => true
  | .migkey _ _ => true
  | .tokenExpiry _ => true
  | .breakpointArm _ _ _ => true
  | .getVersion => true
  | .getCapabilities => true
  | .negotiateAlgorithms _ => true
  | .getDigests => true
  | .getCertificate => true
  | .challenge _ => true
  | .getMeasurements => true
  | .keyExchange _ => true
  | .finish _ => true
  | .query => true
  | .keyProg _ _ => true
  | .kSetGo _ => true
  | .kSetStop _ => true
  | .pwrcapWrite _ => true
  | .drawWindow _ => true
  | .powerCapWindow => true
  | .droop _ => true
  | .thermal _ _ => true
  | .patrolScrub _ => true
  | .rascntWrite _ _ => true
  | .warmReset => true
  | .coldReset => true
  | .registerWrite _ _ => true
  | .portRetrain _ => true
  | .dieBelow95c _ => true
  | .droopEnd _ => true

end Sys2Proof
end

