-- ==== Sys2Proof/Decode.lean ====
section
/-! DEFINITION. From bits to instructions and back. Each class is decoded by its operation field; a field stated as
"0" must be 0 (R209), the three ignored-must-be-zero fields are not looked at (R210), and the values a field may hold
are those of `Instr.wf`. The encoder after it is written from the same tables. -/

namespace Sys2Proof

/-- Bits [lo + k - 1 : lo] of w. -/
def part (w lo k : Nat) : Nat := w / 2 ^ lo % 2 ^ k

/-- The field of width log2 n at bit lo of w. -/
def fld (w lo n : Nat) [NeZero n] : Fin n := Fin.ofNat n (w / 2 ^ lo)

/-- An 8-bit s-index or count split into five bits at lo and three bits at hi (R223). -/
def fld2 (w lo hi : Nat) : Fin 256 := Fin.ofNat 256 (part w lo 5 + 32 * part w hi 3)

/-- The n-bit field at bit lo of w. -/
def bv (w lo n : Nat) : BitVec n := BitVec.ofNat n (w / 2 ^ lo)

/-- Bit lo of w. -/
def bit (w lo : Nat) : Bool := decide (part w lo 1 = 1)

/-- The R class by its operation field (R214 and its table). -/
def rawDecodeR (w : Nat) : Option Instr :=
  match part w 11 6 with
  | 0 => some (.add (fld w 17 32) (fld w 22 32) (fld w 27 32) (fld w 7 16) (fld w 1 8))
  | 1 => some (.sub (fld w 17 32) (fld w 22 32) (fld w 27 32) (fld w 7 16) (fld w 1 8))
  | 2 => some (.mul (fld w 17 32) (fld w 22 32) (fld w 27 32) (fld w 7 16) (fld w 1 8))
  | 3 => some (.mulhi (fld w 17 32) (fld w 22 32) (fld w 27 32) (fld w 7 16) (fld w 1 8))
  | 4 => some (.mulhiUns (fld w 17 32) (fld w 22 32) (fld w 27 32) (fld w 7 16) (fld w 1 8))
  | 5 => some (.mad (fld w 17 32) (fld w 22 32) (fld w 27 32) (fld w 7 16) (fld w 1 8))
  | 6 => some (.and (fld w 17 32) (fld w 22 32) (fld w 27 32) (fld w 7 16) (fld w 1 8))
  | 7 => some (.or (fld w 17 32) (fld w 22 32) (fld w 27 32) (fld w 7 16) (fld w 1 8))
  | 8 => some (.xor (fld w 17 32) (fld w 22 32) (fld w 27 32) (fld w 7 16) (fld w 1 8))
  | 9 => if part w 27 5 = 0 then some (.not (fld w 17 32) (fld w 22 32) (fld w 7 16) (fld w 1 8))
      else none
  | 10 => some (.shl (fld w 17 32) (fld w 22 32) (fld w 27 32) (fld w 7 16) (fld w 1 8))
  | 11 => some (.shr (fld w 17 32) (fld w 22 32) (fld w 27 32) (fld w 7 16) (fld w 1 8))
  | 12 => some (.sar (fld w 17 32) (fld w 22 32) (fld w 27 32) (fld w 7 16) (fld w 1 8))
  | 13 => some (.min (fld w 17 32) (fld w 22 32) (fld w 27 32) (fld w 7 16) (fld w 1 8))
  | 14 => some (.minUns (fld w 17 32) (fld w 22 32) (fld w 27 32) (fld w 7 16) (fld w 1 8))
  | 15 => some (.max (fld w 17 32) (fld w 22 32) (fld w 27 32) (fld w 7 16) (fld w 1 8))
  | 16 => some (.maxUns (fld w 17 32) (fld w 22 32) (fld w 27 32) (fld w 7 16) (fld w 1 8))
  | 17 => if part w 27 5 = 0 then some (.abs (fld w 17 32) (fld w 22 32) (fld w 7 16) (fld w 1 8))
      else none
  | 18 => if part w 27 5 = 0 then some (.clz (fld w 17 32) (fld w 22 32) (fld w 7 16) (fld w 1 8))
      else none
  | 19 => if part w 27 5 = 0 then some (.popc (fld w 17 32) (fld w 22 32) (fld w 7 16) (fld w 1 8))
      else none
  | 20 => if part w 27 5 = 0 then some (.brev (fld w 17 32) (fld w 22 32) (fld w 7 16) (fld w 1 8))
      else none
  | 21 => some (.bfe (fld w 17 32) (fld w 22 32) (fld w 27 32) (fld w 7 16) (fld w 1 8))
  | 22 => some (.bfeUns (fld w 17 32) (fld w 22 32) (fld w 27 32) (fld w 7 16) (fld w 1 8))
  | 23 => some (.bfi (fld w 17 32) (fld w 22 32) (fld w 27 32) (fld w 7 16) (fld w 1 8))
  | 24 => some (.sel 1 (fld w 17 32) (fld w 22 32) (fld w 27 32) (fld w 7 16) (fld w 1 8))
  | 25 => some (.sel 2 (fld w 17 32) (fld w 22 32) (fld w 27 32) (fld w 7 16) (fld w 1 8))
  | 26 => some (.sel 3 (fld w 17 32) (fld w 22 32) (fld w 27 32) (fld w 7 16) (fld w 1 8))
  | 27 => some (.cmp (fld w 19 8) (fld w 17 4) (fld w 22 32) (fld w 27 32) (fld w 7 16) (fld w 1 8))
  | 28 => if part w 27 5 = 0 then some (.mov (fld w 17 32) (fld w 22 32) (fld w 7 16) (fld w 1 8))
      else none
  | 29 => some (.add64 (fld w 17 32) (fld w 22 32) (fld w 27 32) (fld w 7 16) (fld w 1 8))
  | 30 => some (.sub64 (fld w 17 32) (fld w 22 32) (fld w 27 32) (fld w 7 16) (fld w 1 8))
  | 31 => some (.mad64 (fld w 17 32) (fld w 22 32) (fld w 27 32) (fld w 7 16) (fld w 1 8))
  | 32 => some (.fadd (fld w 17 32) (fld w 22 32) (fld w 27 32) (fld w 7 16) (fld w 1 8))
  | 33 => some (.fsub (fld w 17 32) (fld w 22 32) (fld w 27 32) (fld w 7 16) (fld w 1 8))
  | 34 => some (.fmul (fld w 17 32) (fld w 22 32) (fld w 27 32) (fld w 7 16) (fld w 1 8))
  | 35 => some (.ffma (fld w 17 32) (fld w 22 32) (fld w 27 32) (fld w 7 16) (fld w 1 8))
  | 36 => some (.fmin (fld w 17 32) (fld w 22 32) (fld w 27 32) (fld w 7 16) (fld w 1 8))
  | 37 => some (.fmax (fld w 17 32) (fld w 22 32) (fld w 27 32) (fld w 7 16) (fld w 1 8))
  | 38 => some (.fcmp (fld w 19 8) (fld w 17 4) (fld w 22 32) (fld w 27 32) (fld w 7 16) (fld w 1 8))
  | 39 => if part w 27 5 = 0 then some (.frcp (fld w 17 32) (fld w 22 32) (fld w 7 16) (fld w 1 8))
      else none
  | 40 => if part w 27 5 = 0 then some (.frsq (fld w 17 32) (fld w 22 32) (fld w 7 16) (fld w 1 8))
      else none
  | 41 => if part w 27 5 = 0 then some (.fsqrt (fld w 17 32) (fld w 22 32) (fld w 7 16) (fld w 1 8))
      else none
  | 42 => if part w 27 5 = 0 then some (.fex2 (fld w 17 32) (fld w 22 32) (fld w 7 16) (fld w 1 8))
      else none
  | 43 => if part w 27 5 = 0 then some (.flg2 (fld w 17 32) (fld w 22 32) (fld w 7 16) (fld w 1 8))
      else none
  | 44 => if part w 27 5 = 0 then some (.fsin (fld w 17 32) (fld w 22 32) (fld w 7 16) (fld w 1 8))
      else none
  | 45 => if part w 27 5 = 0 then some (.fcos (fld w 17 32) (fld w 22 32) (fld w 7 16) (fld w 1 8))
      else none
  | 46 => some (.hadd2F16 (fld w 17 32) (fld w 22 32) (fld w 27 32) (fld w 7 16) (fld w 1 8))
  | 47 => some (.hadd2Bf16 (fld w 17 32) (fld w 22 32) (fld w 27 32) (fld w 7 16) (fld w 1 8))
  | 48 => some (.hmul2F16 (fld w 17 32) (fld w 22 32) (fld w 27 32) (fld w 7 16) (fld w 1 8))
  | 49 => some (.hmul2Bf16 (fld w 17 32) (fld w 22 32) (fld w 27 32) (fld w 7 16) (fld w 1 8))
  | 50 => some (.hfma2F16 (fld w 17 32) (fld w 22 32) (fld w 27 32) (fld w 7 16) (fld w 1 8))
  | 51 => some (.hfma2Bf16 (fld w 17 32) (fld w 22 32) (fld w 27 32) (fld w 7 16) (fld w 1 8))
  | 52 => some (.dot4S8 (fld w 17 32) (fld w 22 32) (fld w 27 32) (fld w 7 16) (fld w 1 8))
  | 53 => some (.dot4E4m3 (fld w 17 32) (fld w 22 32) (fld w 27 32) (fld w 7 16) (fld w 1 8))
  | 54 => some (.dot4E5m2 (fld w 17 32) (fld w 22 32) (fld w 27 32) (fld w 7 16) (fld w 1 8))
  | 55 => some (.dot8S4 (fld w 17 32) (fld w 22 32) (fld w 27 32) (fld w 7 16) (fld w 1 8))
  | 56 => some (.dot8E2m1 (fld w 17 32) (fld w 22 32) (fld w 27 32) (fld w 7 16) (fld w 1 8))
  | 57 => some (.cvt (fld w 27 32) (fld w 17 32) (fld w 22 32) (fld w 7 16) (fld w 1 8))
  | 58 => some (.cvtsr (fld w 27 32) (fld w 17 32) (fld w 22 32) (fld w 7 16) (fld w 1 8))
  | 59 => some (.pack (fld w 17 32) (fld w 22 32) (fld w 27 32) (fld w 7 16) (fld w 1 8))
  | 60 => some (.unpk (fld w 27 32) (fld w 17 32) (fld w 22 32) (fld w 7 16) (fld w 1 8))
  | _ => none

/-- The U class by its operation field (R214 and its table). -/
def rawDecodeU (w : Nat) : Option Instr :=
  match part w 7 6 with
  | 0 => some (.addU (fld w 13 32) (fld w 18 32) (fld w 23 256) (fld w 1 8))
  | 1 => some (.subU (fld w 13 32) (fld w 18 32) (fld w 23 256) (fld w 1 8))
  | 2 => some (.mulU (fld w 13 32) (fld w 18 32) (fld w 23 256) (fld w 1 8))
  | 3 => some (.mulhiU (fld w 13 32) (fld w 18 32) (fld w 23 256) (fld w 1 8))
  | 4 => some (.mulhiUnsU (fld w 13 32) (fld w 18 32) (fld w 23 256) (fld w 1 8))
  | 5 => some (.madU (fld w 13 32) (fld w 18 32) (fld w 23 256) (fld w 1 8))
  | 6 => some (.andU (fld w 13 32) (fld w 18 32) (fld w 23 256) (fld w 1 8))
  | 7 => some (.orU (fld w 13 32) (fld w 18 32) (fld w 23 256) (fld w 1 8))
  | 8 => some (.xorU (fld w 13 32) (fld w 18 32) (fld w 23 256) (fld w 1 8))
  | 9 => if part w 18 5 = 0 then some (.notU (fld w 13 32) (fld w 23 256) (fld w 1 8))
      else none
  | 10 => some (.shlU (fld w 13 32) (fld w 18 32) (fld w 23 256) (fld w 1 8))
  | 11 => some (.shrU (fld w 13 32) (fld w 18 32) (fld w 23 256) (fld w 1 8))
  | 12 => some (.sarU (fld w 13 32) (fld w 18 32) (fld w 23 256) (fld w 1 8))
  | 13 => some (.minU (fld w 13 32) (fld w 18 32) (fld w 23 256) (fld w 1 8))
  | 14 => some (.minUnsU (fld w 13 32) (fld w 18 32) (fld w 23 256) (fld w 1 8))
  | 15 => some (.maxU (fld w 13 32) (fld w 18 32) (fld w 23 256) (fld w 1 8))
  | 16 => some (.maxUnsU (fld w 13 32) (fld w 18 32) (fld w 23 256) (fld w 1 8))
  | 17 => if part w 18 5 = 0 then some (.absU (fld w 13 32) (fld w 23 256) (fld w 1 8))
      else none
  | 18 => if part w 18 5 = 0 then some (.clzU (fld w 13 32) (fld w 23 256) (fld w 1 8))
      else none
  | 19 => if part w 18 5 = 0 then some (.popcU (fld w 13 32) (fld w 23 256) (fld w 1 8))
      else none
  | 20 => if part w 18 5 = 0 then some (.brevU (fld w 13 32) (fld w 23 256) (fld w 1 8))
      else none
  | 21 => some (.bfeU (fld w 13 32) (fld w 18 32) (fld w 23 256) (fld w 1 8))
  | 22 => some (.bfeUnsU (fld w 13 32) (fld w 18 32) (fld w 23 256) (fld w 1 8))
  | 23 => some (.bfiU (fld w 13 32) (fld w 18 32) (fld w 23 256) (fld w 1 8))
  | 24 => some (.selU 1 (fld w 13 32) (fld w 18 32) (fld w 23 256) (fld w 1 8))
  | 25 => some (.selU 2 (fld w 13 32) (fld w 18 32) (fld w 23 256) (fld w 1 8))
  | 26 => some (.selU 3 (fld w 13 32) (fld w 18 32) (fld w 23 256) (fld w 1 8))
  | 27 => some (.cmpU (fld w 15 8) (fld w 13 4) (fld w 18 32) (fld w 23 256) (fld w 1 8))
  | 28 => if part w 18 5 = 0 then some (.movU (fld w 13 32) (fld w 23 256) (fld w 1 8))
      else none
  | 29 => some (.add64U (fld w 13 32) (fld w 18 32) (fld w 23 256) (fld w 1 8))
  | 30 => some (.sub64U (fld w 13 32) (fld w 18 32) (fld w 23 256) (fld w 1 8))
  | 31 => some (.mad64U (fld w 13 32) (fld w 18 32) (fld w 23 256) (fld w 1 8))
  | 32 => some (.faddU (fld w 13 32) (fld w 18 32) (fld w 23 256) (fld w 1 8))
  | 33 => some (.fsubU (fld w 13 32) (fld w 18 32) (fld w 23 256) (fld w 1 8))
  | 34 => some (.fmulU (fld w 13 32) (fld w 18 32) (fld w 23 256) (fld w 1 8))
  | 35 => some (.ffmaU (fld w 13 32) (fld w 18 32) (fld w 23 256) (fld w 1 8))
  | 36 => some (.fminU (fld w 13 32) (fld w 18 32) (fld w 23 256) (fld w 1 8))
  | 37 => some (.fmaxU (fld w 13 32) (fld w 18 32) (fld w 23 256) (fld w 1 8))
  | 38 => some (.fcmpU (fld w 15 8) (fld w 13 4) (fld w 18 32) (fld w 23 256) (fld w 1 8))
  | 46 => some (.hadd2F16U (fld w 13 32) (fld w 18 32) (fld w 23 256) (fld w 1 8))
  | 47 => some (.hadd2Bf16U (fld w 13 32) (fld w 18 32) (fld w 23 256) (fld w 1 8))
  | 48 => some (.hmul2F16U (fld w 13 32) (fld w 18 32) (fld w 23 256) (fld w 1 8))
  | 49 => some (.hmul2Bf16U (fld w 13 32) (fld w 18 32) (fld w 23 256) (fld w 1 8))
  | 50 => some (.hfma2F16U (fld w 13 32) (fld w 18 32) (fld w 23 256) (fld w 1 8))
  | 51 => some (.hfma2Bf16U (fld w 13 32) (fld w 18 32) (fld w 23 256) (fld w 1 8))
  | 52 => some (.dot4S8U (fld w 13 32) (fld w 18 32) (fld w 23 256) (fld w 1 8))
  | 53 => some (.dot4E4m3U (fld w 13 32) (fld w 18 32) (fld w 23 256) (fld w 1 8))
  | 54 => some (.dot4E5m2U (fld w 13 32) (fld w 18 32) (fld w 23 256) (fld w 1 8))
  | 55 => some (.dot8S4U (fld w 13 32) (fld w 18 32) (fld w 23 256) (fld w 1 8))
  | 56 => some (.dot8E2m1U (fld w 13 32) (fld w 18 32) (fld w 23 256) (fld w 1 8))
  | 59 => some (.packU (fld w 13 32) (fld w 18 32) (fld w 23 256) (fld w 1 8))
  | _ => none

/-- The I class by its operation field (R214 and its table). -/
def rawDecodeI (w : Nat) : Option Instr :=
  match part w 7 4 with
  | 0 => some (.addI (fld w 11 32) (bv w 16 16) (fld w 1 8))
  | 1 => some (.mulI (fld w 11 32) (bv w 16 16) (fld w 1 8))
  | 2 => some (.andI (fld w 11 32) (bv w 16 16) (fld w 1 8))
  | 3 => some (.orI (fld w 11 32) (bv w 16 16) (fld w 1 8))
  | 4 => some (.xorI (fld w 11 32) (bv w 16 16) (fld w 1 8))
  | 5 => if part w 21 11 = 0 then some (.shlI (fld w 11 32) (fld w 16 32) (fld w 1 8))
      else none
  | 6 => if part w 21 11 = 0 then some (.shrI (fld w 11 32) (fld w 16 32) (fld w 1 8))
      else none
  | 7 => if part w 21 11 = 0 then some (.sarI (fld w 11 32) (fld w 16 32) (fld w 1 8))
      else none
  | 8 => some (.movI (fld w 11 32) (bv w 16 16) (fld w 1 8))
  | 9 => some (.movHi (fld w 11 32) (bv w 16 16) (fld w 1 8))
  | 10 => some (.faddI (fld w 11 32) (bv w 16 16) (fld w 1 8))
  | 11 => some (.fmulI (fld w 11 32) (bv w 16 16) (fld w 1 8))
  | 12 => some (.movF32 (fld w 11 32) (bv w 16 16) (fld w 1 8))
  | 13 => some (.hadd2F16I (fld w 11 32) (bv w 16 16) (fld w 1 8))
  | 14 => some (.hmul2F16I (fld w 11 32) (bv w 16 16) (fld w 1 8))
  | 15 => some (.movE4m3x2 (fld w 11 32) (bv w 16 16) (fld w 1 8))
  | _ => none

/-- The M class by its operation field (R214 and its table). -/
def rawDecodeM (w : Nat) : Option Instr :=
  match part w 11 4 with
  | 0 => some (.ld (fld w 18 32) (fld w 23 16) (fld w 27 32) (fld w 15 8) (fld w 7 16) (fld w 1 8))
  | 1 => if part w 16 2 = 0 then some (.ldS (fld w 18 32) (fld w 23 16) (fld w 27 32) (fld w 15 8) (fld w 7 16) (fld w 1 8))
      else none
  | 2 => some (.st (fld w 18 32) (fld w 23 16) (fld w 27 32) (fld w 15 8) (fld w 7 16) (fld w 1 8))
  | 3 => if part w 23 4 = 0 then some (.lds (fld w 18 32) (fld w 27 32) (fld w 15 8) (fld w 7 16) (fld w 1 8))
      else none
  | 4 => if part w 16 2 = 0 ∧ part w 23 4 = 0 then some (.ldsS (fld w 18 32) (fld w 27 32) (fld w 15 8) (fld w 7 16) (fld w 1 8))
      else none
  | 5 => if part w 23 4 = 0 then some (.sts (fld w 18 32) (fld w 27 32) (fld w 15 8) (fld w 7 16) (fld w 1 8))
      else none
  | 6 => some (.ldmx (fld w 18 32) (fld w 23 16) (fld w 27 32) (fld w 15 8) (fld w 7 16) (fld w 1 8))
  | 7 => some (.stmx (fld w 18 32) (fld w 23 16) (fld w 27 32) (fld w 15 8) (fld w 7 16) (fld w 1 8))
  | 8 => if part w 7 4 = 15 then some (.pref (fld w 23 16) (fld w 27 32) (fld w 15 8) (fld w 1 8))
      else none
  | 9 => if part w 15 3 = 4 ∧ part w 22 1 = 0 then some (.cload (fld w 18 16) (fld w 23 16) (fld w 27 32) (fld w 7 16) (fld w 1 8))
      else none
  | 10 => if part w 15 3 = 4 ∧ part w 22 1 = 0 then some (.cstore (fld w 18 16) (fld w 23 16) (fld w 27 32) (fld w 7 16) (fld w 1 8))
      else none
  | 11 => if part w 7 4 = 15 ∧ part w 15 3 = 0 ∧ part w 22 1 = 0 then some (.cnarrow (fld w 18 16) (fld w 23 16) (fld w 27 32) (fld w 1 8))
      else none
  | 12 => if part w 7 4 = 15 ∧ part w 15 3 = 0 ∧ part w 22 1 = 0 then some (.crestr (fld w 18 16) (fld w 23 16) (fld w 27 32) (fld w 1 8))
      else none
  | 13 => if part w 7 4 = 15 ∧ part w 27 5 = 0 then some (.cget (fld w 18 32) (fld w 23 16) (fld w 15 8) (fld w 1 8))
      else none
  | 14 => if part w 7 4 = 15 ∧ part w 15 3 = 0 ∧ part w 22 1 = 0 ∧ part w 31 1 = 0 then some (.cseal (fld w 18 16) (fld w 23 16) (fld w 27 16) (fld w 1 8))
      else if part w 7 4 = 15 ∧ part w 15 3 = 0 ∧ part w 22 1 = 0 ∧ part w 31 1 = 1 then some (.csealUn (fld w 18 16) (fld w 23 16) (fld w 27 16) (fld w 1 8))
      else none
  | 15 => if part w 7 4 = 15 ∧ part w 15 3 = 0 ∧ part w 20 3 = 0 ∧ part w 27 5 = 0 then some (.ctestTag (fld w 18 4) (fld w 23 16) (fld w 1 8))
      else if part w 7 4 = 15 ∧ part w 15 3 = 0 ∧ part w 20 3 = 1 ∧ part w 27 5 = 0 then some (.ctestUnsealed (fld w 18 4) (fld w 23 16) (fld w 1 8))
      else if part w 7 4 = 15 ∧ part w 15 3 = 0 ∧ part w 20 3 = 2 ∧ part w 31 1 = 0 then some (.ctestSub (fld w 18 4) (fld w 23 16) (fld w 27 16) (fld w 1 8))
      else if part w 7 4 = 15 ∧ part w 20 3 = 3 then some (.ctestIn (fld w 18 4) (fld w 23 16) (fld w 27 32) (fld w 15 8) (fld w 1 8))
      else none
  | _ => none

/-- The B class by its operation field (R214 and its table). -/
def rawDecodeB (w : Nat) : Option Instr :=
  match part w 7 4 with
  | 0 => some (.bra (fld w 11 4) (bv w 13 19) (fld w 1 8))
  | 1 => some (.braN (fld w 11 4) (bv w 13 19) (fld w 1 8))
  | 2 => some (.brl (fld w 11 4) (bv w 13 19) (fld w 1 8))
  | 3 => if part w 11 2 = 0 then some (.call8 (bv w 13 19) (fld w 1 8))
      else none
  | 4 => if part w 11 2 = 0 then some (.call16 (bv w 13 19) (fld w 1 8))
      else none
  | 5 => if part w 11 2 = 0 ∧ part w 18 14 = 0 then some (.jmp (fld w 13 32) (fld w 1 8))
      else none
  | 6 => if part w 19 13 = 0 then some (.meld (fld w 11 4) (fld w 13 64) (fld w 1 8))
      else none
  | _ => none

/-- The X class by its operation field (R214 and its table). -/
def rawDecodeX (w : Nat) : Option Instr :=
  match part w 11 5 with
  | 0 => some (.shflIdx (fld w 27 32) (fld w 16 32) (fld w 21 32) (bit w 26) (fld w 7 16) (fld w 1 8))
  | 1 => some (.shflUp (fld w 27 32) (fld w 16 32) (fld w 21 32) (bit w 26) (fld w 7 16) (fld w 1 8))
  | 2 => some (.shflDown (fld w 27 32) (fld w 16 32) (fld w 21 32) (bit w 26) (fld w 7 16) (fld w 1 8))
  | 3 => some (.shflXor (fld w 27 32) (fld w 16 32) (fld w 21 32) (bit w 26) (fld w 7 16) (fld w 1 8))
  | 4 => if part w 18 9 = 0 ∧ part w 29 3 = 0 then some (.voteAll (fld w 27 4) (fld w 16 4) (fld w 7 16) (fld w 1 8))
      else none
  | 5 => if part w 18 9 = 0 ∧ part w 29 3 = 0 then some (.voteAny (fld w 27 4) (fld w 16 4) (fld w 7 16) (fld w 1 8))
      else none
  | 6 => if part w 18 9 = 0 then some (.voteBallot (fld w 27 32) (fld w 16 4) (fld w 7 16) (fld w 1 8))
      else none
  | 7 => if part w 26 1 = 0 then some (.redux (fld w 21 32) (fld w 27 32) (fld w 16 32) (fld w 7 16) (fld w 1 8))
      else none
  | 8 => if part w 21 6 = 0 then some (.matchAny (fld w 27 32) (fld w 16 32) (fld w 7 16) (fld w 1 8))
      else none
  | 9 => if part w 21 6 = 0 ∧ part w 29 3 = 0 then some (.matchAll (fld w 27 4) (fld w 16 32) (fld w 7 16) (fld w 1 8))
      else none
  | 16 => if part w 7 4 = 15 ∧ part w 19 7 = 0 then some (.fork (fld w 26 64) (fld w 16 8) (fld w 1 8))
      else none
  | 17 => if part w 20 1 = 0 ∧ part w 25 1 = 0 then some (.copy (fld w 26 64) (fld w 16 16) (fld w 21 16) (fld w 7 16) (fld w 1 8))
      else none
  | 18 => if part w 7 4 = 15 ∧ part w 16 10 = 0 then some (.copyq (fld w 26 64) (fld w 1 8))
      else none
  | 19 => if part w 20 1 = 0 ∧ part w 25 1 = 0 then some (.chain (fld w 26 64) (fld w 16 16) (fld w 21 16) (fld w 7 16) (fld w 1 8))
      else none
  | 20 => if part w 20 6 = 0 then some (.coll (fld w 26 64) (fld w 16 16) (fld w 7 16) (fld w 1 8))
      else none
  | 21 => if part w 16 10 = 0 then some (.post (fld w 26 64) (fld w 7 16) (fld w 1 8))
      else none
  | 22 => if part w 7 4 = 15 ∧ part w 16 10 = 0 then some (.ecancel (fld w 26 64) (fld w 1 8))
      else none
  | 23 => if part w 7 4 = 15 ∧ part w 16 10 = 0 then some (.estat (fld w 26 64) (fld w 1 8))
      else none
  | _ => none

/-- The S class by SOP (R223); SOP 0x10 to 0x1F are ATOM and ATOMM (R224). -/
def rawDecodeS (w : Nat) : Option Instr :=
  if part w 15 1 = 1 then
    if part w 26 1 = 0 then some (.atom (fld w 28 16) (bit w 27) (fld w 11 16) (fld w 21 32) (fld w 16 32) (fld w 7 16) (fld w 1 8))
    else some (.atomm (fld w 28 16) (bit w 27) (fld w 11 16) (fld w 21 32) (fld w 16 32) (fld w 7 16) (fld w 1 8))
  else match part w 11 4 with
  | 0 => if part w 7 4 = 15 ∧ part w 21 5 = 0 ∧ part w 29 3 = 0 then some (.sleept (fld2 w 16 26) (fld w 1 8))
      else none
  | 1 => if part w 7 4 = 15 then some (.waitc (fld w 30 4) (fld w 26 16) (fld w 21 32) (fld w 16 32) (fld w 1 8))
      else none
  | 2 => if part w 7 4 = 15 ∧ part w 20 6 = 0 ∧ part w 30 2 = 0 then some (.bar (fld w 16 16) (bv w 26 4) (fld w 1 8))
      else none
  | 3 => if part w 7 4 = 15 ∧ part w 20 6 = 0 ∧ part w 30 2 = 0 then some (.arrive (fld w 16 16) (bv w 26 4) (fld w 1 8))
      else none
  | 4 => if part w 7 4 = 15 ∧ part w 20 6 = 0 ∧ part w 30 2 = 0 then some (.await (fld w 16 16) (bv w 26 4) (fld w 1 8))
      else none
  | 5 => if part w 7 4 = 15 ∧ part w 16 10 = 0 ∧ part w 29 3 = 0 then some (.rvz (fld w 26 8) (fld w 1 8))
      else none
  | 6 => if part w 7 4 = 15 ∧ part w 16 5 = 0 ∧ part w 30 2 = 0 then some (.dqpush (fld w 21 32) (bv w 26 4) (fld w 1 8))
      else none
  | 7 => if part w 7 4 = 15 ∧ part w 21 5 = 0 ∧ part w 29 3 = 0 then some (.dqpop (fld2 w 16 26) (fld w 1 8))
      else none
  | 8 => if part w 7 4 = 15 ∧ part w 21 5 = 0 then some (.csrr (fld w 26 64) (fld w 16 32) (fld w 1 8))
      else none
  | 9 => if part w 7 4 = 15 ∧ part w 16 5 = 0 then some (.csrw (fld w 26 64) (fld w 21 32) (fld w 1 8))
      else none
  | 10 => if part w 7 4 = 15 ∧ part w 16 10 = 0 then some (.trap (fld w 26 64) (fld w 1 8))
      else none
  | 11 => if part w 1 3 = 0 ∧ part w 7 4 = 15 ∧ part w 16 16 = 0 then some (.tret)
      else none
  | 12 => if part w 25 1 = 0 ∧ part w 29 3 = 0 then some (.spill (fld2 w 16 26) (fld w 21 16) (fld w 7 16) (fld w 1 8))
      else none
  | 13 => if part w 25 1 = 0 ∧ part w 29 3 = 0 then some (.fill (fld2 w 16 26) (fld w 21 16) (fld w 7 16) (fld w 1 8))
      else none
  | 14 => if part w 19 2 = 0 then some (.redx (fld w 30 4) (fld w 26 16) (fld w 21 32) (fld w 16 8) (fld w 7 16) (fld w 1 8))
      else none
  | 15 => if part w 7 4 = 15 ∧ part w 29 3 = 0 then some (.movS (fld2 w 16 26) (fld w 21 32) (fld w 1 8))
      else none
  | _ => none

/-- The A16 forms by OP16 (R211, R212). -/
def rawDecodeA16 (w : Nat) : Option Instr :=
  match part w 2 4 with
  | 0 => some (.addA16 (fld w 6 32) (fld w 11 32))
  | 1 => some (.subA16 (fld w 6 32) (fld w 11 32))
  | 2 => some (.mulA16 (fld w 6 32) (fld w 11 32))
  | 3 => some (.andA16 (fld w 6 32) (fld w 11 32))
  | 4 => some (.orA16 (fld w 6 32) (fld w 11 32))
  | 5 => some (.xorA16 (fld w 6 32) (fld w 11 32))
  | 6 => some (.shlA16 (fld w 6 32) (fld w 11 32))
  | 7 => some (.shrA16 (fld w 6 32) (fld w 11 32))
  | 8 => some (.minA16 (fld w 6 32) (fld w 11 32))
  | 9 => some (.maxA16 (fld w 6 32) (fld w 11 32))
  | 10 => some (.movA16 (fld w 6 32) (fld w 11 32))
  | 11 => some (.faddA16 (fld w 6 32) (fld w 11 32))
  | 12 => some (.fmulA16 (fld w 6 32) (fld w 11 32))
  | 13 => some (.fminA16 (fld w 6 32) (fld w 11 32))
  | 14 => some (.fmaxA16 (fld w 6 32) (fld w 11 32))
  | 15 => some (.ffmaA16 (fld w 6 32) (fld w 11 32))
  | _ => none

/-- C16 sub-code 01 (R213). -/
def rawDecodeMisc (w : Nat) : Option Instr :=
  match part w 4 4 with
  | 0 => some (.nop)
  | 1 => if part w 8 8 = 0 then some (.yield)
      else none
  | 2 => if part w 8 8 = 8 then some (.ret8)
      else if part w 8 8 = 16 then some (.ret16)
      else none
  | 3 => if part w 8 8 = 0 then some (.mend)
      else none
  | 4 => if part w 8 8 = 0 then some (.exit)
      else none
  | 5 => if part w 8 8 = 0 then some (.fence)
      else none
  | 6 => some (.stall (fld w 8 256))
  | _ => none

/-- A chain micro-op by UOP (R230). -/
def rawDecodeChain (w : Nat) : Option Instr :=
  match part w 27 5 with
  | 0 => if part w 0 15 = 0 ∧ part w 26 1 = 0 then some (.chainFadd (fld w 23 8) (fld w 19 16) (fld w 15 16))
      else none
  | 1 => if part w 0 15 = 0 ∧ part w 26 1 = 0 then some (.chainFsub (fld w 23 8) (fld w 19 16) (fld w 15 16))
      else none
  | 2 => if part w 0 15 = 0 ∧ part w 26 1 = 0 then some (.chainFmul (fld w 23 8) (fld w 19 16) (fld w 15 16))
      else none
  | 3 => if part w 0 11 = 0 ∧ part w 26 1 = 0 then some (.chainFfma (fld w 23 8) (fld w 19 16) (fld w 15 16) (fld w 11 16))
      else none
  | 4 => if part w 0 15 = 0 ∧ part w 26 1 = 0 then some (.chainFmin (fld w 23 8) (fld w 19 16) (fld w 15 16))
      else none
  | 5 => if part w 0 15 = 0 ∧ part w 26 1 = 0 then some (.chainFmax (fld w 23 8) (fld w 19 16) (fld w 15 16))
      else none
  | 6 => if part w 0 19 = 0 ∧ part w 26 1 = 0 then some (.chainFex2 (fld w 23 8) (fld w 19 16))
      else none
  | 7 => if part w 0 19 = 0 ∧ part w 26 1 = 0 then some (.chainFlg2 (fld w 23 8) (fld w 19 16))
      else none
  | 8 => if part w 0 19 = 0 ∧ part w 26 1 = 0 then some (.chainFrcp (fld w 23 8) (fld w 19 16))
      else none
  | 9 => if part w 0 19 = 0 ∧ part w 26 1 = 0 then some (.chainFrsq (fld w 23 8) (fld w 19 16))
      else none
  | 10 => if part w 0 19 = 0 ∧ part w 26 1 = 0 then some (.chainFsqrt (fld w 23 8) (fld w 19 16))
      else none
  | 11 => if part w 0 11 = 0 ∧ part w 26 1 = 0 then some (.chainSel (fld w 23 8) (fld w 19 16) (fld w 15 16) (fld w 11 16))
      else none
  | 12 => if part w 0 19 = 0 ∧ part w 26 1 = 0 then some (.sumr (fld w 23 8) (fld w 19 16))
      else none
  | 13 => if part w 0 19 = 0 ∧ part w 26 1 = 0 then some (.maxr (fld w 23 8) (fld w 19 16))
      else none
  | 14 => if part w 7 12 = 0 ∧ part w 24 3 = 4 then some (.outq (fld w 23 2) (fld w 19 16) (fld w 4 8) (fld w 0 16))
      else none
  | 15 => if part w 0 19 = 0 ∧ part w 26 1 = 0 then some (.chainMov (fld w 23 8) (fld w 19 16))
      else none
  | _ => none

/-- A matrix command word by its command (R228). -/
def rawDecodeMatrix (w : Nat) : Option Instr :=
  match part w 60 4 with
  | 0 => if part w 0 44 = 0 then some (.mcfg (fld w 56 16) (fld w 52 16) (fld w 44 256))
      else none
  | 1 => if part w 32 18 = 0 then some (.mload (fld w 58 4) (bv w 50 8) (bv w 0 32))
      else none
  | 2 => if part w 0 56 = 0 then some (.mma (fld w 57 8) (bit w 56))
      else none
  | 3 => some (.mdrain (fld w 57 8) (fld w 53 16) (fld w 50 8) (bit w 49) (fld w 46 8) (bit w 45) (bv w 32 13) (bv w 0 32))
  | 4 => if part w 48 10 = 0 then some (.mwait (fld w 58 4) (bv w 32 16) (bv w 0 32))
      else none
  | 5 => if part w 32 10 = 0 then some (.mstep (fld w 54 64) (bv w 42 12) (bv w 0 32))
      else none
  | _ => none

/-- An instruction only if its fields hold permitted values (R209). -/
def checked (i : Option Instr) : Option Instr :=
  match i with
  | some j => if j.wf then some j else none
  | none => none

/-- Whether a first halfword begins a 32-bit instruction (R208). -/
def isLong (h : Nat) : Bool := decide (h % 2 = 1)

/-- A 16-bit instruction (R211 to R213). 0x0000 is none: `ADD v0, v0` in A16 is not well formed (R208). -/
def decode16 (w : Nat) : Option Instr :=
  checked
    (if part w 1 1 = 0 then rawDecodeA16 w
     else match part w 2 2 with
      | 0 => some (.waitf (bv w 4 12))
      | 1 => rawDecodeMisc w
      | _ => none)

/-- A 32-bit lane instruction (R214 to R224). -/
def decode32 (w : Nat) : Option Instr :=
  checked
    (match part w 4 3 with
     | 0 => rawDecodeR w
     | 1 => rawDecodeU w
     | 2 => rawDecodeI w
     | 3 => rawDecodeM w
     | 4 => rawDecodeB w
     | 5 => rawDecodeX w
     | 6 => rawDecodeS w
     | _ => none)

/-- The instruction in the bits w of a lane's stream: 16 or 32 bits by its bit 0 (R208). -/
def decodeLane (w : Nat) : Option Instr :=
  if isLong w then decode32 (w % 2 ^ 32) else decode16 (w % 2 ^ 16)

/-- A chain micro-op (R230). -/
def decodeChain (w : Nat) : Option Instr := checked (rawDecodeChain (w % 2 ^ 32))

/-- A matrix command word (R228). -/
def decodeMatrix (w : Nat) : Option Instr := checked (rawDecodeMatrix (w % 2 ^ 64))

/-- A collective step of eight 32-bit words, the first lowest (R347). -/
def decodeStep (w : Nat) : Option Instr :=
  let a : CollArgs :=
    { async := bit w 19, vdn := fld w 8 2048, dt := fld w 6 4, tc := fld w 4 4, tag := bv w 32 16,
      offset := bv w 64 64, length := bv w 128 32, value := bv w 192 32 }
  checked
    (if part w 20 12 = 0 ∧ part w 48 16 = 0 ∧ part w 160 32 = 0 ∧ part w 224 32 = 0 then
      match part w 0 4 with
      | 0 => some (.send a)
      | 1 => some (.recv a)
      | 2 => some (.recvadd a)
      | 3 => some (.waitw a)
      | 4 => some (.signal a)
      | 5 => some (.sparse a)
      | 6 => some (.recvsparse a)
      | 7 => some (.endStep a)
      | _ => none
     else none)

/-- The instruction in nbits bits of the opcode table's numbering: a halfword, a 32-bit lane instruction or chain
micro-op, a matrix command word, or a collective step. A 32-bit word whose bit 0 is 0 is no lane instruction (R208); a
chain word whose bit 0 is 1 (an OUTQ) is one the lane decoder refuses. -/
def decodeTableWord (nbits w : Nat) : Option Instr :=
  match nbits with
  | 16 => decode16 (w % 2 ^ 16)
  | 32 => if isLong w then
            match decode32 (w % 2 ^ 32) with
            | some i => some i
            | none => decodeChain w
          else decodeChain w
  | 64 => decodeMatrix w
  | 256 => decodeStep (w % 2 ^ 256)
  | _ => none

/-- A base word with fields (value, lowest bit) put into it. -/
def word (base : Nat) : List (Nat × Nat) → Nat
  | [] => base
  | (v, lo) :: rest => v * 2 ^ lo + word base rest

/-- The 32 bytes of a collective step with operation op (R347). -/
def encodeStep (op : Nat) (a : CollArgs) : Nat :=
  word op [(a.tc.val, 4), (a.dt.val, 6), (a.vdn.val, 8), (a.async.toNat, 19), (a.tag.toNat, 32), (a.offset.toNat, 64),
    (a.length.toNat, 128), (a.value.toNat, 192)]

/-- The words of an instruction, from the encoding tables (R211 to R230, R347): how many bits, and those bits as one
number, bit 0 the least significant of the first word. Machine events have no encoding: zero bits. -/
def encode (i : Instr) : Nat × Nat :=
  match i with
  | .add d a b f s => (32, word 0x1 [(d.val, 17), (a.val, 22), (b.val, 27), (f.val, 7), (s.val, 1)])
  | .sub d a b f s => (32, word 0x801 [(d.val, 17), (a.val, 22), (b.val, 27), (f.val, 7), (s.val, 1)])
  | .mul d a b f s => (32, word 0x1001 [(d.val, 17), (a.val, 22), (b.val, 27), (f.val, 7), (s.val, 1)])
  | .mulhi d a b f s => (32, word 0x1801 [(d.val, 17), (a.val, 22), (b.val, 27), (f.val, 7), (s.val, 1)])
  | .mulhiUns d a b f s => (32, word 0x2001 [(d.val, 17), (a.val, 22), (b.val, 27), (f.val, 7), (s.val, 1)])
  | .mad d a b f s => (32, word 0x2801 [(d.val, 17), (a.val, 22), (b.val, 27), (f.val, 7), (s.val, 1)])
  | .and d a b f s => (32, word 0x3001 [(d.val, 17), (a.val, 22), (b.val, 27), (f.val, 7), (s.val, 1)])
  | .or d a b f s => (32, word 0x3801 [(d.val, 17), (a.val, 22), (b.val, 27), (f.val, 7), (s.val, 1)])
  | .xor d a b f s => (32, word 0x4001 [(d.val, 17), (a.val, 22), (b.val, 27), (f.val, 7), (s.val, 1)])
  | .not d a f s => (32, word 0x4801 [(d.val, 17), (a.val, 22), (f.val, 7), (s.val, 1)])
  | .shl d a b f s => (32, word 0x5001 [(d.val, 17), (a.val, 22), (b.val, 27), (f.val, 7), (s.val, 1)])
  | .shr d a b f s => (32, word 0x5801 [(d.val, 17), (a.val, 22), (b.val, 27), (f.val, 7), (s.val, 1)])
  | .sar d a b f s => (32, word 0x6001 [(d.val, 17), (a.val, 22), (b.val, 27), (f.val, 7), (s.val, 1)])
  | .min d a b f s => (32, word 0x6801 [(d.val, 17), (a.val, 22), (b.val, 27), (f.val, 7), (s.val, 1)])
  | .minUns d a b f s => (32, word 0x7001 [(d.val, 17), (a.val, 22), (b.val, 27), (f.val, 7), (s.val, 1)])
  | .max d a b f s => (32, word 0x7801 [(d.val, 17), (a.val, 22), (b.val, 27), (f.val, 7), (s.val, 1)])
  | .maxUns d a b f s => (32, word 0x8001 [(d.val, 17), (a.val, 22), (b.val, 27), (f.val, 7), (s.val, 1)])
  | .abs d a f s => (32, word 0x8801 [(d.val, 17), (a.val, 22), (f.val, 7), (s.val, 1)])
  | .clz d a f s => (32, word 0x9001 [(d.val, 17), (a.val, 22), (f.val, 7), (s.val, 1)])
  | .popc d a f s => (32, word 0x9801 [(d.val, 17), (a.val, 22), (f.val, 7), (s.val, 1)])
  | .brev d a f s => (32, word 0xa001 [(d.val, 17), (a.val, 22), (f.val, 7), (s.val, 1)])
  | .bfe d a b f s => (32, word 0xa801 [(d.val, 17), (a.val, 22), (b.val, 27), (f.val, 7), (s.val, 1)])
  | .bfeUns d a b f s => (32, word 0xb001 [(d.val, 17), (a.val, 22), (b.val, 27), (f.val, 7), (s.val, 1)])
  | .bfi d a b f s => (32, word 0xb801 [(d.val, 17), (a.val, 22), (b.val, 27), (f.val, 7), (s.val, 1)])
  | .sel p d a b f s => (32, word 0x1 [(0x17 + p.val, 11), (d.val, 17), (a.val, 22), (b.val, 27), (f.val, 7), (s.val, 1)])
  | .cmp c p a b f s => (32, word 0xd801 [(c.val, 19), (p.val, 17), (a.val, 22), (b.val, 27), (f.val, 7), (s.val, 1)])
  | .mov d a f s => (32, word 0xe001 [(d.val, 17), (a.val, 22), (f.val, 7), (s.val, 1)])
  | .add64 d a b f s => (32, word 0xe801 [(d.val, 17), (a.val, 22), (b.val, 27), (f.val, 7), (s.val, 1)])
  | .sub64 d a b f s => (32, word 0xf001 [(d.val, 17), (a.val, 22), (b.val, 27), (f.val, 7), (s.val, 1)])
  | .mad64 d a b f s => (32, word 0xf801 [(d.val, 17), (a.val, 22), (b.val, 27), (f.val, 7), (s.val, 1)])
  | .fadd d a b f s => (32, word 0x10001 [(d.val, 17), (a.val, 22), (b.val, 27), (f.val, 7), (s.val, 1)])
  | .fsub d a b f s => (32, word 0x10801 [(d.val, 17), (a.val, 22), (b.val, 27), (f.val, 7), (s.val, 1)])
  | .fmul d a b f s => (32, word 0x11001 [(d.val, 17), (a.val, 22), (b.val, 27), (f.val, 7), (s.val, 1)])
  | .ffma d a b f s => (32, word 0x11801 [(d.val, 17), (a.val, 22), (b.val, 27), (f.val, 7), (s.val, 1)])
  | .fmin d a b f s => (32, word 0x12001 [(d.val, 17), (a.val, 22), (b.val, 27), (f.val, 7), (s.val, 1)])
  | .fmax d a b f s => (32, word 0x12801 [(d.val, 17), (a.val, 22), (b.val, 27), (f.val, 7), (s.val, 1)])
  | .fcmp c p a b f s => (32, word 0x13001 [(c.val, 19), (p.val, 17), (a.val, 22), (b.val, 27), (f.val, 7), (s.val, 1)])
  | .frcp d a f s => (32, word 0x13801 [(d.val, 17), (a.val, 22), (f.val, 7), (s.val, 1)])
  | .frsq d a f s => (32, word 0x14001 [(d.val, 17), (a.val, 22), (f.val, 7), (s.val, 1)])
  | .fsqrt d a f s => (32, word 0x14801 [(d.val, 17), (a.val, 22), (f.val, 7), (s.val, 1)])
  | .fex2 d a f s => (32, word 0x15001 [(d.val, 17), (a.val, 22), (f.val, 7), (s.val, 1)])
  | .flg2 d a f s => (32, word 0x15801 [(d.val, 17), (a.val, 22), (f.val, 7), (s.val, 1)])
  | .fsin d a f s => (32, word 0x16001 [(d.val, 17), (a.val, 22), (f.val, 7), (s.val, 1)])
  | .fcos d a f s => (32, word 0x16801 [(d.val, 17), (a.val, 22), (f.val, 7), (s.val, 1)])
  | .hadd2F16 d a b f s => (32, word 0x17001 [(d.val, 17), (a.val, 22), (b.val, 27), (f.val, 7), (s.val, 1)])
  | .hadd2Bf16 d a b f s => (32, word 0x17801 [(d.val, 17), (a.val, 22), (b.val, 27), (f.val, 7), (s.val, 1)])
  | .hmul2F16 d a b f s => (32, word 0x18001 [(d.val, 17), (a.val, 22), (b.val, 27), (f.val, 7), (s.val, 1)])
  | .hmul2Bf16 d a b f s => (32, word 0x18801 [(d.val, 17), (a.val, 22), (b.val, 27), (f.val, 7), (s.val, 1)])
  | .hfma2F16 d a b f s => (32, word 0x19001 [(d.val, 17), (a.val, 22), (b.val, 27), (f.val, 7), (s.val, 1)])
  | .hfma2Bf16 d a b f s => (32, word 0x19801 [(d.val, 17), (a.val, 22), (b.val, 27), (f.val, 7), (s.val, 1)])
  | .dot4S8 d a b f s => (32, word 0x1a001 [(d.val, 17), (a.val, 22), (b.val, 27), (f.val, 7), (s.val, 1)])
  | .dot4E4m3 d a b f s => (32, word 0x1a801 [(d.val, 17), (a.val, 22), (b.val, 27), (f.val, 7), (s.val, 1)])
  | .dot4E5m2 d a b f s => (32, word 0x1b001 [(d.val, 17), (a.val, 22), (b.val, 27), (f.val, 7), (s.val, 1)])
  | .dot8S4 d a b f s => (32, word 0x1b801 [(d.val, 17), (a.val, 22), (b.val, 27), (f.val, 7), (s.val, 1)])
  | .dot8E2m1 d a b f s => (32, word 0x1c001 [(d.val, 17), (a.val, 22), (b.val, 27), (f.val, 7), (s.val, 1)])
  | .cvt c d a f s => (32, word 0x1c801 [(c.val, 27), (d.val, 17), (a.val, 22), (f.val, 7), (s.val, 1)])
  | .cvtsr c d a f s => (32, word 0x1d001 [(c.val, 27), (d.val, 17), (a.val, 22), (f.val, 7), (s.val, 1)])
  | .pack d a b f s => (32, word 0x1d801 [(d.val, 17), (a.val, 22), (b.val, 27), (f.val, 7), (s.val, 1)])
  | .unpk e d a f s => (32, word 0x1e001 [(e.val, 27), (d.val, 17), (a.val, 22), (f.val, 7), (s.val, 1)])
  | .addU d a b s => (32, word 0x11 [(d.val, 13), (a.val, 18), (b.val, 23), (s.val, 1)])
  | .subU d a b s => (32, word 0x91 [(d.val, 13), (a.val, 18), (b.val, 23), (s.val, 1)])
  | .mulU d a b s => (32, word 0x111 [(d.val, 13), (a.val, 18), (b.val, 23), (s.val, 1)])
  | .mulhiU d a b s => (32, word 0x191 [(d.val, 13), (a.val, 18), (b.val, 23), (s.val, 1)])
  | .mulhiUnsU d a b s => (32, word 0x211 [(d.val, 13), (a.val, 18), (b.val, 23), (s.val, 1)])
  | .madU d a b s => (32, word 0x291 [(d.val, 13), (a.val, 18), (b.val, 23), (s.val, 1)])
  | .andU d a b s => (32, word 0x311 [(d.val, 13), (a.val, 18), (b.val, 23), (s.val, 1)])
  | .orU d a b s => (32, word 0x391 [(d.val, 13), (a.val, 18), (b.val, 23), (s.val, 1)])
  | .xorU d a b s => (32, word 0x411 [(d.val, 13), (a.val, 18), (b.val, 23), (s.val, 1)])
  | .notU d b s => (32, word 0x491 [(d.val, 13), (b.val, 23), (s.val, 1)])
  | .shlU d a b s => (32, word 0x511 [(d.val, 13), (a.val, 18), (b.val, 23), (s.val, 1)])
  | .shrU d a b s => (32, word 0x591 [(d.val, 13), (a.val, 18), (b.val, 23), (s.val, 1)])
  | .sarU d a b s => (32, word 0x611 [(d.val, 13), (a.val, 18), (b.val, 23), (s.val, 1)])
  | .minU d a b s => (32, word 0x691 [(d.val, 13), (a.val, 18), (b.val, 23), (s.val, 1)])
  | .minUnsU d a b s => (32, word 0x711 [(d.val, 13), (a.val, 18), (b.val, 23), (s.val, 1)])
  | .maxU d a b s => (32, word 0x791 [(d.val, 13), (a.val, 18), (b.val, 23), (s.val, 1)])
  | .maxUnsU d a b s => (32, word 0x811 [(d.val, 13), (a.val, 18), (b.val, 23), (s.val, 1)])
  | .absU d b s => (32, word 0x891 [(d.val, 13), (b.val, 23), (s.val, 1)])
  | .clzU d b s => (32, word 0x911 [(d.val, 13), (b.val, 23), (s.val, 1)])
  | .popcU d b s => (32, word 0x991 [(d.val, 13), (b.val, 23), (s.val, 1)])
  | .brevU d b s => (32, word 0xa11 [(d.val, 13), (b.val, 23), (s.val, 1)])
  | .bfeU d a b s => (32, word 0xa91 [(d.val, 13), (a.val, 18), (b.val, 23), (s.val, 1)])
  | .bfeUnsU d a b s => (32, word 0xb11 [(d.val, 13), (a.val, 18), (b.val, 23), (s.val, 1)])
  | .bfiU d a b s => (32, word 0xb91 [(d.val, 13), (a.val, 18), (b.val, 23), (s.val, 1)])
  | .selU p d a b s => (32, word 0x11 [(0x17 + p.val, 7), (d.val, 13), (a.val, 18), (b.val, 23), (s.val, 1)])
  | .cmpU c p a b s => (32, word 0xd91 [(c.val, 15), (p.val, 13), (a.val, 18), (b.val, 23), (s.val, 1)])
  | .movU d b s => (32, word 0xe11 [(d.val, 13), (b.val, 23), (s.val, 1)])
  | .add64U d a b s => (32, word 0xe91 [(d.val, 13), (a.val, 18), (b.val, 23), (s.val, 1)])
  | .sub64U d a b s => (32, word 0xf11 [(d.val, 13), (a.val, 18), (b.val, 23), (s.val, 1)])
  | .mad64U d a b s => (32, word 0xf91 [(d.val, 13), (a.val, 18), (b.val, 23), (s.val, 1)])
  | .faddU d a b s => (32, word 0x1011 [(d.val, 13), (a.val, 18), (b.val, 23), (s.val, 1)])
  | .fsubU d a b s => (32, word 0x1091 [(d.val, 13), (a.val, 18), (b.val, 23), (s.val, 1)])
  | .fmulU d a b s => (32, word 0x1111 [(d.val, 13), (a.val, 18), (b.val, 23), (s.val, 1)])
  | .ffmaU d a b s => (32, word 0x1191 [(d.val, 13), (a.val, 18), (b.val, 23), (s.val, 1)])
  | .fminU d a b s => (32, word 0x1211 [(d.val, 13), (a.val, 18), (b.val, 23), (s.val, 1)])
  | .fmaxU d a b s => (32, word 0x1291 [(d.val, 13), (a.val, 18), (b.val, 23), (s.val, 1)])
  | .fcmpU c p a b s => (32, word 0x1311 [(c.val, 15), (p.val, 13), (a.val, 18), (b.val, 23), (s.val, 1)])
  | .hadd2F16U d a b s => (32, word 0x1711 [(d.val, 13), (a.val, 18), (b.val, 23), (s.val, 1)])
  | .hadd2Bf16U d a b s => (32, word 0x1791 [(d.val, 13), (a.val, 18), (b.val, 23), (s.val, 1)])
  | .hmul2F16U d a b s => (32, word 0x1811 [(d.val, 13), (a.val, 18), (b.val, 23), (s.val, 1)])
  | .hmul2Bf16U d a b s => (32, word 0x1891 [(d.val, 13), (a.val, 18), (b.val, 23), (s.val, 1)])
  | .hfma2F16U d a b s => (32, word 0x1911 [(d.val, 13), (a.val, 18), (b.val, 23), (s.val, 1)])
  | .hfma2Bf16U d a b s => (32, word 0x1991 [(d.val, 13), (a.val, 18), (b.val, 23), (s.val, 1)])
  | .dot4S8U d a b s => (32, word 0x1a11 [(d.val, 13), (a.val, 18), (b.val, 23), (s.val, 1)])
  | .dot4E4m3U d a b s => (32, word 0x1a91 [(d.val, 13), (a.val, 18), (b.val, 23), (s.val, 1)])
  | .dot4E5m2U d a b s => (32, word 0x1b11 [(d.val, 13), (a.val, 18), (b.val, 23), (s.val, 1)])
  | .dot8S4U d a b s => (32, word 0x1b91 [(d.val, 13), (a.val, 18), (b.val, 23), (s.val, 1)])
  | .dot8E2m1U d a b s => (32, word 0x1c11 [(d.val, 13), (a.val, 18), (b.val, 23), (s.val, 1)])
  | .packU d a b s => (32, word 0x1d91 [(d.val, 13), (a.val, 18), (b.val, 23), (s.val, 1)])
  | .addI d i s => (32, word 0x21 [(d.val, 11), (i.toNat, 16), (s.val, 1)])
  | .mulI d i s => (32, word 0xa1 [(d.val, 11), (i.toNat, 16), (s.val, 1)])
  | .andI d i s => (32, word 0x121 [(d.val, 11), (i.toNat, 16), (s.val, 1)])
  | .orI d i s => (32, word 0x1a1 [(d.val, 11), (i.toNat, 16), (s.val, 1)])
  | .xorI d i s => (32, word 0x221 [(d.val, 11), (i.toNat, 16), (s.val, 1)])
  | .shlI d i s => (32, word 0x2a1 [(d.val, 11), (i.val, 16), (s.val, 1)])
  | .shrI d i s => (32, word 0x321 [(d.val, 11), (i.val, 16), (s.val, 1)])
  | .sarI d i s => (32, word 0x3a1 [(d.val, 11), (i.val, 16), (s.val, 1)])
  | .movI d i s => (32, word 0x421 [(d.val, 11), (i.toNat, 16), (s.val, 1)])
  | .movHi d i s => (32, word 0x4a1 [(d.val, 11), (i.toNat, 16), (s.val, 1)])
  | .faddI d i s => (32, word 0x521 [(d.val, 11), (i.toNat, 16), (s.val, 1)])
  | .fmulI d i s => (32, word 0x5a1 [(d.val, 11), (i.toNat, 16), (s.val, 1)])
  | .movF32 d i s => (32, word 0x621 [(d.val, 11), (i.toNat, 16), (s.val, 1)])
  | .hadd2F16I d i s => (32, word 0x6a1 [(d.val, 11), (i.toNat, 16), (s.val, 1)])
  | .hmul2F16I d i s => (32, word 0x721 [(d.val, 11), (i.toNat, 16), (s.val, 1)])
  | .movE4m3x2 d i s => (32, word 0x7a1 [(d.val, 11), (i.toNat, 16), (s.val, 1)])
  | .addA16 d r => (16, word 0x0 [(d.val, 6), (r.val, 11)])
  | .subA16 d r => (16, word 0x4 [(d.val, 6), (r.val, 11)])
  | .mulA16 d r => (16, word 0x8 [(d.val, 6), (r.val, 11)])
  | .andA16 d r => (16, word 0xc [(d.val, 6), (r.val, 11)])
  | .orA16 d r => (16, word 0x10 [(d.val, 6), (r.val, 11)])
  | .xorA16 d r => (16, word 0x14 [(d.val, 6), (r.val, 11)])
  | .shlA16 d r => (16, word 0x18 [(d.val, 6), (r.val, 11)])
  | .shrA16 d r => (16, word 0x1c [(d.val, 6), (r.val, 11)])
  | .minA16 d r => (16, word 0x20 [(d.val, 6), (r.val, 11)])
  | .maxA16 d r => (16, word 0x24 [(d.val, 6), (r.val, 11)])
  | .movA16 d r => (16, word 0x28 [(d.val, 6), (r.val, 11)])
  | .faddA16 d r => (16, word 0x2c [(d.val, 6), (r.val, 11)])
  | .fmulA16 d r => (16, word 0x30 [(d.val, 6), (r.val, 11)])
  | .fminA16 d r => (16, word 0x34 [(d.val, 6), (r.val, 11)])
  | .fmaxA16 d r => (16, word 0x38 [(d.val, 6), (r.val, 11)])
  | .ffmaA16 d r => (16, word 0x3c [(d.val, 6), (r.val, 11)])
  | .waitf m => (16, word 0x2 [(m.toNat, 4)])
  | .nop => (16, word 0x6 [])
  | .yield => (16, word 0x16 [])
  | .ret8 => (16, word 0x826 [])
  | .ret16 => (16, word 0x1026 [])
  | .mend => (16, word 0x36 [])
  | .exit => (16, word 0x46 [])
  | .fence => (16, word 0x56 [])
  | .stall n => (16, word 0x66 [(n.val, 8)])
  | .ld d c i z f s => (32, word 0x31 [(d.val, 18), (c.val, 23), (i.val, 27), (z.val, 15), (f.val, 7), (s.val, 1)])
  | .ldS d c i z f s => (32, word 0x831 [(d.val, 18), (c.val, 23), (i.val, 27), (z.val, 15), (f.val, 7), (s.val, 1)])
  | .st d c i z f s => (32, word 0x1031 [(d.val, 18), (c.val, 23), (i.val, 27), (z.val, 15), (f.val, 7), (s.val, 1)])
  | .lds d i z f s => (32, word 0x1831 [(d.val, 18), (i.val, 27), (z.val, 15), (f.val, 7), (s.val, 1)])
  | .ldsS d i z f s => (32, word 0x2031 [(d.val, 18), (i.val, 27), (z.val, 15), (f.val, 7), (s.val, 1)])
  | .sts d i z f s => (32, word 0x2831 [(d.val, 18), (i.val, 27), (z.val, 15), (f.val, 7), (s.val, 1)])
  | .ldmx d c i z f s => (32, word 0x3031 [(d.val, 18), (c.val, 23), (i.val, 27), (z.val, 15), (f.val, 7), (s.val, 1)])
  | .stmx d c i z f s => (32, word 0x3831 [(d.val, 18), (c.val, 23), (i.val, 27), (z.val, 15), (f.val, 7), (s.val, 1)])
  | .pref c i z s => (32, word 0x47b1 [(c.val, 23), (i.val, 27), (z.val, 15), (s.val, 1)])
  | .cload d c i f s => (32, word 0x24831 [(d.val, 18), (c.val, 23), (i.val, 27), (f.val, 7), (s.val, 1)])
  | .cstore d c i f s => (32, word 0x25031 [(d.val, 18), (c.val, 23), (i.val, 27), (f.val, 7), (s.val, 1)])
  | .cnarrow d c i s => (32, word 0x5fb1 [(d.val, 18), (c.val, 23), (i.val, 27), (s.val, 1)])
  | .crestr d c i s => (32, word 0x67b1 [(d.val, 18), (c.val, 23), (i.val, 27), (s.val, 1)])
  | .cget d c z s => (32, word 0x6fb1 [(d.val, 18), (c.val, 23), (z.val, 15), (s.val, 1)])
  | .cseal d c a s => (32, word 0x77b1 [(d.val, 18), (c.val, 23), (a.val, 27), (s.val, 1)])
  | .csealUn d c a s => (32, word 0x800077b1 [(d.val, 18), (c.val, 23), (a.val, 27), (s.val, 1)])
  | .ctestTag p c s => (32, word 0x7fb1 [(p.val, 18), (c.val, 23), (s.val, 1)])
  | .ctestUnsealed p c s => (32, word 0x107fb1 [(p.val, 18), (c.val, 23), (s.val, 1)])
  | .ctestSub p c k s => (32, word 0x207fb1 [(p.val, 18), (c.val, 23), (k.val, 27), (s.val, 1)])
  | .ctestIn p c i z s => (32, word 0x307fb1 [(p.val, 18), (c.val, 23), (i.val, 27), (z.val, 15), (s.val, 1)])
  | .bra p o s => (32, word 0x41 [(p.val, 11), (o.toNat, 13), (s.val, 1)])
  | .braN p o s => (32, word 0xc1 [(p.val, 11), (o.toNat, 13), (s.val, 1)])
  | .brl p o s => (32, word 0x141 [(p.val, 11), (o.toNat, 13), (s.val, 1)])
  | .call8 o s => (32, word 0x1c1 [(o.toNat, 13), (s.val, 1)])
  | .call16 o s => (32, word 0x241 [(o.toNat, 13), (s.val, 1)])
  | .jmp r s => (32, word 0x2c1 [(r.val, 13), (s.val, 1)])
  | .meld p t s => (32, word 0x341 [(p.val, 11), (t.val, 13), (s.val, 1)])
  | .shflIdx d a b z f s => (32, word 0x51 [(d.val, 27), (a.val, 16), (b.val, 21), (z.toNat, 26), (f.val, 7), (s.val, 1)])
  | .shflUp d a b z f s => (32, word 0x851 [(d.val, 27), (a.val, 16), (b.val, 21), (z.toNat, 26), (f.val, 7), (s.val, 1)])
  | .shflDown d a b z f s => (32, word 0x1051 [(d.val, 27), (a.val, 16), (b.val, 21), (z.toNat, 26), (f.val, 7), (s.val, 1)])
  | .shflXor d a b z f s => (32, word 0x1851 [(d.val, 27), (a.val, 16), (b.val, 21), (z.toNat, 26), (f.val, 7), (s.val, 1)])
  | .voteAll p q f s => (32, word 0x2051 [(p.val, 27), (q.val, 16), (f.val, 7), (s.val, 1)])
  | .voteAny p q f s => (32, word 0x2851 [(p.val, 27), (q.val, 16), (f.val, 7), (s.val, 1)])
  | .voteBallot d q f s => (32, word 0x3051 [(d.val, 27), (q.val, 16), (f.val, 7), (s.val, 1)])
  | .redux o d a f s => (32, word 0x3851 [(o.val, 21), (d.val, 27), (a.val, 16), (f.val, 7), (s.val, 1)])
  | .matchAny d a f s => (32, word 0x4051 [(d.val, 27), (a.val, 16), (f.val, 7), (s.val, 1)])
  | .matchAll p a f s => (32, word 0x4851 [(p.val, 27), (a.val, 16), (f.val, 7), (s.val, 1)])
  | .fork x q s => (32, word 0x87d1 [(x.val, 26), (q.val, 16), (s.val, 1)])
  | .copy x a b f s => (32, word 0x8851 [(x.val, 26), (a.val, 16), (b.val, 21), (f.val, 7), (s.val, 1)])
  | .copyq x s => (32, word 0x97d1 [(x.val, 26), (s.val, 1)])
  | .chain x a b f s => (32, word 0x9851 [(x.val, 26), (a.val, 16), (b.val, 21), (f.val, 7), (s.val, 1)])
  | .coll x a f s => (32, word 0xa051 [(x.val, 26), (a.val, 16), (f.val, 7), (s.val, 1)])
  | .post x f s => (32, word 0xa851 [(x.val, 26), (f.val, 7), (s.val, 1)])
  | .ecancel x s => (32, word 0xb7d1 [(x.val, 26), (s.val, 1)])
  | .estat x s => (32, word 0xbfd1 [(x.val, 26), (s.val, 1)])
  | .sleept t s => (32, word 0x7e1 [(t.val % 32, 16), (t.val / 32, 26), (s.val, 1)])
  | .waitc n k a d s => (32, word 0xfe1 [(n.val, 30), (k.val, 26), (a.val, 21), (d.val, 16), (s.val, 1)])
  | .bar b m s => (32, word 0x17e1 [(b.val, 16), (m.toNat, 26), (s.val, 1)])
  | .arrive b m s => (32, word 0x1fe1 [(b.val, 16), (m.toNat, 26), (s.val, 1)])
  | .await b m s => (32, word 0x27e1 [(b.val, 16), (m.toNat, 26), (s.val, 1)])
  | .rvz q s => (32, word 0x2fe1 [(q.val, 26), (s.val, 1)])
  | .dqpush a m s => (32, word 0x37e1 [(a.val, 21), (m.toNat, 26), (s.val, 1)])
  | .dqpop t s => (32, word 0x3fe1 [(t.val % 32, 16), (t.val / 32, 26), (s.val, 1)])
  | .csrr c d s => (32, word 0x47e1 [(c.val, 26), (d.val, 16), (s.val, 1)])
  | .csrw c a s => (32, word 0x4fe1 [(c.val, 26), (a.val, 21), (s.val, 1)])
  | .trap c s => (32, word 0x57e1 [(c.val, 26), (s.val, 1)])
  | .tret => (32, word 0x5fe1 [])
  | .spill n c f s => (32, word 0x6061 [(n.val % 32, 16), (n.val / 32, 26), (c.val, 21), (f.val, 7), (s.val, 1)])
  | .fill n c f s => (32, word 0x6861 [(n.val % 32, 16), (n.val / 32, 26), (c.val, 21), (f.val, 7), (s.val, 1)])
  | .redx y t a r f s => (32, word 0x7061 [(y.val, 30), (t.val, 26), (a.val, 21), (r.val, 16), (f.val, 7), (s.val, 1)])
  | .movS t a s => (32, word 0x7fe1 [(t.val % 32, 16), (t.val / 32, 26), (a.val, 21), (s.val, 1)])
  | .atom o z c a d f s => (32, word 0x8061 [(o.val, 28), (z.toNat, 27), (c.val, 11), (a.val, 21), (d.val, 16), (f.val, 7), (s.val, 1)])
  | .atomm o z c a d f s => (32, word 0x4008061 [(o.val, 28), (z.toNat, 27), (c.val, 11), (a.val, 21), (d.val, 16), (f.val, 7), (s.val, 1)])
  | .mcfg afmt bfmt kb => (64, word 0 [(0, 60), (afmt.val, 56), (bfmt.val, 52), (kb.val, 44)])
  | .mload buf mcast addr => (64, word 0 [(1, 60), (buf.val, 58), (mcast.toNat, 50), (addr.toNat, 0)])
  | .mma acc zero => (64, word 0 [(2, 60), (acc.val, 57), (zero.toNat, 56)])
  | .mdrain acc ofmt rm tr trm mem toff dest => (64, word 0 [(3, 60), (acc.val, 57), (ofmt.val, 53), (rm.val, 50), (tr.toNat, 49), (trm.val, 46), (mem.toNat, 45), (toff.toNat, 32), (dest.toNat, 0)])
  | .mwait kind value addr => (64, word 0 [(4, 60), (kind.val, 58), (value.toNat, 32), (addr.toNat, 0)])
  | .mstep back count addinc => (64, word 0 [(5, 60), (back.val, 54), (count.toNat, 42), (addinc.toNat, 0)])
  | .chainFadd d a b => (32, word 0x0 [(d.val, 23), (a.val, 19), (b.val, 15)])
  | .chainFsub d a b => (32, word 0x8000000 [(d.val, 23), (a.val, 19), (b.val, 15)])
  | .chainFmul d a b => (32, word 0x10000000 [(d.val, 23), (a.val, 19), (b.val, 15)])
  | .chainFfma d a b c => (32, word 0x18000000 [(d.val, 23), (a.val, 19), (b.val, 15), (c.val, 11)])
  | .chainFmin d a b => (32, word 0x20000000 [(d.val, 23), (a.val, 19), (b.val, 15)])
  | .chainFmax d a b => (32, word 0x28000000 [(d.val, 23), (a.val, 19), (b.val, 15)])
  | .chainFex2 d a => (32, word 0x30000000 [(d.val, 23), (a.val, 19)])
  | .chainFlg2 d a => (32, word 0x38000000 [(d.val, 23), (a.val, 19)])
  | .chainFrcp d a => (32, word 0x40000000 [(d.val, 23), (a.val, 19)])
  | .chainFrsq d a => (32, word 0x48000000 [(d.val, 23), (a.val, 19)])
  | .chainFsqrt d a => (32, word 0x50000000 [(d.val, 23), (a.val, 19)])
  | .chainSel d a b c => (32, word 0x58000000 [(d.val, 23), (a.val, 19), (b.val, 15), (c.val, 11)])
  | .sumr d a => (32, word 0x60000000 [(d.val, 23), (a.val, 19)])
  | .maxr d a => (32, word 0x68000000 [(d.val, 23), (a.val, 19)])
  | .outq o a m k => (32, word 0x74000000 [(o.val, 23), (a.val, 19), (m.val, 4), (k.val, 0)])
  | .chainMov d a => (32, word 0x78000000 [(d.val, 23), (a.val, 19)])
  | .send a => (256, encodeStep 0 a)
  | .recv a => (256, encodeStep 1 a)
  | .recvadd a => (256, encodeStep 2 a)
  | .waitw a => (256, encodeStep 3 a)
  | .signal a => (256, encodeStep 4 a)
  | .sparse a => (256, encodeStep 5 a)
  | .recvsparse a => (256, encodeStep 6 a)
  | .endStep a => (256, encodeStep 7 a)
  | .descriptorRelease _ => (0, 0)
  | .engineOperationCompletion _ => (0, 0)
  | .epochCommit _ => (0, 0)
  | .tokenHoldExpiry _ => (0, 0)
  | .pathRotation _ _ => (0, 0)
  | .sleeptWake _ _ => (0, 0)
  | .waitcReread _ _ => (0, 0)
  | .read _ _ => (0, 0)
  | .own _ _ => (0, 0)
  | .grant _ _ => (0, 0)
  | .invalidation _ _ => (0, 0)
  | .recall _ _ => (0, 0)
  | .acknowledgement _ _ => (0, 0)
  | .evictionNotice _ _ => (0, 0)
  | .writeBack _ _ _ => (0, 0)
  | .data _ => (0, 0)
  | .ack _ => (0, 0)
  | .retry _ _ => (0, 0)
  | .retryReissue _ => (0, 0)
  | .error _ => (0, 0)
  | .refresh _ _ _ => (0, 0)
  | .powerDown _ => (0, 0)
  | .selfRefresh _ => (0, 0)
  | .powerStateExit _ => (0, 0)
  | .memorySideAccess _ => (0, 0)
  | .nmuCommand _ _ => (0, 0)
  | .partialSum _ => (0, 0)
  | .snpdata _ => (0, 0)
  | .snpinv _ => (0, 0)
  | .snpcur _ => (0, 0)
  | .cxlCacheResponse _ _ _ => (0, 0)
  | .cxlMemRead _ => (0, 0)
  | .cxlMemWrite _ _ => (0, 0)
  | .bisnpAnswer _ => (0, 0)
  | .epochEnd _ => (0, 0)
  | .chretireGo _ => (0, 0)
  | .retirementSwitch _ => (0, 0)
  | .backgroundSweep _ => (0, 0)
  | .notifyStore _ _ _ _ => (0, 0)
  | .queueMap _ _ => (0, 0)
  | .queueUnmap _ _ => (0, 0)
  | .nopCommand _ => (0, 0)
  | .launch _ _ _ => (0, 0)
  | .launchi _ _ _ _ => (0, 0)
  | .waitmem _ _ _ _ => (0, 0)
  | .write _ _ _ => (0, 0)
  | .branch _ _ _ _ => (0, 0)
  | .loop _ _ _ => (0, 0)
  | .qprio _ _ _ => (0, 0)
  | .process _ _ _ => (0, 0)
  | .kill _ _ _ => (0, 0)
  | .invS1Va _ _ _ _ _ _ => (0, 0)
  | .invS1Asid _ _ _ => (0, 0)
  | .invS2Gpa _ _ _ _ => (0, 0)
  | .invFn _ _ => (0, 0)
  | .invPart _ => (0, 0)
  | .invalidationCompletion _ _ => (0, 0)
  | .biasflip _ _ _ _ _ => (0, 0)
  | .deferred _ _ => (0, 0)
  | .migrate64k _ _ _ _ _ _ => (0, 0)
  | .cancel _ _ => (0, 0)
  | .admission _ => (0, 0)
  | .ageing _ _ => (0, 0)
  | .eviction _ _ => (0, 0)
  | .sliceEnd _ => (0, 0)
  | .staging _ => (0, 0)
  | .exchange _ => (0, 0)
  | .contextWriteBack _ => (0, 0)
  | .fqrespRetry _ _ _ => (0, 0)
  | .fqrespDeny _ _ _ => (0, 0)
  | .fqtailWrite _ _ => (0, 0)
  | .peerRd _ => (0, 0)
  | .peerWr _ => (0, 0)
  | .peerAtom _ => (0, 0)
  | .peerAtomm _ => (0, 0)
  | .launchPacket _ => (0, 0)
  | .cdata _ => (0, 0)
  | .clear _ => (0, 0)
  | .sparseFlit _ => (0, 0)
  | .spend _ => (0, 0)
  | .peerData _ _ => (0, 0)
  | .peerAck _ => (0, 0)
  | .peerError _ _ => (0, 0)
  | .peerRetry _ _ => (0, 0)
  | .resend _ => (0, 0)
  | .moved _ => (0, 0)
  | .movedReread _ => (0, 0)
  | .linkTimeout _ => (0, 0)
  | .portDown _ => (0, 0)
  | .vdnTableWrite _ _ => (0, 0)
  | .migctlGo _ _ => (0, 0)
  | .migctlStop _ => (0, 0)
  | .migctlAbort _ => (0, 0)
  | .precopyRoundEnd _ _ => (0, 0)
  | .governorWindow _ => (0, 0)
  | .migrationDataWrite _ => (0, 0)
  | .imageWrite _ => (0, 0)
  | .carriedResultWrite _ => (0, 0)
  | .install _ => (0, 0)
  | .switch _ => (0, 0)
  | .resume _ => (0, 0)
  | .forwardingEnd _ => (0, 0)
  | .partcluWrite _ _ => (0, 0)
  | .partcfgWrite _ _ => (0, 0)
  | .keyinstall _ _ => (0, 0)
  | .keyretire _ _ => (0, 0)
  | .attest _ _ => (0, 0)
  | .seal _ _ => (0, 0)
  | .unlock _ _ => (0, 0)
  | .fwload _ _ => (0, 0)
  | .fwcommit _ _ => (0, 0)
  | .migkey _ _ => (0, 0)
  | .tokenExpiry _ => (0, 0)
  | .breakpointArm _ _ _ => (0, 0)
  | .getVersion => (0, 0)
  | .getCapabilities => (0, 0)
  | .negotiateAlgorithms _ => (0, 0)
  | .getDigests => (0, 0)
  | .getCertificate => (0, 0)
  | .challenge _ => (0, 0)
  | .getMeasurements => (0, 0)
  | .keyExchange _ => (0, 0)
  | .finish _ => (0, 0)
  | .query => (0, 0)
  | .keyProg _ _ => (0, 0)
  | .kSetGo _ => (0, 0)
  | .kSetStop _ => (0, 0)
  | .pwrcapWrite _ => (0, 0)
  | .drawWindow _ => (0, 0)
  | .powerCapWindow => (0, 0)
  | .droop _ => (0, 0)
  | .thermal _ _ => (0, 0)
  | .patrolScrub _ => (0, 0)
  | .rascntWrite _ _ => (0, 0)
  | .warmReset => (0, 0)
  | .coldReset => (0, 0)
  | .registerWrite _ _ => (0, 0)
  | .portRetrain _ => (0, 0)
  | .dieBelow95c _ => (0, 0)
  | .droopEnd _ => (0, 0)

end Sys2Proof
end

