-- ==== Sys2Proof/Machine/Teams.lean ====
section
/-! DEFINITION. What a team shares: barriers (R299, R300), the decision queue (R169), retirement and the completion of its
launch (R176, R374). -/

namespace Sys2Proof.Machine

/-! ### Groups of a team -/

/-- The groups of a team that still stand, by number. -/
def State.groupsOf (s : State) (t : Team) : List (Nat × Group) :=
  t.groups.filterMap (fun k => (look s.groups k).map (fun g => (k, g)))

/-- The lanes of a group that have not exited. -/
def Group.unexited (g : Group) : List Nat := (List.range g.arch.lanes.length).filter (fun i => !(g.lane i).exited)

/-- A lane past the 32-bit instruction it waited at. -/
def Lane.released (l : Lane) : Lane := { l with park := none, pc := l.pc + 4 }

/-! ### Barriers -/

/-- Whether a group's role is in a role mask. -/
def Group.inRole (g : Group) (m : BitVec 4) : Bool := m.getLsbD g.role

/-- The required set of a role mask (R299). -/
def State.required (s : State) (t : Team) (m : BitVec 4) : List (Nat × Nat) :=
  (s.groupsOf t).flatMap (fun e => if e.2.inRole m then e.2.unexited.map (fun i => (e.2.index, i)) else [])

/-- A barrier of a team. -/
def Team.barrier (t : Team) (b : Nat) : Barrier := lookD t.barriers b {}

/-- Whether a barrier is open: its mask set and nobody left to arrive. -/
def State.isOpen (s : State) (t : Team) (b : Nat) : Bool :=
  (t.barrier b).mask != 0 && (s.required t (t.barrier b).mask).isEmpty

/-- Whether an AWAIT of a lane finds its phase complete (R300). -/
def Lane.phasePassed (l : Lane) (b : Nat) (k : Barrier) : Bool := k.phase.toNat % 16 != lookD l.awaited b 0

/-- AW after an AWAIT released by a phase. -/
def Lane.awaitedOne (l : Lane) (b : Nat) : Lane := { l with awaited := put l.awaited b ((lookD l.awaited b 0 + 1) % 16) }

/-- The lanes of a group that wait to arrive and have not arrived already. -/
def Group.arriving (g : Group) (b : Nat) (k : Barrier) : List Nat :=
  g.unexited.filter (fun i =>
    ((g.lane i).park == some (.arrive b) || (g.lane i).park == some (.barred b false)) && !k.arrived.contains (g.index, i))

/-- A waiting lane arrives: ARRIVE goes on, BAR goes on to wait (R300). -/
def Lane.arrives (l : Lane) (b : Nat) : Lane :=
  if l.park = some (.arrive b) then l.released
  else if l.park = some (.barred b false) then { l with park := some (.barred b true) }
  else l

/-- Every waiting lane of a team that can arrive does. -/
def State.arriveAll (s : State) (tid b : Nat) : State :=
  match look s.teams tid with
  | none => s
  | some t =>
    t.groups.foldl (fun u k =>
      match look u.groups k with
      | none => u
      | some g =>
        let kb := (lookD u.teams tid {}).barrier b
        let ls := g.arriving b kb
        if ls.isEmpty then u
        else
          (u.outside k (fun i l => if ls.contains i then l.arrives b else l)).onTeam tid (fun t =>
            { t with barriers := put t.barriers b { kb with arrived := kb.arrived ++ ls.map (fun i => (g.index, i)) } })) s

/-- A phase that is complete ends (R299). -/
def State.completePhase (s : State) (tid b : Nat) : State :=
  match look s.teams tid with
  | none => s
  | some t =>
    let k := t.barrier b
    let req := s.required t k.mask
    if !req.isEmpty && req.all (fun e => k.arrived.contains e) then
      s.onTeam tid (fun t => { t with barriers := put t.barriers b { k with phase := k.phase + 1, arrived := [] } })
    else s

/-- A group all of whose lanes wait in BAR after arriving goes on as one convoy once none has to wait any longer: counters
0 (R154, R300). -/
def Group.leaveBar (g : Group) (b : Nat) (open_ : Bool) (k : Barrier) : Group :=
  let ls := g.unexited
  if !ls.isEmpty && ls.all (fun i => (g.lane i).park == some (.barred b true) && (open_ || (g.lane i).phasePassed b k)) then
    let g1 := g.onLanes ls (fun _ l =>
      let l1 := if open_ then l else l.awaitedOne b
      { l1.released with counter := 0 })
    { g1 with arch := g1.arch.repath }
  else g

/-- The groups that BAR can let go. -/
def State.leaveBars (s : State) (tid b : Nat) : State :=
  match look s.teams tid with
  | none => s
  | some t =>
    let o := s.isOpen t b
    t.groups.foldl (fun u k => u.onGroup k (fun g => g.leaveBar b o (t.barrier b))) s

/-- A barrier after a change of its arrivals or of its required set: the phase ends when complete, waiting lanes arrive in
the new phase, which may end in turn, and lanes released by BAR go on. -/
def State.settleBarrier (s : State) (tid b : Nat) : State :=
  let s1 := ((s.completePhase tid b).arriveAll tid b).completePhase tid b
  (s1.arriveAll tid b).leaveBars tid b

/-- Every barrier of a team after lanes have exited. -/
def State.settleBarriers (s : State) (tid : Nat) : State := (List.range 16).foldl (fun u b => u.settleBarrier tid b) s

/-! ### The decision queue -/

/-- A group's pop position as its team sees it: that of the checkpoint while an epoch is open (R113). -/
def Group.popped (g : Group) : Nat := match g.epoch with | some e => e.saved.dqPos | none => g.arch.dqPos

/-- Decisions that every group they are for has popped, or cannot pop, are freed (R169). -/
def State.freeDecisions (s : State) (tid : Nat) : State :=
  s.onTeam tid (fun t =>
    { t with dq := t.dq.filter (fun d =>
        (s.groupsOf t).any (fun e => e.2.inRole d.mask && !e.2.unexited.isEmpty && decide (e.2.popped ≤ d.seq))) })

/-- Whether a team's guide still runs. -/
def State.guideRuns (s : State) (t : Team) : Bool :=
  match t.guide with
  | some k => (match look s.groups k with | some g => !g.unexited.isEmpty | none => false)
  | none => false

/-- What a DQPOP of a group finds (R170): a decision with the position after it, the end decision, or nothing yet. -/
def State.nextDecision (s : State) (t : Team) (g : Group) : Option (Word × Nat) :=
  match t.dq.find? (fun d => g.inRole d.mask && decide (g.arch.dqPos ≤ d.seq)) with
  | some d => some (d.value, d.seq + 1)
  | none => if s.guideRuns t then none else some (0xFFFFFFFF, g.arch.dqPos)

/-! ### Retirement -/

/-- Whether a team can retire (R176). -/
def State.isDone (s : State) (tid : Nat) (t : Team) : Bool :=
  t.state == .resident && (s.groupsOf t).all (fun e => e.2.unexited.isEmpty) && !s.guideRuns t &&
    !s.ops.any (fun e => e.2.team == tid) && !t.seqs.any (fun p => p.state == 1 || p.state == 2) &&
    !s.colls.any (fun e => e.2.team == tid && !e.2.ended) && !s.drains.any (fun e => t.groups.contains e.2.gid)

/-- The words the CP owes for a launch that ends with a status (R372, R374, R375). -/
def State.oweResult (s : State) (l : Launch) (status : Nat) : State :=
  { s with cpWrites := s.cpWrites ++
      [{ ctx := l.ctx, addr := l.result, bytes := toBytes 4 status, status := status }] ++
      (if l.completion = 0 then []
       else [{ ctx := l.ctx, addr := l.completion, status := (if status = 0x11 then 1 else status)
               bytes := toBytes 4 (if status = 0x11 then 1 else status) ++ toBytes 4 (s.partClock l.part / 2 ^ 10) }]) }

/-- A launch all of whose team sets have retired is complete (R176, R374). -/
def State.tryComplete (s : State) (lid : Nat) : State :=
  match look s.launches lid with
  | none => s
  | some l =>
    if l.status = 0x10 ∧ l.dimX * l.dimY * l.dimZ ≤ l.nextTeam ∧
        (s.teams.filter (fun e => e.2.launch == lid)).all (fun e => e.2.state == .retired) then
      { s with launches := put s.launches lid { l with status := 0x11 } }.oweResult l 0x11
    else s

/-- A team retires if it can: its groups, queue and barriers are gone (R176). -/
def State.tryRetire (s : State) (tid : Nat) : State :=
  match look s.teams tid with
  | none => s
  | some t =>
    if s.isDone tid t then
      let gids := t.groups ++ t.guide.toList
      let s1 := { s with
        groups := s.groups.filter (fun e => !gids.contains e.1)
        teams := put s.teams tid { t with state := .retired, groups := [], guide := none, dq := [], barriers := [] } }
      s1.tryComplete t.launch
    else s

/-- Everything that follows when lanes of a group have exited (R304). -/
def State.afterExit (s : State) (gid : Nat) : State :=
  match look s.groups gid with
  | none => s
  | some g => (((s.onGroup gid Group.tryLeave).settleBarriers g.team).freeDecisions g.team).tryRetire g.team

end Sys2Proof.Machine
end

