-- ==== Sys2Proof/Machine/Control.lean ====
section
/-! DEFINITION. Branches, calls and the register window (R285 to R289), melded regions (R164, R293), the simple C16 forms
(R294), the end of a thread (R304), FENCE (R135), control and status registers (R305 to R307), TRAP and TRET (R310, R311). -/

namespace Sys2Proof.Machine

/-! ### Branches and jumps -/

/-- A branch target: the instruction's address plus twice the signed offset (R221). -/
def Issue.target (x : Issue) (o : BitVec 19) : BitVec 57 := x.pc + (o.signExtend 57 <<< 1)

/-- The form of a branch that reads predicate p. -/
def branchForm (p s : Nat) : Form := { pr := [p], stall := s, rule := .forbidden }

/-- BRA (R286). -/
def execBra (p : Fin 4) (o : BitVec 19) (w : Fin 8) (s : State) : Out :=
  issue (branchForm p w) (fun x => x.commit { next := fun i => if x.p i p then some (x.target o) else none }) s

/-- BRA.n (R286). -/
def execBraN (p : Fin 4) (o : BitVec 19) (w : Fin 8) (s : State) : Out :=
  issue (branchForm p w) (fun x => x.commit { next := fun i => if x.p i p then none else some (x.target o) }) s

/-- BRL (R286): every lane follows the lowest. -/
def execBrl (p : Fin 4) (o : BitVec 19) (w : Fin 8) (s : State) : Out :=
  issue (branchForm p w)
    (fun x => x.commit { next := fun _ => if x.p x.low p then some (x.target o) else none }) s

/-- An address in the code section at a byte offset. -/
def Issue.codeAt (x : Issue) (off : Word) : BitVec 57 := BitVec.ofNat 57 (x.team.codebase + off.toNat)

/-- Lanes whose offset is odd: MISALIGNED with its target (R287). -/
def Issue.oddTargets (x : Issue) (off : Nat → Word) : List (Nat × Fail) :=
  x.act.filterMap (fun i =>
    if (off i).toNat % 2 = 1 then some (i, .cause .misaligned ((x.codeAt (off i)).zeroExtend 64) none) else none)

/-- JMP (R287). -/
def execJmp (r : Fin 32) (w : Fin 8) (s : State) : Out :=
  issue { vr := [r.val], stall := w, rule := .forbidden } (fun x =>
    match x.oddTargets (fun i => x.v 0 i r) with
    | [] => x.commit { next := fun i => some (x.codeAt (x.v 0 i r)) }
    | fs => x.failIn x.s .fetch fs) s

/-! ### Calls (R148, R288, R289) -/

/-- Why a CALL by k fails in a lane, with TADDR. -/
def Lane.callFail (l : Lane) (k : Nat) : Option (Cause × DWord) :=
  if 65536 < l.wbase + k + 24 then some (.windowOverflow, 0xFFFFFFFFFFFFFFFF#64)
  else if l.resbase + l.scap < l.wbase + k + 24 then
    some (.windowOverflow, BitVec.ofNat 64 (l.wbase + k + 24 - (l.resbase + l.scap)))
  else if l.wbase + k - 1 < l.resbase then some (.windowUnderflow, BitVec.ofNat 64 (l.resbase - (l.wbase + k - 1)))
  else none

/-- Why a RET by k fails in a lane, with TADDR. -/
def Lane.retFail (l : Lane) (k : Nat) : Option (Cause × DWord) :=
  if l.wbase < k then some (.windowUnderflow, 0xFFFFFFFFFFFFFFFF#64)
  else if l.wbase - k < l.resbase then some (.windowUnderflow, BitVec.ofNat 64 (l.resbase - (l.wbase - k)))
  else none

/-- The failing lanes of a test on lanes. -/
def Issue.windowFails (x : Issue) (f : Lane → Option (Cause × DWord)) : List (Nat × Fail) :=
  x.act.filterMap (fun i => (f (x.lane i)).map (fun e => (i, .cause e.1 e.2 none)))

/-- Lanes in which an unfinished write to a link register stands, under the checking scoreboard, as STALL_SHORT reports them (R226):
`at_` gives the link's place, where the lane has one. -/
def Issue.linkShort (x : Issue) (reg : Nat) (at_ : Lane → Option Nat) : List (Nat × DWord) :=
  if x.g.depchk then
    x.act.filterMap (fun i =>
      ((at_ (x.lane i)).bind (fun key => (x.hazardsOn i .v key).head?)).map (fun e => (i, shortAddr .v reg e.2.varLat (e.2.due - x.dist))))
  else []

/-- CALL by k: the link into v(7 + k), the window shifted, the target taken. -/
def callBy (k : Nat) (o : BitVec 19) (w : Nat) (s : State) : Out :=
  issue { stall := w, rule := .forbidden } (fun x =>
    match x.linkShort (7 + k) (fun l => some (l.key (7 + k))), x.windowFails (fun l => l.callFail k) with
    | [], [] =>
      let link := BitVec.ofNat 32 (x.nextPc.toNat - x.team.codebase)
      x.commit { v := fun _ => [(7 + k, link)], lane := fun _ l => { l with wbase := l.wbase + k }
                 next := fun _ => some (x.target o) }
    | [], fs => x.failIn x.s .fetch fs
    | e :: r, _ => x.trap .stallShort e.2 ((e :: r).map (·.1))) s

/-- CALL.8 (R288). -/
def execCall8 (o : BitVec 19) (w : Fin 8) (s : State) : Out := callBy 8 o w s

/-- CALL.16 (R288). -/
def execCall16 (o : BitVec 19) (w : Fin 8) (s : State) : Out := callBy 16 o w s

/-- The link a RET reads, at position WBASE - 1. -/
def Issue.link (x : Issue) (i : Nat) : Word :=
  let l := x.lane i
  x.pick 0 i .v (7 + l.wbase) (l.position (l.wbase - 1))

/-- RET by k; an unfinished or uncorrectable link is reported as v7, the register below the window (R226, R400). -/
def retBy (k : Nat) (s : State) : Out :=
  issue { short := true, rule := .forbidden } (fun x =>
    match x.linkShort 7 (fun l => if l.wbase < k then none else some (7 + l.wbase)), x.windowFails (fun l => l.retFail k) with
    | e :: r, _ => x.trap .stallShort e.2 ((e :: r).map (·.1))
    | [], [] =>
      let hit := x.act.filter (fun i => x.g.arch.struck.contains { lane := i, file := .v, key := 7 + (x.lane i).wbase })
      match (x.oddTargets x.link).filter (fun f => !hit.contains f.1), hit with
      | [], [] =>
        x.commit { lane := fun _ l => { l with wbase := l.wbase - k }, next := fun i => some (x.codeAt (x.link i)) }
      | [], i :: r => x.checkRegs (checkRegAddr .v 7 i) (i :: r)
      | fs, _ => x.failIn x.s .fetch fs
    | [], fs => x.failIn x.s .fetch fs) s

/-- RET.8 (R289). -/
def execRet8 (s : State) : Out := retBy 8 s

/-- RET.16 (R289). -/
def execRet16 (s : State) : Out := retBy 16 s

/-! ### Melded regions (R164) -/

/-- A convoy put into region t at position 0, its paths by a predicate. -/
def Group.enterRegion (g : Group) (mask : List Nat) (t : Nat) (path : Nat → Bool) : Group :=
  let g1 := g.onLanes mask (fun i l =>
    { l with meld := some { region := t, position := 0, path := path i, convoy := g.arch.nextConvoy } })
  { g1 with arch := { g1.arch with nextConvoy := g1.arch.nextConvoy + 1 } }

/-- Whether region t can be entered at an address. -/
def Issue.canMeld (x : Issue) (t : Nat) : Bool :=
  match x.launch.melds[t]? with
  | some d => d.count != 0 && BitVec.ofNat 57 (x.team.codebase + d.start) == x.nextPc
  | none => false

/-- MELD (R164, R293). -/
def execMeld (p : Fin 4) (t : Fin 64) (w : Fin 8) (s : State) : Out :=
  issue { pr := [p.val], stall := w, rule := .forbidden } (fun x =>
    if x.canMeld t then x.commit { group := fun g => g.enterRegion x.mask t (fun i => x.p i p) }
    else x.refuseTrap .meldViolation s.fetched x.act) s

/-- MEND (R164, R293). -/
def execMend (s : State) : Out :=
  issue { short := true, rule := .mend }
    (fun x => x.commit { group := fun g => g.onLanes x.mask (fun _ l => { l with meld := none }) }) s

/-! ### The simple forms (R294) -/

/-- NOP. -/
def execNop (s : State) : Out := issue { short := true } (fun x => x.commit {}) s

/-- YIELD: each slice of the convoy moves to its next path (R155). -/
def execYield (s : State) : Out := issue { short := true } (fun x => x.commit { yields := true }) s

/-- STALL: the group issues nothing for n core cycles. -/
def execStall (n : Fin 256) (s : State) : Out :=
  issue { short := true } (fun x => x.commit { group := fun g => { g with idle := x.s.ownClock x.team.core + n } }) s

/-- FENCE (R135, R283): it drains, and that is all. -/
def execFence (s : State) : Out := issue { short := true, drain := true } (fun x => x.commit {}) s

/-- EXIT (R304). -/
def execExit (s : State) : Out :=
  issue { short := true, rule := .forbidden, drain := true } (fun x =>
    (x.commit { lane := fun _ l => { l with exited := true } }).afterExit x.gid) s

/-! ### Control and status registers (R305 to R307) -/

/-- The value a lane reads from a CSR. -/
def Issue.csr (x : Issue) (c i : Nat) : Nat :=
  let l := x.lane i
  let ones := 2 ^ 32 - 1
  match c with
  | 0x00 => x.g.laneId i
  | 0x01 => if x.g.isGuide then ones else x.g.index
  | 0x02 => x.team.teamId
  | 0x03 => x.team.gridX
  | 0x04 => x.team.gridY
  | 0x05 => x.team.gridZ
  | 0x06 => x.s.partClock x.team.ctx.part
  | 0x07 => l.window
  | 0x08 => x.g.arch.fpcsr.toNat
  | 0x09 => x.g.arch.srseed.toNat
  | 0x0A => if x.g.depchk then 1 else 0
  | 0x0B => x.g.outctlWord
  | 0x10 => x.g.tvec.toNat
  | 0x11 => x.g.tcause + (if x.g.trapMode then 2 ^ 8 else 0)
  | 0x12 => x.g.taddr.toNat
  | 0x13 => x.g.tpc.toNat
  | 0x14 => x.g.tmask.toNat
  | 0x15 => l.tmeld.word
  | 0x16 => x.g.spillprog.toNat
  | 0x17 => x.g.partdone.toNat
  | _ => 0

/-- Whether a number names a CSR (R306). -/
def isCsr (c : Nat) : Bool := decide (c ≤ 0x0B ∨ (0x10 ≤ c ∧ c ≤ 0x17))

/-- CSRR (R305). -/
def execCsrr (c : Fin 64) (d : Fin 32) (w : Fin 8) (s : State) : Out :=
  issue { vw := [d.val, d + 1], wide := [(d.val, 2)], stall := w, lat := if c.val = 6 then 1 else 6
          drain := decide (c.val = 6), fpWait := decide (c.val = 8) } (fun x =>
    if isCsr c then
      x.commit { v := fun i => [(d.val, BitVec.ofNat 32 (x.csr c i)), (d + 1, BitVec.ofNat 32 (x.csr c i / 2 ^ 32))] }
    else x.refuseTrap .illegalInstruction s.fetched x.act) s

/-- A GVA as a CSR keeps it: bit 0 zero. -/
def codeField (v : DWord) : BitVec 57 := (v.truncate 57 : BitVec 57) &&& ~~~1#57

/-- A CSRW of OUTCTL (R138); the guide ignores it (R124). -/
def OutCtl.write (o : OutCtl) (v : DWord) : OutCtl :=
  { o with en := v.getLsbD 0, rbtotal := if bits v 16 16 = 0 then o.rbtotal else 0 }

/-- A per-group CSR written. -/
def Group.writeCsr (g : Group) (c : Nat) (v : DWord) : Group :=
  match c with
  | 0x08 => { g with arch := { g.arch with fpcsr := fpWrite g.arch.fpcsr v } }
  | 0x09 =>
    { g with arch := { g.arch with
        srseed := v.truncate 32, lanes := g.arch.lanes.map (fun l => { l with convCount := 0 }) } }
  | 0x0A => { g with depchk := v.getLsbD 0 }
  | 0x0B => if g.isGuide then g else { g with outctl := g.outctl.write v }
  | 0x10 => { g with tvec := codeField v }
  | 0x11 => { g with tcause := bits v 0 6 }
  | 0x12 => { g with taddr := v }
  | 0x13 => { g with tpc := codeField v }
  | 0x14 => { g with tmask := v }
  | 0x16 => { g with spillprog := v.truncate 9 }
  | 0x17 => { g with partdone := v }
  | _ => g

/-- CSRW (R305): a CSR all of whose fields are read-only, or a trap CSR outside trap mode, is ILLEGAL_INSTRUCTION. -/
def execCsrw (c : Fin 64) (a : Fin 32) (w : Fin 8) (s : State) : Out :=
  issue { vr := [a.val, a + 1], wide := [(a.val, 2)], stall := w, drain := !(c.val == 8 || c.val == 9), fpWait := decide (c.val = 8) } (fun x =>
    if isCsr c = false ∨ c.val ≤ 7 ∨ (0x10 ≤ c.val ∧ x.g.trapMode = false) then
      x.trap .illegalInstruction s.fetched x.act
    else if c.val = 0x15 then x.commit { lane := fun i l => { l with tmeld := l.tmeld.write (x.pair 0 i a) } }
    else x.commit { group := fun g => g.writeCsr c (x.pair 0 x.low a) }) s

/-! ### Traps -/

/-- TRAP (R310): TPC is the next instruction. -/
def execTrap (c : Fin 64) (w : Fin 8) (s : State) : Out :=
  issue { stall := w, drain := true } (fun x =>
    (x.commit {}).trap x.gid
      { cause := .trapInstruction, addr := BitVec.ofNat 64 c, lanes := x.act
        pc := if x.g.trapMode then x.pc else x.nextPc, convoy := x.mask }) s

/-- TRET (R311): the lanes stop here; with the last of the trapping convoy, trap mode ends. -/
def execTret (s : State) : Out :=
  issue { rule := .forbidden, drain := true } (fun x =>
    if x.g.trapMode = false then x.trap .illegalInstruction s.fetched x.act
    else
      x.s.setGroup x.gid
        (let g1 := x.g.onLanes x.act (fun _ l => { l with atTret := true })
         ({ g1 with arch := ({ g1.arch with distance := x.dist } : GroupArch).repath, outctl := g1.outctl.step x.mask, issuedCount := g1.issuedCount + 1 }
            : Group).tryLeave)) s

end Sys2Proof.Machine
end

