-- ==== Sys2Proof/Machine/Sync.lean ====
section
/-! DEFINITION. The waits (R158, R295 to R303): on flags, on time, on memory, at barriers, on the decision queue and on
engine programs; with the events that wake lanes (R155, R297, R298). A lane that must wait is parked at its instruction;
once what it waits for has come, the instruction executes again and finds it. -/

namespace Sys2Proof.Machine

/-- TADDR of an ENGINE_FAULT (R314): source, cause, mask or s-index. -/
def engineFaultAddr (source cause low : Nat) : DWord :=
  BitVec.ofNat 64 (source % 256 * 2 ^ 24 + cause % 64 * 2 ^ 16 + low % 2 ^ 16)

/-! ### WAITF (R295) -/

/-- The flags of a mask. -/
def flagsIn (m : BitVec 12) : List Nat := (List.range 12).filter (fun i => m.getLsbD i)

/-- WAITF: the group's own results are waited for, then every masked flag; a masked fault bit traps (R316). -/
def execWaitf (m : BitVec 12) (s : State) : Out :=
  issue { short := true } (fun x =>
    let g := if (flagsIn m).any (fun i => x.g.flag i != 0) then x.g.settleBy (fun i => (flagsIn m).contains i) else x.g
    let y : Issue := { x with s := x.s.setGroup x.gid g, g := g }
    if (flagsIn m).any (fun i => g.flag i != 0) then y.park (.waitf m)
    else
      let bad := (flagsIn m).filter (fun i => (look g.faultBits i).isSome)
      match bad with
      | [] => y.commit {}
      | i :: _ =>
        let mask := bad.foldl (fun n b => n + 2 ^ b) 0
        let s1 := if g.holdsTrap then y.s
          else y.s.setGroup x.gid { g with faultBits := bad.foldl (fun t b => del t b) g.faultBits }
        s1.trap x.gid { cause := .engineFault, addr := engineFaultAddr 1 (lookD g.faultBits i 0) mask, lanes := x.act
                        pc := x.pc, convoy := x.mask }) s

/-! ### SLEEPT (R297) -/

/-- The copy a PROMISE pair is bound to, while it has not completed. -/
def Issue.boundCopy (x : Issue) (pair : Nat) : Option Nat :=
  match x.g.arch.bound.find? (fun b => b.1 == pair) with
  | some b => if (look x.s.ops b.2).isSome then some b.2 else none
  | none => none

/-- SLEEPT. -/
def execSleept (t : Fin 256) (w : Fin 8) (s : State) : Out :=
  issue { sr := [t.val, t + 1], stall := w, rule := .forbidden, drain := true } (fun x =>
    if x.s.partClock x.team.ctx.part < (x.spair 0 t).toNat then x.park (.sleept t)
    else if (x.boundCopy t).isSome then x.trap .lateCopy (BitVec.ofNat 64 t) x.act
    else x.commit {}) s

/-- SLEEPT_WAKE: CLOCK has come to a sleeping lane's time. -/
def execSleeptWake (g lane : Nat) (s : State) : Out :=
  match look s.groups g with
  | none => .next s
  | some k =>
    match (k.lane lane).park with
    | some (.sleept t) =>
      if k.spair t ≤ s.partClock (s.teamOf k).ctx.part then
        .next (s.outside g (fun i l => if i = lane ∧ l.park = some (.sleept t) then { l with park := none } else l))
      else .next s
    | _ => .next s

/-! ### WAITC (R298) -/

/-- The condition of WAITC and WAITMEM: EQ, NE, GEU, LTU. -/
def waitCond (n : Nat) (x c : Word) : Bool :=
  match n with
  | 0 => x == c
  | 1 => x != c
  | 2 => decide (c ≤ x)
  | _ => decide (x < c)

/-- A WAITC word must be LOCAL; MS may be either. -/
def localWord (k : Checked) : Checked :=
  match k with
  | .ok (r, f) =>
    match r.x with
    | some x => if x.kind = .dram then .ok (r, f) else .error (.cause .capPermission (BitVec.ofNat 64 r.gva) (some r.owner))
    | none => .ok (r, f)
  | .error e => .error e

/-- The monitors of a core, by line (R298). -/
def State.coreLines (s : State) (core : Nat) : List Nat :=
  (s.monitors.filter (fun m => !m.remote && (match look s.groups m.gid with | some g => (s.teamOf g).core == core | none => false))).foldl
    (fun l m => insertNat l m.line) []

/-- A monitor armed for a lane, where the core has one free or already watches the line. -/
def State.arm (s : State) (core gid lane line : Nat) : State :=
  let ls := s.coreLines core
  let m : Monitor := { line := line, gid := gid, lane := lane }
  if s.monitors.contains m then s
  else if ls.contains line ∨ ls.length < 64 then { s with monitors := s.monitors ++ [m] }
  else s

/-- A lane's monitor disarmed. -/
def State.disarm (s : State) (gid lane : Nat) : State :=
  { s with monitors := s.monitors.filter (fun m => !(m.gid == gid && m.lane == lane)) }

/-- The lines of a few reads given to a core, or, on a memory-side page, taken from the cores. -/
def State.obtainReads (s : State) (core : Nat) (rs : List Req) : State × Bool := s.gotten core rs

/-- WAITC: lanes whose word meets the condition go on, the others park under a monitor. -/
def execWaitc (n : Fin 4) (k : Fin 16) (a d : Fin 32) (w : Fin 8) (s : State) : Out :=
  issue { vr := [a.val, d.val], stall := w, rule := .forbidden, drain := true, mem := true } (fun x =>
    let core := x.team.core
    let cs := x.act.map (fun i =>
      (i, localWord (x.viaCap (x.g.cap k) i 0 i ((x.v 0 i a).toNat * 4) 4 permR .read 4 .load)))
    match failsOf cs with
    | [] =>
      let rs := (passed cs).map (·.2)
      let (s1, held) := x.s.obtainReads core (rs.map (·.1))
      if held = false then x.awaiting s1 (rs.map (·.1))
      else
        let bad := (rs.map (·.1)).filter (fun r => s1.badRead core r)
        if !bad.isEmpty then
          x.failIn (s1.recordReads x.team bad) .read (bad.map (fun r => (r.lane, Fail.cause .machineCheck r.checkAddr none)))
        else
          let s2 := s1.installAll (rs.filterMap (·.2))
          let met (r : Req) : Bool :=
            waitCond n (BitVec.ofNat 32 (ofBytes (s1.mem.getsUnder r.key r.loc 4))) (x.v 1 r.lane d)
          let go := ((rs.map (·.1)).filter met).map (·.lane)
          let stay := (rs.map (·.1)).filter (fun r => !met r)
          let s3 := if go.isEmpty then s2 else
            let y : Issue := { x with s := s2, mask := go, act := go }
            go.foldl (fun t i => t.disarm x.gid i) (y.commit {})
          let s4 := stay.foldl (fun t r => t.arm core x.gid r.lane (lineOf r.loc)) s3
          if stay.isEmpty then s4 else s4.onGroup x.gid (fun g => g.parkLanes (stay.map (·.lane)) .waitc)
    | fs => x.failIn x.s .read fs) s

/-- WAITC_REREAD: a lane parked in WAITC reads its word again. -/
def execWaitcReread (g lane : Nat) (s : State) : Out :=
  match look s.groups g with
  | none => .next s
  | some k =>
    if (k.lane lane).park = some .waitc then
      .next (s.outside g (fun i l => if i = lane ∧ l.park = some .waitc then { l with park := none } else l))
    else .next s

/-! ### Paths (R155) -/

/-- PATH_ROTATION: a slice whose current path has parked or has issued 64 instructions moves on, unless that path stands in
a region and is not parked. -/
def execPathRotation (g slice : Nat) (s : State) : Out :=
  match look s.groups g with
  | none => .next s
  | some k =>
    match k.arch.slices[slice]? with
    | none => .next s
    | some sl =>
      let mine := (k.arch.sliceLanes slice).filter (fun e => e.2.path == sl.current)
      let parked := mine.all (fun e => e.2.park.isSome)
      if parked ∨ (64 ≤ sl.issued ∧ mine.all (fun e => e.2.meld.isNone)) then
        .next (s.setGroup g { k with arch := k.arch.rotate slice sl.current })
      else .next s

/-! ### Barriers (R299, R300) -/

/-- The run-time conditions under which BAR, ARRIVE or AWAIT is illegal. -/
def Issue.barIllegal (x : Issue) (b : Nat) (m : BitVec 4) (arrives : Bool) : Bool :=
  let k := (x.team.barrier b).mask
  x.g.isGuide || (k != 0 && k != m) || (arrives && !x.g.inRole m)

/-- The mask latched by the first use of a barrier. -/
def State.latch (s : State) (tid b : Nat) (m : BitVec 4) : State :=
  s.onTeam tid (fun t => { t with barriers := put t.barriers b { t.barrier b with mask := m } })

/-- Lanes of a group joined to a barrier's arrivals. -/
def State.join (s : State) (tid b idx : Nat) (ls : List Nat) : State :=
  s.onTeam tid (fun t => { t with
    barriers := put t.barriers b { t.barrier b with arrived := (t.barrier b).arrived ++ ls.map (fun i => (idx, i)) } })

/-- ARRIVE: lanes that have not arrived in this phase do; the others park for the next. -/
def execArrive (b : Fin 16) (m : BitVec 4) (w : Fin 8) (s : State) : Out :=
  issue { stall := w, rule := .forbidden, drain := true, mem := true } (fun x =>
    if x.barIllegal b m true then x.trap .illegalInstruction s.fetched x.act
    else
      let s1 := x.s.latch x.g.team b m
      let here (i : Nat) : Bool := (x.team.barrier b).arrived.contains (x.g.index, i)
      let go := x.act.filter (fun i => !here i)
      let stay := x.act.filter here
      let s2 := if go.isEmpty then s1 else
        let y : Issue := { x with s := s1, mask := go, act := go }
        (y.commit {}).join x.g.team b x.g.index go
      let s3 := if stay.isEmpty then s2 else s2.onGroup x.gid (fun g => g.parkLanes stay (.arrive b))
      s3.settleBarrier x.g.team b) s

/-- AWAIT: lanes whose phase is complete, or all of them at an open barrier, go on. In an epoch it waits for the commit
where it would be the first use of its barrier. -/
def execAwait (b : Fin 16) (m : BitVec 4) (w : Fin 8) (s : State) : Out :=
  issue { stall := w, rule := .forbidden, mem := true } (fun x =>
    if x.barIllegal b m false then x.refuseTrap .illegalInstruction s.fetched x.act
    else if x.g.epoch.isSome ∧ (x.team.barrier b).mask = 0 then x.s
    else
      let s1 := x.s.latch x.g.team b m
      let t := lookD s1.teams x.g.team {}
      let o := s1.isOpen t b
      let passes (i : Nat) : Bool := o || (x.lane i).phasePassed b (t.barrier b)
      let go := x.act.filter passes
      let stay := x.act.filter (fun i => !passes i)
      let s2 := if go.isEmpty then s1 else
        let y : Issue := { x with s := s1, mask := go, act := go }
        y.commit { lane := fun _ l => if o then l else l.awaitedOne b }
      if stay.isEmpty then s2 else s2.onGroup x.gid (fun g => g.parkLanes stay (.await b))) s

/-- Whether every unexited lane of the group stands at a rendezvous with the convoy: parked as `waits` says at the same
address with the same counter, or in the convoy itself. -/
def Issue.allHere (x : Issue) (waits : Option Park → Bool) : Bool :=
  x.g.unexited.all (fun i =>
    let l := x.lane i
    x.mask.contains i || (waits l.park && l.pc == x.pc && l.counter == (x.lane x.low).counter))

/-- BAR: lanes wait for their group, then every lane arrives and awaits (R300). -/
def execBar (b : Fin 16) (m : BitVec 4) (w : Fin 8) (s : State) : Out :=
  issue { stall := w, rule := .forbidden, drain := true, mem := true } (fun x =>
    if x.barIllegal b m true then x.trap .illegalInstruction s.fetched x.act
    else
      let s1 := x.s.latch x.g.team b m
      if x.allHere (fun p => p == some (.bar b)) then
        (s1.onGroup x.gid (fun g => { g.parkLanes g.unexited (.barred b false) with
          arch := { (g.parkLanes g.unexited (.barred b false)).arch with distance := x.dist } })).settleBarrier x.g.team b
      else s1.onGroup x.gid (fun g => g.parkLanes x.mask (.bar b))) s

/-! ### The decision queue (R169, R170, R301) -/

/-- DQPUSH: the guide appends a decision, waiting while the queue is full. -/
def execDqpush (a : Fin 32) (m : BitVec 4) (w : Fin 8) (s : State) : Out :=
  issue { vr := [a.val], stall := w, rule := .forbidden, drain := true, mem := true } (fun x =>
    if x.g.isGuide = false then x.trap .illegalInstruction s.fetched x.act
    else if 64 ≤ x.team.dq.length then x.park .dqpush
    else
      ((x.commit {}).onTeam x.g.team (fun t =>
        { t with dq := t.dq ++ [{ seq := t.dqCount, value := x.v 0 x.low a, mask := m }], dqCount := t.dqCount + 1 })).freeDecisions
          x.g.team) s

/-- DQPOP: a rendezvous of the group, which then pops once (R170). -/
def execDqpop (t : Fin 256) (w : Fin 8) (s : State) : Out :=
  issue { sw := [t.val], stall := w, rule := .forbidden, mem := true } (fun x =>
    if x.g.isGuide then x.refuseTrap .illegalInstruction s.fetched x.act
    else if x.allHere (fun p => p == some .dqpop) then
      match x.s.nextDecision x.team x.g with
      | none => x.park .dqpop
      | some (v, pos) =>
        let others := x.g.unexited.filter (fun i => !x.mask.contains i)
        (x.commit
          { sregs := [(t.val, v)], lane := fun _ l => { l with counter := 0 }
            group := fun g =>
              let g1 := g.onLanes others (fun _ l => { l.released with counter := 0 })
              { g1 with arch := { g1.arch with dqPos := pos } } }).freeDecisions x.g.team
    else x.park .dqpop) s

/-! ### RVZ (R174, R303) -/

/-- A team's status on sequencer n: 0 matrix, 1 chain, 2 copy. -/
def Team.seq (t : Team) (n : Nat) : ProgStatus := (t.seqs[n]?).getD {}

/-- A team's status on a sequencer changed. -/
def Team.onSeq (t : Team) (n : Nat) (f : ProgStatus → ProgStatus) : Team :=
  { t with seqs := (List.range 3).map (fun i => if i = n then f (t.seq i) else t.seq i) }

/-- Whether a team has a program queued or running on a sequencer. -/
def Team.busyOn (t : Team) (n : Nat) : Bool := (t.seq n).state == 1 || (t.seq n).state == 2

/-- The sequencers that a 3-bit mask names. -/
def seqsIn (q : Nat) : List Nat := (List.range 3).filter (fun i => q / 2 ^ i % 2 == 1)

/-- Whether a deferred FORK of a group names one of some sequencers: its program stands, for what follows, as if forked (R126). -/
def Group.forks (g : Group) (ns : List Nat) : Bool :=
  g.deferred.any (fun d => match d.cmd with | .fork q _ _ _ _ _ _ _ => (seqsIn q).any ns.contains | _ => false)

/-- RVZ. -/
def execRvz (q w : Fin 8) (s : State) : Out :=
  issue { stall := w, rule := .forbidden, mem := true } (fun x =>
    if (seqsIn q).any x.team.busyOn || x.g.forks (seqsIn q) then x.park (.rvz q)
    else
      let bad := (seqsIn q).filter (fun n => (x.team.seq n).fault.isSome)
      match bad with
      | [] => x.commit {}
      | n :: _ =>
        let s1 := if x.g.holdsTrap then x.s
          else x.s.onTeam x.g.team (fun t => bad.foldl (fun t k => t.onSeq k (fun p => { p with fault := none })) t)
        s1.trap x.gid
          { cause := .engineFault, lanes := x.act, pc := x.pc, convoy := x.mask
            addr := engineFaultAddr 2 ((x.team.seq n).fault.getD 0) (bad.foldl (fun k b => k + 2 ^ b) 0) }) s

end Sys2Proof.Machine
end

