-- ==== Sys2Proof/Machine/Engine.lean ====
section
/-! DEFINITION. Engine operations (R128 to R132, R314 to R320): what an operation reads and writes, its accesses to PEER
memory, parking on a page fault, the range locks it registers, release under R130, the copy predictor (R343), the end of an
operation and of a program. -/

namespace Sys2Proof.Machine

/-! ### Fault codes of R315 that are no trap causes -/

def eBadField : Nat := 0x38
def eBadSequence : Nat := 0x39
def eMcast : Nat := 0x3A
def eLength : Nat := 0x3B
def eSlotForeign : Nat := 0x3C
def ePeerCancelled : Nat := 0x3D

/-! ### Operands -/

/-- Why an operation cannot go on: a fault with what the violation log records, or a page fault. -/
inductive Hitch where
  | fault (code : Nat) (log : Option (DWord × Nat))
  | page (f : PageFault) (gva : Nat) (isWrite : Bool)
  deriving DecidableEq, Repr

/-- A failed check as an operation meets it. -/
def Fail.hitch (f : Fail) (isWrite : Bool) : Hitch :=
  match f with
  | .cause c a k => .fault c.code (k.map (fun o => (a, o)))
  | .page p gva => .page p gva isWrite

/-- The requester of an operation (R47). -/
def State.opRequester (s : State) (o : EngineOp) : Requester :=
  let t := lookD s.teams o.team {}
  { ctx := o.ctx, cluster := t.cluster, core := t.core, engine := true, team := o.team
    collective := match o.kind with | .collective _ _ => true | _ => false }

/-- SCRATCH for an engine operand: any alignment, an address beyond 32 bits out of bounds (R54). -/
def State.scratchAt (s : State) (rq : Requester) (a n : Nat) : Except Fail Nat :=
  if 2 ^ 32 ≤ a then .error (.cause .scratchBound (BitVec.ofNat 64 a) (some rq.key)) else s.scratch rq (BitVec.ofNat 32 a) n 1

/-- ADDR of a machine check on scratch: SRC 1, the scratch address (R400). -/
def checkScratchAddr (a : Nat) : DWord := BitVec.ofNat 64 (2 ^ 60 + a)

/-- SCRATCH for an engine's own read: uncorrectable words fail it (R400). -/
def State.scratchRead (s : State) (rq : Requester) (a n : Nat) : Except Fail Nat :=
  match s.scratchAt rq a n with
  | .error f => .error f
  | .ok loc => if s.isBad loc n then .error (.cause .machineCheck (checkScratchAddr a) (some rq.key)) else .ok loc

/-- The parts of a byte range that lie in one 128-byte line each. -/
def lineParts (a n : Nat) : List (Nat × Nat) :=
  if n = 0 then []
  else (linesFrom a n).map (fun l =>
    let lo := max a (128 * l)
    (lo, min (a + n) (128 * l + 128) - lo))

/-- The accesses of n bytes at an offset of a capability, or at a scratch address, up to the first that fails (R45, R47). -/
def State.extent (s : State) (rq : Requester) (c : Option Cap) (off n : Nat) (isWrite : Bool) :
    List (Req × Option Found) × Option Hitch :=
  let what : What := if isWrite then .store [] else .load
  match c with
  | none =>
    match s.scratchAt rq off n with
    | .error f => ([], some (f.hitch isWrite))
    | .ok loc => ([({ lane := 0, unit := 0, gva := off, loc := loc, size := n, what := what }, none)], none)
  | some c =>
    let perm := permENG + (if isWrite then permW else permR)
    match s.checkCap rq c perm off n with
    | .error f => ([], some (f.hitch isWrite))
    | .ok gva =>
      (lineParts gva n).foldl (fun a p =>
        match a.2 with
        | some _ => a
        | none =>
          match s.checkAccess rq c (p.1 - c.base) p.2 perm (if isWrite then .engineWrite else .engineRead) 1 (p.1 / 4096 % 2 ^ 16) with
          | .error f => (a.1, some (f.hitch isWrite))
          | .ok g =>
            (a.1 ++ [({ lane := 0, unit := 0, gva := p.1, loc := outPlace g.f.x, size := p.2, key := s.serialOf g.f.x.key,
                        owner := c.owner, x := some g.f.x, what := what }, some g.f)], none)) ([], none)

/-- The fault with which an operation ends at an access that has failed for good: one to the line and in the direction of the
access that an ERROR or a DENY answered. -/
def EngineOp.breaks (o : EngineOp) (write : Bool) (gva owner : Nat) : Option Hitch :=
  match o.broken with
  | some b =>
    if b.write = write ∧ b.gva / 128 = gva / 128 then
      some (.fault b.code (if b.code = Cause.machineCheck.code then none else some (BitVec.ofNat 64 b.addr, owner)))
    else none
  | none => none

/-- A page fault as an operation meets it: as that fault, where it was answered DENY. -/
def EngineOp.meets (o : EngineOp) (owner : Nat) (h : Hitch) : Hitch :=
  match h with
  | .page _ gva w => (o.breaks w gva owner).getD h
  | _ => h

/-- Whether an access is to PEER memory. -/
def Req.isPeer (r : Req) : Bool := match r.x with | some x => x.kind == .peer | none => false

/-- What has come of an access to a PEER line. -/
def EngineOp.peerBytes (o : EngineOp) (r : Req) : Option (List Byte) :=
  (o.got.find? (fun e => decide (e.1 ≤ r.gva ∧ r.gva + r.size ≤ e.1 + e.2.length))).map (fun e => (e.2.drop (r.gva - e.1)).take r.size)

/-- The bytes of one access of an operation; none for those of a PEER line that have not come. -/
def State.opBytes (s : State) (o : EngineOp) (r : Req) : Except Hitch (Option (List Byte)) :=
  match r.x with
  | none =>
    if s.isBad r.loc r.size then .error (.fault Cause.machineCheck.code (some (checkScratchAddr r.gva, 0)))
    else .ok (some (s.mem.getsUnder 0 r.loc r.size))
  | some x =>
    match o.breaks false r.gva r.owner, x.kind with
    | some h, _ => .error h
    | none, .peer => .ok (o.peerBytes r)
    | none, .notify => .ok (some (toBytes r.size 0))
    | none, _ =>
      match s.badGranules r.loc r.size with
      | g :: _ => .error (.fault Cause.machineCheck.code (some (BitVec.ofNat 64 (16 * g), 0)))
      | [] => .ok (some (s.mem.getsUnder r.key r.loc r.size))

/-- What an operation comes to: the accesses it reads by, those to PEER memory whose bytes have not come, the bytes it writes in
order (`solid`: how many of these writes come before the first such access), the translations it used (each with the line and the direction of its access), the sticky bits, and why it went no further. -/
structure Made where
  reads : List Req := []
  needs : List Req := []
  writes : List (Req × List Byte) := []
  solid : Option Nat := none
  founds : List (Nat × Bool × Found) := []
  sticky : Nat := 0
  hitch : Option Hitch := none

/-- The translations of accesses, each with its line and direction. -/
def foundsOf (write : Bool) (rs : List (Req × Option Found)) : List (Nat × Bool × Found) :=
  rs.filterMap (fun e => e.2.map (fun f => (e.1.gva / 128, write, f)))

/-- Bytes read after others: what was read, up to the first access that fails; zeros for what a peer still owes. -/
def State.readInto (s : State) (rq : Requester) (o : EngineOp) (m : Made) (c : Option Cap) (off n : Nat) : Made × List Byte :=
  let (rs, h) := s.extent rq c off n false
  let r := rs.foldl (fun (a : List Byte × List Req × Option Hitch) e =>
    match a.2.2 with
    | some _ => a
    | none =>
      match s.opBytes o e.1 with
      | .ok (some l) => (a.1 ++ l, a.2.1, none)
      | .ok none => (a.1 ++ List.replicate e.1.size 0, a.2.1 ++ [e.1], none)
      | .error f => (a.1, a.2.1, some f)) ([], [], none)
  ({ m with
     reads := m.reads ++ rs.map (·.1), needs := m.needs ++ r.2.1, solid := if r.2.1.isEmpty then m.solid else m.solid.or (some m.writes.length), founds := m.founds ++ foundsOf false rs
     hitch := match r.2.2 with | some f => some f | none => h.map (o.meets ((c.map (·.owner)).getD 0)) }, r.1)

/-- Bytes written after others. -/
def State.writeInto (s : State) (rq : Requester) (o : EngineOp) (m : Made) (c : Option Cap) (off : Nat) (l : List Byte) : Made :=
  if l.isEmpty then m
  else
    let (rs0, h) := s.extent rq c off l.length true
    let rs := rs0.takeWhile (fun e => e.1.x.isNone || (o.breaks true e.1.gva e.1.owner).isNone)
    let stop : Option Hitch := (rs0.drop rs.length).head?.bind (fun e => o.breaks true e.1.gva e.1.owner)
    let ws := rs.foldl (fun (a : List (Req × List Byte) × List Byte) e =>
      (a.1 ++ [({ e.1 with what := .store (a.2.take e.1.size) }, a.2.take e.1.size)], a.2.drop e.1.size)) ([], l)
    { m with
      writes := m.writes ++ ws.1, founds := m.founds ++ foundsOf true rs
      hitch := (m.hitch.or stop).or (h.map (o.meets ((c.map (·.owner)).getD 0))) }

/-! ### Granules of what is written (R316, R320) -/

/-- The granule of a write: of scratch, or of memory, by its address. -/
def Req.granuleKey (r : Req) : Bool × Nat := (r.x.isNone, r.gva / 16)

/-- n bytes of an access, from its byte k on. -/
def Req.piece (r : Req) (k n : Nat) : Req :=
  { r with gva := r.gva + k, loc := r.loc + k, size := n, x := r.x.map (fun x => { x with out := x.out + k }) }

/-- A write cut at granule boundaries, at most `fuel` pieces. -/
def granulePieces (r : Req) (l : List Byte) (fuel : Nat) : List (Req × List Byte) :=
  match fuel with
  | 0 => []
  | k + 1 =>
    if l.isEmpty then []
    else
      let n := min l.length (16 - r.gva % 16)
      ({ r.piece 0 n with what := .store (l.take n) }, l.take n) :: granulePieces (r.piece n (r.size - n)) (l.drop n) k

/-- What an operation writes, granule by granule in order: the pieces that follow one another in one granule together. -/
def Made.granules (m : Made) : List (List (Req × List Byte)) :=
  (m.writes.flatMap (fun w => granulePieces w.1 w.2 (w.2.length / 16 + 2))).foldr (fun w acc =>
    match acc with
    | (v :: g) :: rest => if v.1.granuleKey = w.1.granuleKey then (w :: v :: g) :: rest else [w] :: acc
    | _ => [w] :: acc) []

/-- What stands of an operation that ends early: its first n granules. -/
def Made.cut (m : Made) (n : Nat) : Made := { m with writes := (m.granules.take n).flatten }

/-- What stands where the byte after the last one written was not written: nothing of the granule they share. -/
def Made.wholeBefore (m : Made) (scratch : Bool) (next : Nat) : Made :=
  if next % 16 = 0 then m
  else
    match m.granules.getLast? with
    | some g => if (g.head?).map (fun w => w.1.granuleKey) = some (scratch, next / 16) then m.cut (m.granules.length - 1) else m
    | none => m

/-- What an operation comes to with the PEER bytes that have come. -/
def Made.solidPart (m : Made) : Made := { m with writes := match m.solid with | some n => m.writes.take n | none => m.writes }

/-- The bytes an operation writes. -/
def Made.bytes (m : Made) : Nat := m.writes.foldl (fun n w => n + w.2.length) 0

/-! ### Copies (R341, R342) -/

/-- Whether a side of a copy is addressed through the index table. -/
def CopyDesc.indexed (d : CopyDesc) (dst : Bool) : Bool := if dst then d.kind == 3 else d.kind == 2

/-- Where row r of a side lies: an offset or a scratch address. -/
def CopyDesc.row (d : CopyDesc) (dst : Bool) (r idx : Nat) : Nat :=
  if dst then d.doff + (if d.kind = 3 then idx * d.rbytes else if d.kind = 0 then 0 else r * d.dstride)
  else d.soff + (if d.kind = 2 then idx * d.rbytes else if d.kind = 0 then 0 else r * d.sstride)

/-- The scratch address of the index table. -/
def CopyDesc.table (d : CopyDesc) : Nat := if d.kind = 2 then d.sstride else d.dstride

/-- The capability of a side, none for scratch. -/
def EngineOp.side (o : EngineOp) (d : CopyDesc) (dst : Bool) : Option Cap :=
  if dst then (if d.dsp then none else some o.capB) else (if d.ssp then none else some o.capA)

/-- One row moved: its index read, its bytes read, those that were read written in whole granules. -/
def State.copyRow (s : State) (rq : Requester) (o : EngineOp) (d : CopyDesc) (m : Made) (r : Nat) : Made :=
  let (m0, ib) := if d.kind ≤ 1 then (m, []) else s.readInto rq o m none (d.table + 4 * r) 4
  if m0.hitch.isSome then m0
  else
    let to_ := d.row true r (ofBytes ib)
    let (m1, l) := s.readInto rq o m0 (o.side d false) (d.row false r (ofBytes ib)) d.rbytes
    match m1.hitch with
    | none => s.writeInto rq o m1 (o.side d true) to_ l
    | some h =>
      let m2 := s.writeInto rq o { m1 with hitch := none } (o.side d true) to_ l
      { (if m2.hitch.isNone then m2.wholeBefore d.dsp (((o.side d true).map (·.base)).getD 0 + to_ + l.length) else m2) with hitch := some h }

/-- A copy: rows in ascending order up to the first that fails. -/
def State.copyMade (s : State) (o : EngineOp) (d : CopyDesc) : Made :=
  let rq := s.opRequester o
  (List.range d.rows).foldl (fun m r => if m.hitch.isSome then m else s.copyRow rq o d m r) {}

/-! ### PEER accesses (R132) -/

/-- An answer to an operation's access at a peer (R414, R416). -/
def EngineOp.answered (o : EngineOp) (r : Req) (a : Answer) : EngineOp :=
  match r.failOf a with
  | some (.cause c ad _) =>
    { o with out := none, broken := some { gva := r.gva, write := r.what.writes, code := c.code, addr := ad.toNat } }
  | _ =>
    match a, r.what.writes with
    | .data l, false => { o with out := none, got := o.got ++ [(r.gva, l)] }
    | _, _ => { o with out := none, acked := o.acked + 1, peerTo := r.gva / 128 + 1 }

/-- A party of an operation parked on a page fault (R317, R393), or the operation broken by an immediate DENY (R395). -/
def State.parkOp (s : State) (id : Nat) (o : EngineOp) (f : PageFault) (gva : Nat) (isWrite : Bool) : State :=
  if bits (s.part o.ctx.part).fqBase 13 1 = 0 ∧ s.isMoving o.ctx.fn f = false then
    { s with ops := put s.ops id { o with
      out := none, broken := some { gva := gva, write := isWrite, code := f.cause.code, addr := gva } } }
  else
    let t := lookD s.teams o.team {}
    let coll : Bool := match o.kind with | .collective _ _ => true | _ => false
    let s1 := { s with ops := put s.ops id { o with out := none, state := .parked } }
    s1.parkOn o.ctx.part
      { id := none, fn := o.ctx.fn, asid := if coll then 0 else o.ctx.asid, fault := f, gva := gva
        access := if isWrite then 7 else 6, source := if coll then 3 else 2
        cluster := t.cluster, core := if coll then 0 else t.core % 8, parties := [.op id f.cause gva isWrite] }

/-- The final answer to an operation's outbound access. -/
def State.opAnswer (s : State) (id : Nat) (r : Req) (a : Answer) : State :=
  match look s.ops id with
  | none => s
  | some o =>
    match r.failOf a with
    | some (.page f gva) => s.parkOp id o f gva r.what.writes
    | _ => { s with ops := put s.ops id (o.answered r a) }

/-- An operation's access sent to a peer, once the translation it goes by stands in the tables and caches (R24); what the device
serves itself is answered at once (R412). -/
def State.opSend (s0 : State) (id : Nat) (o : EngineOp) (m : Made) (r : Req) : State :=
  let s := s0.installAll ((m.founds.filter (fun f => f.1 == r.gva / 128 && f.2.1 == r.what.writes)).map (fun f => f.2.2))
  match r.x, s.svdnOf o.ctx.fn with
  | some x, some sv =>
    let (s1, oid) := s.sendOut { owner := .op id, part := o.ctx.part, fn := o.ctx.fn, svdn := sv, vdn := x.vdn, gpa := x.out,
                                 size := r.size, what := r.what, tc := 1, state := .held, req := some r
                                 seq := if r.what.writes then some (o.acked % 65536) else none }
    let (s2, a) := ({ s1 with ops := put s1.ops id { o with out := some oid } } : State).serveOut oid
    match a with
    | some a => s2.opAnswer id r a
    | none => s2
  | _, _ => s.opAnswer id r (.error .peerRoster)

/-- The lowest of some lines. -/
def lowest (l : List Nat) : Option Nat := l.foldl (fun a n => some (match a with | some k => min k n | none => n)) none

/-- The request for the bytes that reads still need of the lowest line: the smallest aligned 16, 32, 64 or 128 bytes that hold them
(R74, R132). -/
def peerRead (needs : List Req) : Option Req :=
  match lowest (needs.map (fun r => r.gva / 128)) with
  | none => none
  | some l =>
    let rs := needs.filter (fun r => r.gva / 128 == l)
    match rs with
    | [] => none
    | r :: _ =>
      let lo := rs.foldl (fun n q => min n q.gva) r.gva
      let hi := rs.foldl (fun n q => max n (q.gva + q.size)) 0
      let n := (([16, 32, 64] : List Nat).find? (fun n => lo / n == (hi - 1) / n)).getD 128
      let back := r.gva - lo / n * n
      some { r with gva := r.gva - back, loc := r.loc - back, size := n, what := .load
                    x := r.x.map (fun x => { x with out := x.out - back }) }

/-- The write of one line of PEER memory: the bytes that an operation leaves there, a later write over an earlier one. -/
def Made.lineWrite (m : Made) (line : Nat) : Option Req :=
  let ws := m.writes.filter (fun w => w.1.isPeer && w.1.gva / 128 == line)
  match ws with
  | [] => none
  | w :: _ =>
    let lo := ws.foldl (fun n v => min n v.1.gva) w.1.gva
    let hi := ws.foldl (fun n v => max n (v.1.gva + v.2.length)) 0
    let cells := ws.foldl (fun c v => cellsAt v.1.gva v.2 ++ c) []
    let at_ (k : Nat) : Option Byte := (cells.find? (fun c => c.1 == lo + k)).map (·.2)
    let l := (List.range (hi - lo)).map at_
    let bytes := l.map (fun b => b.getD 0)
    let back := w.1.gva - lo
    some { w.1 with
      gva := lo, loc := w.1.loc - back, size := hi - lo, x := w.1.x.map (fun x => { x with out := x.out - back })
      what := if l.all Option.isSome then .store bytes
        else .masked (l.zipIdx.foldl (fun m e => if e.1.isSome then m ||| (1#128 <<< e.2) else m) 0) bytes }

/-- The next line of PEER memory that an operation writes: in ascending address (R132, R417). -/
def Made.nextLine (m : Made) (from_ : Nat) : Option Req :=
  (lowest ((m.writes.filter (fun w => w.1.isPeer && decide (from_ ≤ w.1.gva / 128))).map (fun w => w.1.gva / 128))).bind m.lineWrite

/-! ### Performing -/

/-- Whether an access is to LOCAL or HOST memory. -/
def Req.isLocal (r : Req) : Bool := match r.x with | some x => x.kind == .dram || x.kind == .host | none => false

/-- Whether an access is to a memory-side page. -/
def Req.isNear (r : Req) : Bool := match r.x with | some x => x.ms | none => false

/-- The local accesses of an operation, and whether each writes. -/
def Made.locals (m : Made) : List (Req × Bool) :=
  (m.reads.filter Req.isLocal).map (fun r => (r, false)) ++ ((m.writes.map (·.1)).filter Req.isLocal).map (fun r => (r, true))

/-- The lines of an operation's local accesses taken (R131); a channel that sleeps starts its exit (R80). -/
def State.takeFor (s : State) (m : Made) : State :=
  m.locals.foldl (fun t e =>
    let u := t.takeRange e.1.loc e.1.size e.2
    if e.1.isNear ∧ u.belowReady e.1.loc e.1.size true = false then u.chanUse e.1.loc else u) s

/-- Whether every line has been given, and the channels and the MSC are ready (R80, R98). -/
def State.gaveAll (s : State) (m : Made) : Bool :=
  m.locals.all (fun e => s.rangeFree e.1.loc e.1.size e.2 && s.belowReady e.1.loc e.1.size e.1.isNear)

/-- The local accesses of an operation performed: its reads through the homes, then its writes in order. -/
def State.performMade (s : State) (c : Ctx) (m : Made) : State :=
  let s1 := (m.reads.filter Req.isLocal).foldl (fun t r => t.below r.loc r.size r.key r.isNear false) (s.installAll (m.founds.map (fun f => f.2.2)))
  m.writes.foldl (fun t w =>
    match w.1.x with
    | none => t.perform none 0 (cellsAt w.1.loc w.2)
    | some x =>
      match x.kind with
      | .peer => t
      | .notify => t.acceptNotify c.part c.fn w.1.loc (BitVec.ofNat 64 (ofBytes w.2))
      | _ => (t.below w.1.loc w.2.length w.1.key x.ms true).perform none w.1.key (cellsAt w.1.loc w.2)) s1

/-! ### Locks (R128 to R130) -/

/-- Whether two ranges share anything: bytes of one context, output pages otherwise, scratch bytes. -/
def State.rangesMeet (s : State) (c1 : Ctx) (r1 : Range) (c2 : Ctx) (r2 : Range) : Bool :=
  if r1.scratch != r2.scratch then false
  else if r1.scratch then overlap r1.base r1.len r2.base r2.len
  else if sameCtx c1 c2 then overlap r1.base r1.len r2.base r2.len
  else
    let p1 := gvaPieces s c1 r1.base (r1.base + r1.len)
    let p2 := gvaPieces s c2 r2.base (r2.base + r2.len)
    p1.any (fun p => p2.any (fun q => p.sharesPage q.kind q.out q.size))

/-- Whether ranges of a context touch a page whose flip has passed its wait for locks (R94): the flip's command is past
`flipLocks`. -/
def State.flipHolds (s : State) (c : Ctx) (rs : List Range) : Bool :=
  let pages := s.parts.flatMap (fun e => e.2.waiting.filterMap (fun w =>
    match w.what with
    | .flipHost fn gpa _ _ _ _ => if fn = c.fn then some gpa else none
    | .flipInval _ fn gpa _ => if fn = c.fn then some gpa else none
    | _ => none))
  !pages.isEmpty && rs.any (fun r => !r.scratch && (gvaPieces s c r.base (r.base + r.len)).any (fun p =>
    pages.any (fun g => overlap p.base p.size g (2 ^ 16))))

/-- Whether ranges of a context meet a live range that holds their command back (R130), or a flip does (R94); `own` marks
the ranges that do not. -/
def State.blocked (s : State) (c : Ctx) (srcs dsts : List Range) (own : EngineOp → Bool) : Bool :=
  s.flipHolds c (srcs ++ dsts) || (s.lockers.filter (fun e => !own e.2)).any (fun e =>
    let here (q : Range) : Bool := !q.scratch || s.onCoreNow e.2
    dsts.any (fun r => ((e.2.srcs ++ e.2.dsts).filter here).any (fun q => s.rangesMeet c r e.2.ctx q)) ||
      srcs.any (fun r => (e.2.dsts.filter here).any (fun q => s.rangesMeet c r e.2.ctx q)))

/-- Whether an operation uses a copy entry of its core's RLT; the others use matrix-and-chain entries, or the collective
engine's (R128, R347). -/
def EngineOp.isCopy (o : EngineOp) : Bool := match o.kind with | .copy _ => true | _ => false

/-- Whether an operation's entry stands in the parked-lock store of its partition (R384). -/
def State.parkedLock (s : State) (o : EngineOp) : Bool :=
  match o.kind with
  | .collective _ _ => false
  | _ => (match look s.teams o.team with | some t => t.state == .swapped | none => false)

/-- Whether a core's RLT has a free entry of the kind. -/
def State.hasEntry (s : State) (core : Nat) (copy : Bool) : Bool :=
  decide ((s.ops.filter (fun e => e.2.core == core && e.2.isCopy == copy && e.2.locked && !s.parkedLock e.2)).length <
    (if copy then 64 else if 512 ≤ core then 64 else 16))

/-- LOCK and start (R8, R27): the operation registered, RLS set in the pages its memory ranges touch. -/
def State.start (s : State) (o : EngineOp) : State × Nat :=
  let id := s.nextId
  let s1 := { s with nextId := id + 1, ops := put s.ops id o }
  ((o.srcs ++ o.dsts).foldl (fun t r => if r.scratch then t else t.setRls o.ctx r.base (r.base + r.len)) s1, id)

/-! ### The copy predictor (R343) -/

/-- A class's starting values. -/
def Predictor.initial (cls : Nat) : Predictor :=
  match cls with
  | 0 => { lat := 200, rateNum := 256, rateDen := 1, margin := 20, early := 0 }
  | 1 => { lat := 600, rateNum := 64, rateDen := 1, margin := 20, early := 0 }
  | 2 => { lat := 2000, rateNum := 8, rateDen := 1, margin := 20, early := 0 }
  | _ => { lat := 4000, rateNum := 16, rateDen := 1, margin := 20, early := 0 }

/-- A core's predictor for a class. -/
def Core.predictor (c : Core) (cls : Nat) : Predictor := lookD c.predictors cls (Predictor.initial cls)

/-- ceil(MARGIN × (LAT + n / RATE) / 16). -/
def Predictor.ahead (p : Predictor) (lat n : Nat) : Nat :=
  ceilDiv (p.margin * (lat * p.rateNum + n * p.rateDen)) (16 * p.rateNum)

/-- The predictor after a copy of n bytes took T where P was promised. -/
def Predictor.learn (p : Predictor) (n t pr : Nat) : Predictor :=
  let p1 :=
    if p.lat < t then
      let num := 7 * p.rateNum * (t - p.lat) + n * p.rateDen
      let den := 8 * p.rateDen * (t - p.lat)
      let g := Nat.gcd num den
      { p with rateNum := num / g, rateDen := den / g }
    else p
  if pr < t then { p1 with margin := min (p1.margin + 4) 64, early := 0 }
  else if 4 * t < 3 * pr then
    if p1.early + 1 = 16 then { p1 with margin := max (p1.margin - 1) 16, early := 0 } else { p1 with early := p1.early + 1 }
  else { p1 with early := 0 }

/-- How many bytes a copy in flight has moved: any number from those known to have moved up to those it can move before its first
fault, for the manual does not say how fast it goes. -/
def State.moved (s : State) (id : Nat) (o : EngineOp) : Nat :=
  let most := match o.kind with | .copy d => (s.copyMade o d).solidPart.bytes | _ => 0
  o.least + (Config.dword (2 ^ 66 + s.free * 2 ^ 16 + id)).toNat % (most - o.least + 1)

/-- What has been told of copies' progress stands from now on: that of the copies of a test. -/
def State.noteMoved (s : State) (test : Nat → EngineOp → Bool) : State :=
  { s with ops := s.ops.map (fun (e : Nat × EngineOp) => if e.2.isCopy && test e.1 e.2 then (e.1, { e.2 with least := s.moved e.1 e.2 }) else e) }

/-- The copies of a class released earlier on a core. -/
def EngineOp.ahead (o : EngineOp) (core cls : Nat) : Bool := o.core == core && o.isCopy && o.cls == cls

/-- Q: bytes still to move of the copies of a class released earlier on the core. -/
def State.queued (s : State) (core cls before : Nat) : Nat :=
  (s.ops.filter (fun e => e.1 < before && e.2.ahead core cls)).foldl
    (fun n e => n + (e.2.bytes - s.moved e.1 e.2)) 0

/-- The class of a memory side: the kind of the translation of one byte, LOCAL where it would fault or update A. -/
def State.classAt (s : State) (c : Ctx) (gva : Nat) (write : Bool) : Nat :=
  match freshWalk s c (if write then .engineWrite else .engineRead) gva with
  | .ok f =>
    if f.ad.any (fun a => (a.set &&& ~~~a.word).getLsbD 5) then 1
    else match f.x.kind with | .host => 2 | .peer => 3 | _ => 1
  | .error _ => 1

/-- The class of a copy: that of its slower side. -/
def State.classOf (s : State) (c : Ctx) (d : CopyDesc) (src dst : Cap) : Nat :=
  let side (scr : Bool) (k : Cap) (off : Nat) (dst : Bool) : Nat :=
    if scr then 0 else s.classAt c (if d.indexed dst then k.base else k.base + off) dst
  max (side d.ssp src d.soff false) (side d.dsp dst d.doff true)

/-! ### The end of an operation (R131, R316) -/

/-- The causes that also write a violation-log entry (R315). -/
def loggedCause (code : Nat) : Option Cause :=
  match code with
  | 0x08 => some .capBounds
  | 0x09 => some .capPermission
  | 0x0A => some .capScope
  | 0x0B => some .capTag
  | 0x0C => some .scratchBound
  | 0x13 => some .peerRoster
  | 0x14 => some .keyMismatch
  | _ => none

/-- A fault of an operation or program recorded: the violation log (R49, R315), the waybill for a machine check (R468). -/
def State.recordFault (s : State) (ctx : Ctx) (tid : Nat) (pc : BitVec 57) (coll : Bool) (code : Nat)
    (log : Option (DWord × Nat)) : State :=
  let t := lookD s.teams tid {}
  match loggedCause code, log with
  | some c, some (a, k) =>
    s.logViolation ctx.part
      { addr := a, pc := pc.toNat, cause := c, source := if coll then 3 else 2, lanes := 0, lane := 0, fn := ctx.fn, key := k
        cluster := t.cluster, core := if coll then 0 else t.core % 8 }
  | none, some (a, _) =>
    if code ≠ Cause.machineCheck.code then s
    else if 2 ^ 60 ≤ a.toNat then s.recordArray 4 a t
    else s.recordGranules [granule a.toNat] (some ctx.part) ctx.fn
  | _, _ => s

/-- A team's record of the latest copy of a PROMISE pair; `forker` holds the copy's number. -/
def State.noteCopy (s : State) (id : Nat) (o : EngineOp) (st code moved : Nat) : State :=
  match o.pair with
  | some p =>
    let k := o.gid * 256 + p
    s.onTeam o.team (fun t =>
      if id < (lookD t.copies k {}).forker then t
      else { t with copies := put t.copies k { state := st, cause := code, progress := moved, forker := id } })
  | none => s

/-- A direct command's flag falls, with the fault bit where it faulted (R316). -/
def State.dropFlag (s : State) (gid flag code : Nat) : State :=
  s.onGroup gid (fun g => let g1 := if code = 0 then g else g.setFault flag code; g1.fall flag)

/-- An operation gone from the tables: its ranges freed, the binding of its pair ended (R131, R344). -/
def State.dropOp (s : State) (id : Nat) (o : EngineOp) : State :=
  let s1 := { s with ops := del s.ops id }
  match o.pair with
  | some _ => s1.onGroup o.gid (fun g => { g with arch := { g.arch with bound := g.arch.bound.filter (fun b => b.2 != id) } })
  | none => s1

/-- The predictor learns from a copy that completed. -/
def State.learn (s : State) (o : EngineOp) : State :=
  s.onCore o.core (fun c => { c with
    predictors := put c.predictors o.cls
      ((c.predictor o.cls).learn o.bytes (s.partClock o.ctx.part - o.released) (o.promise - o.released)) })

/-- The count of a copy program's signal word rises (R345). -/
def State.signalWord (s : State) (tid a : Nat) : State :=
  let t := lookD s.teams tid {}
  match s.scratchAt { ctx := t.ctx, team := tid } a 4 with
  | .ok loc => s.perform none 0 (cellsAt loc (toBytes 4 (ofBytes (s.mem.getsUnder 0 loc 4) + 1)))
  | .error _ => s

/-! ### The end of a program (R173, R174) -/

/-- A sequencer left idle: 0 matrix, 1 chain, 2 copy. -/
def Core.idleSeq (c : Core) (n : Nat) : Core :=
  match n with
  | 0 => { c with matrix := none }
  | 1 => { c with chain := none }
  | _ => { c with copy := none }

/-- The holds of a team's buffers: all, or those of one buffer. -/
def isHold (tid : Nat) (buf : Option Nat) (o : EngineOp) : Bool :=
  o.team == tid && (match o.kind with | .hold b => buf.isNone || buf == some b | _ => false)

/-- A team's program on a sequencer ends, with a fault code or none. A matrix program's holds are freed with it (R326). -/
def State.endAlone (s : State) (tid n code : Nat) : State :=
  let t := lookD s.teams tid {}
  if t.busyOn n then
    let s1 := s.onTeam tid (fun t => t.onSeq n (fun p =>
      { p with state := if code = 0 then 3 else 4, cause := code, fault := if code = 0 then p.fault else some code }))
    let s2 := s1.onCore t.core (fun c => c.idleSeq n)
    let s3 := if n = 0 then { s2 with ops := s2.ops.filter (fun e => !isHold tid none e.2) }
      else if n = 2 then { s2 with ops := mapAll s2.ops (fun o => if o.team = tid ∧ o.program ∧ o.isCopy then { o with orphan := true } else o) }
      else s2
    s3.tryRetire tid
  else s

/-- The teams of a team's set whose multicast loads wait for it (R327). -/
def State.matchersOf (s : State) (tid : Nat) (t : Team) (round : Nat) : List (Nat × Nat) :=
  s.ops.filterMap (fun e =>
    let p := lookD s.teams e.2.team {}
    match e.2.kind with
    | .mload _ _ mc =>
      if e.2.state == .matching && e.2.team != tid && p.launch == t.launch && p.teamId - p.member == t.teamId - t.member &&
          mc.getLsbD t.member && (((s.core p.core).matrix).map (·.round)) == some round then some (e.1, e.2.team)
      else none
    | _ => none)

/-- A program ends; the multicast loads that wait for a matrix program of the set end theirs with MCAST_UNMATCHED (R327,
R354), at most `fuel` deep. -/
def State.endProgramIn (s : State) (tid n code fuel : Nat) : State :=
  let t := lookD s.teams tid {}
  let round := match (s.core t.core).matrix with | some r => if r.entry.team = tid then some r.round else none | none => none
  let s1 := s.endAlone tid n code
  match n, round, fuel with
  | 0, some k, f + 1 =>
    (s.matchersOf tid t k).foldl (fun u e => ({ u with ops := del u.ops e.1 } : State).endProgramIn e.2 0 eMcast f) s1
  | _, _, _ => s1

/-- A program ends. -/
def State.endProgram (s : State) (tid n code : Nat) : State := s.endProgramIn tid n code 8

/-- A program ends on a fault found outside any operation. -/
def State.faultProgram (s : State) (tid n : Nat) (h : Hitch) (cap : Cap) : State :=
  let t := lookD s.teams tid {}
  match h with
  | .fault code log =>
    (s.recordFault t.ctx tid 0 false code (log.map (fun l => (l.1, if code = 0x0C then t.ctx.keyId else cap.owner)))).endProgram
      tid n code
  | _ => s

end Sys2Proof.Machine
end

