-- ==== Sys2Proof/Machine/Formats.lean ====
section
/-! DEFINITION. The format codes of the engines (R229), dense elements (R188, R325), and what an engine writes of a value
with the status bits it sets (R190, R319, R329, R339). -/

namespace Sys2Proof.Machine

/-! ### Format codes (R229) -/

/-- The floating format of a code. -/
def fmtOf (n : Nat) : Option Fmt :=
  match n with
  | 0 => some .bf16
  | 1 => some .fp16
  | 2 => some .e4m3
  | 3 => some .e5m2
  | 4 => some .e2m3
  | 5 => some .e3m2
  | 6 => some .e2m1
  | 14 => some .fp32
  | _ => none

/-- The element format of an MX code. -/
def mxElem (n : Nat) : Option Elem :=
  match n with
  | 8 => some (.fmt .e4m3)
  | 9 => some (.fmt .e5m2)
  | 10 => some (.fmt .e2m3)
  | 11 => some (.fmt .e3m2)
  | 12 => some (.fmt .e2m1)
  | 13 => some .int8
  | _ => none

/-- Bits of an element in an operand or an MX block (R188, R325). -/
def elemBits (n : Nat) : Nat :=
  match n with
  | 0 | 1 => 16
  | 4 | 5 | 10 | 11 => 6
  | 6 | 12 => 4
  | 14 | 15 => 32
  | _ => 8

/-- Bits of an element of an output: FP6 outside MX blocks stands in a byte (R186, R330). -/
def outBits (n : Nat) : Nat := match n with | 4 | 5 => 8 | _ => elemBits n

/-- Whether a code is an MX format. -/
def isMx (n : Nat) : Bool := decide (8 ≤ n ∧ n ≤ 13)

/-- The value of an element code under a scale code; formats without scales ignore it (R188, R206). -/
def elemValue (n scale code : Nat) : FVal :=
  match mxElem n, fmtOf n with
  | some el, _ => el.value scale code
  | none, some f => f.decode code
  | none, none => let v := (BitVec.ofNat 8 code).toInt; .num (decide (v < 0)) v.natAbs 0

/-- The mode of a code 0 to 4 (R191), with the draw of SR. -/
def modeOf (n rnd : Nat) : Mode :=
  match n with
  | 0 => .rne
  | 1 => .rz
  | 2 => .ru
  | 3 => .rd
  | _ => .sr rnd

/-! ### Dense elements -/

/-- Codes of b bits as one number, the first lowest. -/
def packNat (b : Nat) (l : List Nat) : Nat :=
  match l with
  | [] => 0
  | c :: r => c % 2 ^ b + 2 ^ b * packNat b r

/-- Codes of b bits in bytes. -/
def packCodes (b : Nat) (l : List Nat) : List Byte := toBytes (l.length * b / 8) (packNat b l)

/-- n codes of b bits of a number. -/
def unpackNat (b n v : Nat) : List Nat :=
  match n with
  | 0 => []
  | k + 1 => v % 2 ^ b :: unpackNat b k (v / 2 ^ b)

/-- A list in pieces of n, at most `fuel`. -/
def pieces {α : Type} (n fuel : Nat) (l : List α) : List (List α) :=
  match fuel with
  | 0 => []
  | k + 1 => if l.isEmpty then [] else l.take n :: pieces n k (l.drop n)

/-! ### Status bits (R319): 1 SAT, 2 NAN, 4 INF, 8 DROP -/

def stSAT : Nat := 1
def stNAN : Nat := 2
def stINF : Nat := 4
def stDROP : Nat := 8

/-- What a written value sets. -/
def noteOf (x : FVal) : Nat := match x with | .nan => stNAN | .inf _ => stINF | .num _ _ _ => 0

/-- An FP32 value written in a format without blocks (R329). -/
def fromFp32 (n : Nat) (mode : Mode) (w : Word) : Nat × Nat :=
  let x := Fmt.fp32.decode w.toNat
  match fmtOf n with
  | none => (w.toNat, 0)
  | some f =>
    if n = 14 then (w.toNat, noteOf x)
    else if n ≤ 1 then
      let r := (convert f mode false false x).1
      (r, noteOf (f.decode r))
    else
      let r := convert f mode false true x
      (r.1, match x with | .nan => stNAN | .inf _ => stSAT | .num _ _ _ => if r.2 &&& fOF ≠ 0 then stSAT else 0)

/-- An INT32 value written (R329): copied, clamped to INT8, or rounded to FP32. -/
def fromInt32 (n : Nat) (mode : Mode) (w : Word) : Nat × Nat :=
  match n with
  | 7 =>
    let c := clampInt (-128) 127 w.toInt
    ((BitVec.ofInt 8 c).toNat, if c = w.toInt then 0 else stSAT)
  | 14 => ((Fmt.fp32.round mode false false (decide (w.toInt < 0)) w.toInt.natAbs 0).1, 0)
  | _ => (w.toNat, 0)

/-- Whether an element is clamped when it is quantised under scale exponent xe. -/
def clamped (el : Elem) (xe : Int) (mode : Mode) (x : FVal) : Bool :=
  match x with
  | .num neg m e =>
    (match el with
     | .int8 => let n := (roundInt mode neg m (e + 6 - xe)).1; decide (n < -127 ∨ 127 < n)
     | .fmt f => decide ((f.round mode false true neg m (e - xe)).2 &&& fOF ≠ 0))
  | _ => false

/-- QUANT_MX of 32 FP32 words with the bits it sets. -/
def quantBlock (el : Elem) (mode : Nat → Mode) (ws : List Word) : Nat × List Nat × Nat :=
  let xs := ws.map (fun w => Fmt.fp32.decode w.toNat)
  let q := quantMx xs el mode
  let st := if q.1 = 255 then stNAN
    else if (xs.zipIdx).any (fun (e : FVal × Nat) => clamped el ((q.1 : Int) - 127) (mode e.2) e.1) then stSAT else 0
  (q.1, q.2, st)

end Sys2Proof.Machine
end

