-- ==== Sys2Proof/Machine/Special.lean ====
section
/-! DEFINITION. The special functions (R247), correctly rounded: reciprocal and roots by exact integer arithmetic, the
transcendental ones by integer intervals so narrow that both ends round alike. Where they did not (no FP32 input is known
to be so hard), the value is the free Config.special. -/

namespace Sys2Proof.Machine

/-- floor(√n), from the bit at 2^k down. -/
def isqrtFrom (n r k : Nat) : Nat :=
  match k with
  | 0 => r
  | j + 1 => let t := r + 2 ^ j; isqrtFrom n (if t * t ≤ n then t else r) j

/-- floor(√n). -/
def isqrt (n : Nat) : Nat := isqrtFrom n 0 (Nat.log2 n / 2 + 1)

/-- An integer interval. -/
structure Ival where
  lo : Int
  hi : Int
  deriving DecidableEq, Repr

/-- The binary places of the intervals. -/
def places : Nat := 420

/-- 1. -/
def ivOne : Int := 2 ^ places

/-- The product of two non-negative intervals, rounded outward. -/
def Ival.mul (a b : Ival) : Ival := { lo := a.lo * b.lo / 2 ^ places, hi := a.hi * b.hi / 2 ^ places + 1 }

/-- Division of a non-negative interval by a positive number, rounded outward. -/
def Ival.divNat (a : Ival) (k : Nat) : Ival := { lo := a.lo / k, hi := a.hi / k + 1 }

def Ival.add (a b : Ival) : Ival := { lo := a.lo + b.lo, hi := a.hi + b.hi }
def Ival.sub (a b : Ival) : Ival := { lo := a.lo - b.hi, hi := a.hi - b.lo }

/-- The sum of t, t·x/(n+1), t·x²/((n+1)(n+2)), …, `fuel` terms: the series of e^x. -/
def expTerms (x t acc : Ival) (n fuel : Nat) : Ival :=
  match fuel with
  | 0 => { lo := acc.lo, hi := acc.hi + t.hi + 1 }
  | k + 1 => let t' := (t.mul x).divNat (n + 1); expTerms x t' (acc.add t') (n + 1) k

/-- e^x for 0 ≤ x ≤ 1. -/
def expIval (x : Ival) : Ival := expTerms x ⟨ivOne, ivOne⟩ ⟨ivOne, ivOne⟩ 0 120

/-- The sum of t − t·y/((n+1)(n+2)) + …: the series of sine (n = 1) and cosine (n = 0), y = x². -/
def altTerms (y t acc : Ival) (n fuel : Nat) (minus : Bool) : Ival :=
  match fuel with
  | 0 => { lo := acc.lo - t.hi - 1, hi := acc.hi + t.hi + 1 }
  | k + 1 =>
    let t' := ((t.mul y).divNat (n + 1)).divNat (n + 2)
    altTerms y t' (if minus then acc.sub t' else acc.add t') (n + 2) k (!minus)

def sinIval (x : Ival) : Ival := altTerms (x.mul x) x x 1 60 true
def cosIval (x : Ival) : Ival := altTerms (x.mul x) ⟨ivOne, ivOne⟩ ⟨ivOne, ivOne⟩ 0 60 true

/-- The sum over k of 1 / (k 2^k): ln 2. -/
def ln2Terms (k fuel : Nat) (acc : Ival) : Ival :=
  match fuel with
  | 0 => { lo := acc.lo, hi := acc.hi + 2 }
  | j + 1 =>
    let t := ivOne / (k * 2 ^ k : Nat)
    ln2Terms (k + 1) j ⟨acc.lo + t, acc.hi + t + 1⟩

/-- ln 2. -/
def ln2Ival : Ival := ln2Terms 1 places ⟨0, 0⟩

/-- arctan(1/d): the sum of ±1 / ((2k+1) d^(2k+1)). -/
def atanTerms (d k pow fuel : Nat) (minus : Bool) (acc : Ival) : Ival :=
  match fuel with
  | 0 => { lo := acc.lo - 2, hi := acc.hi + 2 }
  | j + 1 =>
    let t := ivOne / ((2 * k + 1) * pow : Nat)
    atanTerms d (k + 1) (pow * d * d) j (!minus)
      (if minus then ⟨acc.lo - t - 1, acc.hi - t⟩ else ⟨acc.lo + t, acc.hi + t + 1⟩)

/-- π / 2 by Machin's formula: 8 arctan(1/5) − 2 arctan(1/239). -/
def halfPi : Ival :=
  let a := atanTerms 5 0 5 100 false ⟨0, 0⟩
  let b := atanTerms 239 0 239 40 false ⟨0, 0⟩
  { lo := 8 * a.lo - 2 * b.hi, hi := 8 * a.hi - 2 * b.lo }

/-- A magnitude before rounding: (−1)^neg × 2^e × a value from lo to hi; sticky: the value lies above the grid point it is
cut to. -/
structure Near where
  neg : Bool
  lo : Nat
  hi : Nat
  e : Int
  sticky : Bool := true
  deriving DecidableEq, Repr

/-- A magnitude known at one grid point. -/
def Near.at (neg : Bool) (m : Nat) (e : Int) (sticky : Bool) : Near := { neg := neg, lo := m, hi := m, e := e, sticky := sticky }

/-- An interval's ends at `keep` fraction bits, times 2^e. -/
def Ival.near (a : Ival) (neg : Bool) (keep : Nat) (e : Int) : Near :=
  let cut : Int := (2 ^ (places - keep) : Nat)
  { neg := neg, lo := (a.lo / cut).toNat, hi := (a.hi / cut).toNat, e := e - keep }

/-- The fraction bits kept of an interval's floor. -/
def kept : Nat := 300

/-- The result both ends round to. Where they differ, the rounding is not decided here: the free value. -/
def finishSpecial (fn : Nat) (a : Word) (fpcsr : BitVec 16) (r : Near) : Word × Nat :=
  let at_ (m : Nat) := Fmt.fp32.round (fpMode fpcsr) (fpFtz fpcsr) false r.neg m r.e r.sticky
  if at_ r.lo = at_ r.hi then (BitVec.ofNat 32 (at_ r.lo).1, (at_ r.lo).2)
  else (Config.special fn a (fpcsr.toNat / 2 ^ 12), fNX)

/-- 1 / (m × 2^e), m ≠ 0. -/
def recip (m : Nat) (e : Int) : Nat × Int × Bool :=
  let n := 2 ^ 80
  (n / m, -e - 80, n % m != 0)

/-- √(m × 2^e): the exponent made even, 80 more bits. -/
def root (m : Nat) (e : Int) : Nat × Int × Bool :=
  let odd := e % 2 = 1
  let m' := (if odd then 2 * m else m) * 2 ^ 80
  let e' := (if odd then e - 1 else e) - 80
  let r := isqrt m'
  (r, e' / 2, r * r != m')

/-- 1 / √(m × 2^e). -/
def recipRoot (m : Nat) (e : Int) : Nat × Int × Bool :=
  let odd := e % 2 = 1
  let m' := if odd then 2 * m else m
  let e' := if odd then e - 1 else e
  let n := 2 ^ 160
  let r := isqrt (n / m')
  (r, -(e' / 2) - 80, r * r * m' != n)

/-- 2^x for x = (−1)^neg × m × 2^e. -/
def exp2 (neg : Bool) (m : Nat) (e : Int) : Near :=
  if m = 0 then .at false 1 0 false
  else if 12 ≤ topExp m e then .at false 1 (if neg then -4096 else 4096) false
  else
    let big := scaled neg m e (-200)
    let k := big / (2 ^ 200 : Nat)
    let f := big % (2 ^ 200 : Nat)
    if f = 0 then .at false 1 k false
    else
      let fx : Int := f * 2 ^ (places - 200)
      (expIval ((Ival.mk fx fx).mul ln2Ival)).near false kept k

/-- The fraction bits of log2 of an interval in [1, 2), by repeated squaring, `fuel` of them: the bits of both ends (the
interval holds 2 only where the value lies beside a step of the bits so far). -/
def log2Bits (y : Ival) (acc fuel : Nat) : Nat × Nat :=
  match fuel with
  | 0 => (acc, acc)
  | k + 1 =>
    let z := y.mul y
    if 2 * ivOne ≤ z.lo then log2Bits ⟨z.lo / 2, z.hi / 2 + 1⟩ (2 * acc + 1) k
    else if z.hi < 2 * ivOne then log2Bits z (2 * acc) k
    else ((2 * acc + 1) * 2 ^ k - 1, (2 * acc + 1) * 2 ^ k)

/-- log2(m × 2^e), m ≠ 0. -/
def log2Val (m : Nat) (e : Int) : Near :=
  let t := topExp m e
  if 2 ^ Nat.log2 m = m then .at (decide (t < 0)) t.natAbs 0 false
  else
    let y : Int := m * 2 ^ places / (2 ^ Nat.log2 m : Nat)
    let f := log2Bits ⟨y, y⟩ 0 128
    let v (n : Nat) : Int := t * 2 ^ 128 + n
    if v f.1 < 0 then { neg := true, lo := (-(v f.2) - 1).toNat, hi := (-(v f.1) - 1).toNat, e := -128 }
    else { neg := false, lo := (v f.1).toNat, hi := (v f.2).toNat, e := -128 }

/-- sin (or cos) of (−1)^neg × m × 2^e. -/
def sinCos (isCos neg : Bool) (m : Nat) (e : Int) : Near :=
  if m = 0 then (if isCos then .at false 1 0 false else .at neg 0 0 false)
  else if topExp m e < -40 then
    (if isCos then .at false (2 ^ 80 - 1) (-80) true else .at neg (m * 2 ^ 64 - 1) (e - 64) true)
  else
    let x : Int := m * pow2 (e + places)
    let hp := halfPi
    let n := x / hp.hi
    let r : Ival := { lo := x - n * hp.hi, hi := x - n * hp.lo }
    let q := (n % 4).toNat
    let useCos := if isCos then q % 2 = 0 else q % 2 = 1
    let sgn := if isCos then q = 1 ∨ q = 2 else (q = 2 ∨ q = 3) ≠ (neg = true)
    (if useCos then cosIval r else sinIval r).near (decide sgn) 250 0

/-- The special functions by number: 0 FRCP, 1 FRSQ, 2 FSQRT, 3 FEX2, 4 FLG2, 5 FSIN, 6 FCOS (R247). -/
def special (fn : Nat) (fpcsr : BitVec 16) (a : Word) : Word × Nat :=
  let nan : Word := BitVec.ofNat 32 Fmt.fp32.nanCode
  let inf (neg : Bool) : Word := if neg then 0xFF800000#32 else 0x7F800000#32
  let zero (neg : Bool) : Word := if neg then 0x80000000#32 else 0#32
  let out := finishSpecial fn a fpcsr
  match Fmt.fp32.read (fpFtz fpcsr) a.toNat with
  | .nan => (nan, 0)
  | .inf neg =>
    match fn with
    | 0 => (zero neg, 0)
    | 1 => if neg then (nan, fNV) else (zero false, 0)
    | 2 => if neg then (nan, fNV) else (inf false, 0)
    | 3 => if neg then (zero false, 0) else (inf false, 0)
    | 4 => if neg then (nan, fNV) else (inf false, 0)
    | _ => (nan, fNV)
  | .num neg m e =>
    match fn with
    | 0 => if m = 0 then (inf neg, fDZ) else let r := recip m e; out (.at neg r.1 r.2.1 r.2.2)
    | 1 =>
      if m = 0 then (inf neg, fDZ) else if neg then (nan, fNV)
      else let r := recipRoot m e; out (.at false r.1 r.2.1 r.2.2)
    | 2 =>
      if m = 0 then (zero neg, 0) else if neg then (nan, fNV)
      else let r := root m e; out (.at false r.1 r.2.1 r.2.2)
    | 3 => out (exp2 neg m e)
    | 4 => if m = 0 then (inf true, fDZ) else if neg then (nan, fNV) else out (log2Val m e)
    | 5 => out (sinCos false neg m e)
    | _ => out (sinCos true neg m e)

end Sys2Proof.Machine
end

