-- ==== Sys2Proof/Machine/Chain.lean ====
section
/-! DEFINITION. The chain engine (R333 to R339): images and descriptors, the checks before a run, the elements of a group,
the micro-ops. One step of a run processes one micro-op of one element group; its outputs are written at its event. -/

namespace Sys2Proof.Machine

/-! ### Images and descriptors (R333, R334) -/

/-- Bits [lo + n - 1 : lo] of a 32-bit word. -/
def wbits (w : Word) (lo n : Nat) : Nat := w.toNat / 2 ^ lo % 2 ^ n

def Image.count (i : Image) : Nat := wbits i.head 0 5
def Image.p1 (i : Image) : Nat := wbits i.head 5 5
def Image.p2 (i : Image) : Nat := wbits i.head 10 5

/-- Whether temporary n starts each row at −∞. -/
def Image.negInf (i : Image) (n : Nat) : Bool := i.head.getLsbD (15 + n)

/-- Bytes of an image whose header says so many micro-ops. -/
def imageBytes (count : Nat) : Nat := 20 + 4 * (if 1 ≤ count ∧ count ≤ 16 then count else 0)

/-- An image from its bytes. -/
def imageOf (l : List Byte) : Image :=
  let ws := wordsOf l (l.length / 4)
  { head := (ws.head?).getD 0, consts := (ws.drop 1).take 4, uops := ws.drop 5 }

/-- The micro-ops of a pass: from and to. -/
def Image.uopsOf (i : Image) (pass : Nat) : Nat × Nat :=
  match pass with
  | 0 => (0, i.p1)
  | 1 => (i.p1, i.p2)
  | _ => (i.p2, i.count)

/-- The first non-empty pass from one on. -/
def Image.passFrom (i : Image) (pass : Nat) : Option Nat :=
  (span pass (3 - pass)).find? (fun p => decide ((i.uopsOf p).1 < (i.uopsOf p).2))

/-- The last non-empty pass. -/
def Image.lastPass (i : Image) : Nat :=
  (([2, 1, 0] : List Nat).find? (fun p => decide ((i.uopsOf p).1 < (i.uopsOf p).2))).getD 0

/-- Word n of a descriptor. -/
def ChainRun.dword (r : ChainRun) (n : Nat) : Word := (r.desc[n]?).getD 0

def ChainRun.rows (r : ChainRun) : Nat := (r.dword 0).toNat

/-- The rows a run has completed. -/
def ChainRun.rowsDone (r : ChainRun) : Nat := if r.ended ∧ r.failed.isNone then r.rows else r.row

def ChainRun.width (r : ChainRun) : Nat := (r.dword 1).toNat

/-- One stream entry of a descriptor: 0 to 2 the inputs, 3 and 4 the outputs. -/
structure Stream where
  offset : Nat
  stride : Nat
  scaleOff : Nat
  cfg : Word
  deriving DecidableEq, Repr

/-- Stream n of a descriptor. -/
def ChainRun.stream (r : ChainRun) (n : Nat) : Stream :=
  { offset := (r.dword (4 + 4 * n)).toNat, stride := (r.dword (5 + 4 * n)).toNat, scaleOff := (r.dword (6 + 4 * n)).toNat
    cfg := r.dword (7 + 4 * n) }

def Stream.en (t : Stream) : Bool := t.cfg.getLsbD 5
def Stream.scratch (t : Stream) : Bool := t.cfg.getLsbD 4
def Stream.fmt (t : Stream) : Nat := wbits t.cfg 0 4

/-- Output formats OUTQ takes (R336). -/
def chainFmt (k : Nat) : Bool := decide (k ≤ 3 ∨ (8 ≤ k ∧ k ≤ 14))

/-- The micro-op words of an image that write output o. -/
def Image.outqs (i : Image) (o : Nat) : List (Nat × Word) :=
  (i.uops.zipIdx.filter (fun (e : Word × Nat) => wbits e.1 27 5 == 14 && wbits e.1 23 4 == 8 + o)).map
    (fun (e : Word × Nat) => (e.2, e.1))

/-- The format an output is written in. -/
def Image.outFmt (i : Image) (o : Nat) : Nat := match i.outqs o with | e :: _ => wbits e.2 0 4 | [] => 0

/-- Bytes of a row of a stream: elements, without scales. -/
def ChainRun.rowBytes (r : ChainRun) (n : Nat) : Nat :=
  if n < 3 then r.width * outBits (r.stream n).fmt / 8 else r.width * outBits (r.image.outFmt (n - 3)) / 8

/-! ### The checks before a run (R336) -/

/-- Whether the first word of a descriptor and its zero words are in range. -/
def ChainRun.headerOk (r : ChainRun) : Bool :=
  decide (1 ≤ r.rows ∧ r.rows < 2 ^ 16 ∧ 1 ≤ r.width ∧ r.width ≤ 2 ^ 20) && r.dword 2 == 0 && r.dword 3 == 0

/-- Whether a stream entry's fields are in range. -/
def ChainRun.streamOk (r : ChainRun) (n : Nat) : Bool :=
  let t := r.stream n
  decide (t.offset % 4 = 0 ∧ t.stride % 4 = 0 ∧ wbits t.cfg 6 26 = 0) &&
    (if n < 3 then decide (t.scaleOff = 0 ∧ (t.fmt ≤ 3 ∨ t.fmt = 14))
     else
       decide (t.fmt = 0) && (decide (t.scaleOff = 0) || (t.en && isMx (r.image.outFmt (n - 3)))) &&
         (!t.en || decide (t.stride ≠ 0 ∨ r.rows ≤ 1)) &&
         (!t.en || !isMx (r.image.outFmt (n - 3)) || decide (r.width % 32 = 0)))

/-- Whether an operand names an input stream that is off. -/
def ChainRun.badInput (r : ChainRun) (x : Nat) : Bool := decide (8 ≤ x ∧ x ≤ 10) && !(r.stream (x - 8)).en

/-- How many operands a micro-op has. -/
def uopArity (u : Nat) : Nat :=
  match u with
  | 0 | 1 | 2 | 4 | 5 => 2
  | 3 | 11 => 3
  | _ => 1

/-- Whether a micro-op is in range (R230, R336). -/
def ChainRun.uopOk (r : ChainRun) (w : Word) : Bool :=
  let u := wbits w 27 5
  (decodeChain w.toNat).isSome &&
    ((List.range (uopArity u)).all (fun k => !r.badInput (wbits w (19 - 4 * k) 4))) &&
    (u != 14 || (chainFmt (wbits w 0 4) && (r.stream (wbits w 23 4 - 5)).en))

/-- Whether an enabled output is written by exactly one OUTQ, in the last non-empty pass. -/
def ChainRun.outputOk (r : ChainRun) (o : Nat) : Bool :=
  if (r.stream (3 + o)).en then
    match r.image.outqs o with
    | [(k, _)] => decide ((r.image.uopsOf r.image.lastPass).1 ≤ k)
    | _ => false
  else true

/-- Whether a run may begin (R336). -/
def ChainRun.ok (r : ChainRun) : Bool :=
  let i := r.image
  decide (wbits i.head 23 9 = 0 ∧ 1 ≤ i.count ∧ i.count ≤ 16 ∧ i.p1 ≤ i.p2 ∧ i.p2 ≤ i.count) &&
    decide (i.uops.length = i.count) && i.uops.all r.uopOk && r.outputOk 0 && r.outputOk 1 && r.headerOk &&
    (List.range 5).all r.streamOk

/-! ### Ranges (R128, R335) -/

/-- The first byte and the bytes of the interval a stream may touch: its rows, and for an MX output its scales. -/
def ChainRun.reach (r : ChainRun) (n : Nat) : List (Nat × Nat) :=
  let t := r.stream n
  if t.en ∧ r.rowBytes n ≠ 0 then
    (t.offset, (r.rows - 1) * t.stride + r.rowBytes n) ::
      (if 3 ≤ n ∧ isMx (r.image.outFmt (n - 3)) then [(t.scaleOff, r.rows * r.width / 32)] else [])
  else []

/-- The pieces a stream touches row by row, for scratch, whose addresses name members. -/
def ChainRun.rowsOf (r : ChainRun) (n : Nat) : List (Nat × Nat) :=
  let t := r.stream n
  if t.en ∧ r.rowBytes n ≠ 0 then
    (List.range r.rows).flatMap (fun k => (t.offset + k * t.stride, r.rowBytes n) ::
      (if 3 ≤ n ∧ isMx (r.image.outFmt (n - 3)) then [(t.scaleOff + k * r.width / 32, r.width / 32)] else []))
  else []

/-- The smallest interval that covers a list of pieces. -/
def hull (l : List (Nat × Nat)) : Option (Nat × Nat) :=
  l.foldl (fun a p =>
    match a with
    | none => some p
    | some (b, n) => let lo := min b p.1; some (lo, max (b + n) (p.1 + p.2) - lo)) none

/-- Scratch pieces checked (R54), each as its location; or the first that fails. -/
def State.scratchPieces (s : State) (rq : Requester) (l : List (Nat × Nat)) : Except Fail (List (Nat × Nat)) :=
  l.foldl (fun a p =>
    match a with
    | .error f => .error f
    | .ok ls => match s.scratchAt rq p.1 p.2 with | .ok loc => .ok (ls ++ [(loc, p.2)]) | .error f => .error f) (.ok [])

/-- Memory pieces of a capability checked over their interval (R47), as GVAs; or the failure. -/
def State.memoryPieces (s : State) (rq : Requester) (c : Cap) (isWrite : Bool) (l : List (Nat × Nat)) :
    Except Fail (List (Nat × Nat)) :=
  match hull l with
  | none => .ok []
  | some (o, n) =>
    match s.checkCap rq c (permENG + (if isWrite then permW else permR)) o n with
    | .ok gva => .ok [(gva, n)]
    | .error f => .error f

/-- The range of a list of pieces. -/
def rangeOf (scratch : Bool) (l : List (Nat × Nat)) : List Range :=
  match hull l with
  | some (b, n) => [{ scratch := scratch, base := b, len := n }]
  | none => []

/-- The ranges of a run whose descriptor and image are read: sources and destinations, or the check that fails (R47, R335).
A run that R336 refuses reads its image and descriptor only. -/
def State.chainRanges (s : State) (rq : Requester) (inp out : Cap) (r : ChainRun) (imageLen : Nat) :
    Except Fail (List Range × List Range) :=
  let fixed := (if r.load then [(r.imageAt, imageLen)] else []) ++ [(r.descAt, 96)]
  let side (scr isOut : Bool) : List Nat :=
    if r.ok then (if isOut then [3, 4] else [0, 1, 2]).filter (fun n => (r.stream n).scratch == scr) else []
  let memIn := s.memoryPieces rq inp false ((side false false).flatMap r.reach)
  let scrIn := s.scratchPieces rq (fixed ++ (side true false).flatMap r.rowsOf)
  let memOut := s.memoryPieces rq out true ((side false true).flatMap r.reach)
  let scrOut := s.scratchPieces rq ((side true true).flatMap r.rowsOf)
  match memIn, scrIn, memOut, scrOut with
  | .ok a, .ok b, .ok c, .ok d => .ok (rangeOf false a ++ rangeOf true b, rangeOf false c ++ rangeOf true d)
  | .error f, _, _, _ => .error f
  | _, .error f, _, _ => .error f
  | _, _, .error f, _ => .error f
  | _, _, _, .error f => .error f

/-! ### A run -/

/-- The run of an operation. -/
def EngineOp.run (o : EngineOp) : ChainRun := match o.kind with | .chain r => r | _ => {}

/-- The run of an operation replaced. -/
def EngineOp.withRun (o : EngineOp) (r : ChainRun) : EngineOp := { o with kind := .chain r }

/-- The temporaries at the start of a row. -/
def Image.start (i : Image) : List (List Word) :=
  (List.range 8).map (fun n => List.replicate 16 (if i.negInf n then 0xFF800000#32 else 0#32))

/-- A run at the start of a row. -/
def ChainRun.rowStart (r : ChainRun) : ChainRun :=
  let p := (r.image.passFrom 0).getD 0
  { r with pass := p, group := 0, uop := (r.image.uopsOf p).1, temps := r.image.start }

/-- A run ended, with a fault or none. -/
def ChainRun.finish (r : ChainRun) (f : Option (Nat × Option (DWord × Nat))) : ChainRun := { r with ended := true, failed := f }

/-- A run begins: the slot loaded, or its image taken, and the checks of R336. -/
def State.beginRun (s : State) (id : Nat) (o : EngineOp) : State :=
  let r := o.run
  let sl := lookD (s.core o.core).slots r.slot {}
  let put (r : ChainRun) (t : State) : State := { t with ops := put t.ops id (o.withRun r) }
  let spoilt (a n : Nat) : Bool := match s.scratchAt (s.opRequester o) a n with | .ok loc => s.isBad loc n | .error _ => false
  if spoilt r.descAt 96 then put ({ r with begun := true }.finish (some (Cause.machineCheck.code, some (checkScratchAddr r.descAt, 0)))) s
  else if r.load && spoilt r.imageAt (imageBytes r.image.count) then
    put ({ r with begun := true }.finish (some (Cause.machineCheck.code, some (checkScratchAddr r.imageAt, 0)))) s
  else if r.load then
    let s1 := s.onCore o.core (fun c => { c with slots := Machine.put c.slots r.slot { team := some o.team, image := r.image } })
    let r1 := { r with begun := true }
    put (if r1.ok then r1.rowStart else r1.finish (some (eBadField, none))) s1
  else if sl.team = some o.team then
    let r1 := { r with begun := true, image := sl.image }
    put (if r1.ok then r1.rowStart else r1.finish (some (eBadField, none))) s
  else put ({ r with begun := true }.finish (some (eSlotForeign, none))) s

/-- What a slot of a core will hold for the next run to be released: the image of the last released run that is still to
load it, otherwise the slot's own. -/
def State.slotView (s : State) (core slot : Nat) : Slot :=
  let waiting := s.ops.filter (fun e => e.2.core == core && s.onCoreNow e.2 &&
    (match e.2.kind with | .chain r => r.load && !r.begun && r.slot == slot | _ => false))
  match waiting.getLast? with
  | some e => { team := some e.2.team, image := e.2.run.image }
  | none => lookD (s.core core).slots slot {}

/-- Whether a run stands at the start of a group, where a halt finds it (R337, R352). -/
def ChainRun.atGroup (r : ChainRun) : Bool := r.uop == (r.image.uopsOf r.pass).1

/-- Whether an operation is in the middle of what its engine finishes before it stops (R352): a load or drain, but one that waits for
its match or parks; a group of a chain run. -/
def EngineOp.midway (o : EngineOp) : Bool :=
  o.state == .live &&
    (match o.kind with
     | .mload _ _ _ | .mdrain _ _ _ _ _ _ _ _ => true
     | .chain r => r.begun && !r.ended && !r.atGroup
     | _ => false)

/-- Whether the engine of a team's operation works on it: the team runs, or is being halted and the operation is midway. -/
def State.works (s : State) (o : EngineOp) : Bool :=
  s.teamRuns o.team || (o.midway && (match look s.teams o.team with | some t => t.state == .resident && s.halting t.ctx | none => false))

/-- The chain operation a core's engine works on: the first released, of a team that runs, that has not ended (R340). -/
def State.chainHead (s : State) (core : Nat) : Option (Nat × EngineOp) :=
  s.ops.find? (fun e => e.2.core == core && s.works e.2 && e.2.state == .live && e.2.out.isNone &&
    (match e.2.kind with | .chain r => !r.ended | _ => false))

/-- The micro-op a run stands at. -/
def ChainRun.word (r : ChainRun) : Word := (r.image.uops[r.uop]?).getD 0

/-- The valid positions of the present group. -/
def ChainRun.valid (r : ChainRun) : Nat := min 16 (r.width - 16 * r.group)

/-- An input element in FP32, exactly. -/
def toFp32 (fmt : Nat) (code : Nat) : Word :=
  if fmt = 14 then BitVec.ofNat 32 code
  else match fmtOf fmt with
    | some f => BitVec.ofNat 32 (convert .fp32 .rne false false (f.decode code)).1
    | none => 0

/-- The elements of an input stream in the present group (R337): the accesses made and the 16 values. -/
def State.chainInput (s : State) (o : EngineOp) (r : ChainRun) (n : Nat) : Made × List Word :=
  let t := r.stream n
  let b := outBits t.fmt
  let (m, l) := s.readInto (s.opRequester o) o {} (if t.scratch then none else some o.capA)
    (t.offset + r.row * t.stride + 16 * r.group * (b / 8)) (r.valid * b / 8)
  let ws := (unpackNat b r.valid (ofBytes l)).map (toFp32 t.fmt)
  (m, ws ++ List.replicate (16 - r.valid) 0)

/-- The inputs that micro-ops use. -/
def inputsUsed (ws : List Word) : List Nat :=
  (List.range 3).filter (fun n => ws.any (fun w => (List.range (uopArity (wbits w 27 5))).any (fun k => wbits w (19 - 4 * k) 4 == 8 + n)))

/-- The inputs that the present pass uses. -/
def ChainRun.passInputs (r : ChainRun) : List Nat :=
  let u := r.image.uopsOf r.pass
  inputsUsed ((r.image.uops.drop u.1).take (u.2 - u.1))

/-- The memory that a run reads, and what of PEER memory has not come: every input it uses, row by row up to an access that fails. -/
def State.chainNeeds (s : State) (o : EngineOp) (r : ChainRun) : Made :=
  let row (n : Nat) (m : Made) (k : Nat) : Made :=
    if m.hitch.isSome then m
    else (s.readInto (s.opRequester o) o m (some o.capA) ((r.stream n).offset + k * (r.stream n).stride) (r.rowBytes n)).1
  ((inputsUsed r.image.uops).filter (fun n => !(r.stream n).scratch)).foldl (fun (a : Made) n =>
    let m := (List.range r.rows).foldl (row n) {}
    { a with reads := a.reads ++ m.reads, needs := a.needs ++ m.needs, founds := a.founds ++ m.founds }) {}

/-- An operand's 16 elements: a temporary, an input as read at the start of the group, a constant. -/
def ChainRun.operand (r : ChainRun) (x : Nat) : List Word :=
  if x < 8 then (r.temps[x]?).getD []
  else if x < 11 then lookD r.ins (x - 8) []
  else List.replicate 16 ((r.image.consts[x - 11]?).getD 0)

/-- The run past its micro-op: the next one, the next group, the next pass, the next row, or the end. -/
def ChainRun.advance (r : ChainRun) : ChainRun :=
  let sp := r.image.uopsOf r.pass
  if r.uop + 1 < sp.2 then { r with uop := r.uop + 1 }
  else if 16 * (r.group + 1) < r.width then { r with uop := sp.1, group := r.group + 1 }
  else
    match r.image.passFrom (r.pass + 1) with
    | some p => { r with pass := p, group := 0, uop := (r.image.uopsOf p).1 }
    | none => if r.row + 1 < r.rows then { r with row := r.row + 1 }.rowStart else r.finish none

/-- What stops a run at the start of a group: a fault ends it, a page fault parks it. -/
def State.chainHitch (s : State) (id : Nat) (o : EngineOp) (h : Hitch) : State :=
  match h with
  | .fault code log => { s with ops := put s.ops id (o.withRun (o.run.finish (some (code, log)))) }
  | .page f gva w => s.parkOp id o f gva w

/-- A run about to execute a micro-op: at the start of a group it reads the inputs that the pass uses (R337), PEER lines first; none
where it cannot go on yet, with what it does instead. -/
def State.chainReads (s : State) (id : Nat) (o : EngineOp) : State × Option ChainRun :=
  let r := o.run
  if r.atGroup = false then (s, some r)
  else
    let m := s.chainNeeds o r
    match peerRead m.needs with
    | some q => (s.opSend id o m q, none)
    | none =>
      let vs := r.passInputs.map (fun n => (n, s.chainInput o r n))
      match (vs.filterMap (fun v => v.2.1.hitch)).head? with
      | some h => (s.chainHitch id o h, none)
      | none =>
        (s.installAll (vs.flatMap (fun v => v.2.1.founds.map (fun f => f.2.2))), some { r with ins := vs.map (fun v => (v.1, v.2.2)) })

/-- A micro-op of a core's chain engine with its operands, its effect on the run in f. -/
def chainStep (xs : List Nat) (f : ChainRun → List (List Word) → ChainRun) (s : State) : Out :=
  match s.cur with
  | .chain _ id =>
    match look s.ops id with
    | none => .next s
    | some o =>
      match s.chainReads id o with
      | (s1, some r) => .next { s1 with ops := put s1.ops id (o.withRun (f r (xs.map r.operand)).advance) }
      | (s1, none) => .next s1
  | _ => .next s

/-- A temporary written. -/
def ChainRun.setTemp (r : ChainRun) (d : Nat) (l : List Word) : ChainRun := { r with temps := r.temps.set d l }

/-- Operand k of a micro-op. -/
def arg (vs : List (List Word)) (k : Nat) : List Word := (vs[k]?).getD []

/-- Element q of an operand. -/
def elem (l : List Word) (q : Nat) : Word := (l[q]?).getD 0

/-- d := f of the operands at each position. -/
def chainMap (d : Nat) (xs : List Nat) (f : (Nat → Word) → Word) : State → Out :=
  chainStep xs (fun r vs => r.setTemp d ((List.range 16).map (fun q => f (fun k => elem (arg vs k) q))))

/-- An FP32 result in a word. -/
def fpWord (r : Nat × Nat) : Word := BitVec.ofNat 32 r.1

/-! ### The micro-ops (R338) -/

/-- FADD. -/
def execChainFadd (d : Fin 8) (a b : Fin 16) : State → Out :=
  chainMap d [a.val, b.val] (fun x => fpWord (Fmt.fp32.addW .rne false (x 0).toNat (x 1).toNat))

/-- FSUB. -/
def execChainFsub (d : Fin 8) (a b : Fin 16) : State → Out :=
  chainMap d [a.val, b.val] (fun x => fpWord (Fmt.fp32.subW .rne false (x 0).toNat (x 1).toNat))

/-- FMUL. -/
def execChainFmul (d : Fin 8) (a b : Fin 16) : State → Out :=
  chainMap d [a.val, b.val] (fun x => fpWord (Fmt.fp32.mulW .rne false (x 0).toNat (x 1).toNat))

/-- FFMA. -/
def execChainFfma (d : Fin 8) (a b c : Fin 16) : State → Out :=
  chainMap d [a.val, b.val, c.val] (fun x => fpWord (Fmt.fp32.fmaW .rne false (x 0).toNat (x 1).toNat (x 2).toNat))

/-- FMIN. -/
def execChainFmin (d : Fin 8) (a b : Fin 16) : State → Out :=
  chainMap d [a.val, b.val] (fun x => BitVec.ofNat 32 (Fmt.fp32.minmaxW false false (x 0).toNat (x 1).toNat))

/-- FMAX. -/
def execChainFmax (d : Fin 8) (a b : Fin 16) : State → Out :=
  chainMap d [a.val, b.val] (fun x => BitVec.ofNat 32 (Fmt.fp32.minmaxW false true (x 0).toNat (x 1).toNat))

/-- FEX2. -/
def execChainFex2 (d : Fin 8) (a : Fin 16) : State → Out := chainMap d [a.val] (fun x => (special 3 0 (x 0)).1)

/-- FLG2. -/
def execChainFlg2 (d : Fin 8) (a : Fin 16) : State → Out := chainMap d [a.val] (fun x => (special 4 0 (x 0)).1)

/-- FRCP. -/
def execChainFrcp (d : Fin 8) (a : Fin 16) : State → Out := chainMap d [a.val] (fun x => (special 0 0 (x 0)).1)

/-- FRSQ. -/
def execChainFrsq (d : Fin 8) (a : Fin 16) : State → Out := chainMap d [a.val] (fun x => (special 1 0 (x 0)).1)

/-- FSQRT. -/
def execChainFsqrt (d : Fin 8) (a : Fin 16) : State → Out := chainMap d [a.val] (fun x => (special 2 0 (x 0)).1)

/-- Whether an FP32 value is at least 0: −0 is, a NaN is not. -/
def atLeastZero (w : Word) : Bool := let x := Fmt.fp32.decode w.toNat; !x.isNan && !x.lt (.num false 0 0)

/-- SEL. -/
def execChainSel (d : Fin 8) (a b c : Fin 16) : State → Out :=
  chainMap d [a.val, b.val, c.val] (fun x => if atLeastZero (x 0) then x 1 else x 2)

/-- MOV. -/
def execChainMov (d : Fin 8) (a : Fin 16) : State → Out := chainMap d [a.val] (fun x => x 0)

/-- d in position 0 plus the exact sum of some elements, rounded once. -/
def sumInto (d : Word) (l : List Word) : Word :=
  let t := sumExact .rne (l.map (fun w => Fmt.fp32.decode w.toNat)) (Fmt.fp32.decode d.toNat)
  fpWord (Fmt.fp32.write .rne false t.1)

/-- SUMR: d plus the exact sum of the valid elements of a, rounded once, in every position. -/
def execSumr (d : Fin 8) (a : Fin 16) : State → Out :=
  chainStep [a.val] (fun r vs =>
    r.setTemp d (List.replicate 16 (sumInto (elem ((r.temps[d.val]?).getD []) 0) ((arg vs 0).take r.valid))))

/-- The FMAX of some elements after a first. -/
def maxInto (d : Word) (l : List Word) : Word :=
  l.foldl (fun m w => BitVec.ofNat 32 (Fmt.fp32.minmaxW false true m.toNat w.toNat)) d

/-- MAXR: the FMAX of the valid elements of d and a, in every position. -/
def execMaxr (d : Fin 8) (a : Fin 16) : State → Out :=
  chainStep [a.val] (fun r vs =>
    let old := ((r.temps[d.val]?).getD []).take r.valid
    r.setTemp d (List.replicate 16 (maxInto (elem old 0) (old.drop 1 ++ (arg vs 0).take r.valid))))

/-- The mode of element e of the present row (R194, R339). -/
def ChainRun.modeAt (r : ChainRun) (m o e : Nat) : Mode := modeOf m (srdraw r.seed (r.row * r.width + e) o)

/-- An output of the present group in a format without blocks. -/
def ChainRun.outPlain (r : ChainRun) (o m k : Nat) (ws : List Word) : ChainRun :=
  let t := r.stream (3 + o)
  let b := outBits k
  let cs := (ws.zipIdx).map (fun (e : Word × Nat) => fromFp32 k (r.modeAt m o (16 * r.group + e.2)) e.1)
  { r with
    outs := r.outs ++ [(o, t.offset + r.row * t.stride + 16 * r.group * (b / 8), packCodes b (cs.map (·.1)))]
    sticky := cs.foldl (fun n c => n ||| c.2) r.sticky }

/-- An output of the present group in an MX format: kept in an even group, quantised with it in the odd one. -/
def ChainRun.outBlock (r : ChainRun) (o m k : Nat) (el : Elem) (ws : List Word) : ChainRun :=
  let t := r.stream (3 + o)
  if r.group % 2 = 0 then { r with held := (o, ws) :: r.held.filter (fun h => h.1 != o) }
  else
    let first := ((r.held.find? (fun h => h.1 == o)).map (·.2)).getD []
    let blk := r.group / 2
    let q := quantBlock el (fun j => r.modeAt m o (32 * blk + j)) (first ++ ws)
    { r with
      held := r.held.filter (fun h => h.1 != o)
      outs := r.outs ++
        [(o, t.offset + r.row * t.stride + blk * 4 * elemBits k, packCodes (elemBits k) q.2.1),
         (o, t.scaleOff + r.row * r.width / 32 + blk, [BitVec.ofNat 8 q.1])]
      sticky := r.sticky ||| q.2.2 }

/-- OUTQ (R339). -/
def execOutq (o : Fin 2) (a : Fin 16) (m : Fin 8) (k : Fin 16) : State → Out :=
  chainStep [a.val] (fun r vs =>
    let ws := (arg vs 0).take r.valid
    match mxElem k with
    | some el => r.outBlock o m k el ws
    | none => r.outPlain o m k ws)

/-! ### What a run comes to at its event -/

/-- Pieces that follow one another joined. -/
def joinPieces (l : List (Nat × Nat × List Byte)) : List (Nat × Nat × List Byte) :=
  l.foldl (fun acc p =>
    match acc with
    | (o, a, b) :: r => if o = p.1 ∧ a + b.length = p.2.1 then (o, a, b ++ p.2.2) :: r else p :: acc
    | [] => [p]) [] |>.reverse

/-- The pieces of a faulted run that lie in granules it has written wholly (R316); base is where offset 0 lies. -/
def wholeGranules (base : Nat) (l : List (Nat × Nat × List Byte)) : List (Nat × Nat × List Byte) :=
  let cells := l.flatMap (fun p => p.2.2.zipIdx.map (fun (e : Byte × Nat) => (base + p.2.1 + e.2, e.1)))
  let o := ((l.head?).map (·.1)).getD 0
  (granulesOf cells).filterMap (fun g =>
    if coversGranule cells g then
      some (o, 16 * g - base, (span (16 * g) 16).map (fun k => ((cells.reverse.find? (fun c => c.1 == k)).map (·.2)).getD 0))
    else none)

/-- The reads and the writes of a run. -/
def State.chainMade (s : State) (o : EngineOp) : Made :=
  let r := o.run
  let rq := s.opRequester o
  let one (m : Made) (n : Nat) : Made :=
    let t := r.stream (3 + n)
    let mine := joinPieces (r.outs.filter (fun p => p.1 == n))
    let ps := if r.failed.isSome then wholeGranules (if t.scratch then 0 else o.capB.base) mine else mine
    ps.foldl (fun m p => s.writeInto rq o m (if t.scratch then none else some o.capB) p.2.1 p.2.2) m
  let m := one (one { sticky := r.sticky, reads := (s.chainNeeds o r).reads } 0) 1
  match m.hitch, r.failed with
  | some h, _ => { m with hitch := some h }
  | none, some (c, l) => { m with hitch := some (.fault c l) }
  | none, none => m

end Sys2Proof.Machine
end

