-- ==== Sys2Proof/Machine/Matrix.lean ====
section
/-! DEFINITION. The matrix engine (R322 to R332): its sequencer, configuration, operand loads and multicast matches, the
multiply-accumulate of R206, drains, waits and repeats. Loads and drains are engine operations; their events are in
EngineDone. -/

namespace Sys2Proof.Machine

/-! ### The sequencer (R172, R173, R322, R332) -/

/-- The next entry of a core's fork queue starts on an idle matrix sequencer, with tiles that read zero (R173, R323). -/
def State.startMatrix (s : State) (core : Nat) : State :=
  let c := s.core core
  match c.matrix, c.matrixQ with
  | none, e :: rest =>
    let k := (lookD s.teams e.team {}).mrounds + 1
    (s.onCore core (fun c => { c with matrixQ := rest, tiles := [], matrix := some { entry := e, round := k } })).onTeam e.team
      (fun t => { t.onSeq 0 (fun p => { p with state := 2 }) with mrounds := k })
  | _, _ => s

/-- A core's matrix run changed. -/
def State.onMatrix (s : State) (core : Nat) (f : MatrixRun → MatrixRun) : State :=
  s.onCore core (fun c => { c with matrix := c.matrix.map f })

/-- A command of a core's matrix program completes: word `next` follows, and PROGRESS is one more (R319). -/
def State.matrixNext (s : State) (core tid next : Nat) (f : MatrixRun → MatrixRun) : State :=
  (s.onMatrix core (fun r => { f r with pending := none, index := next })).onTeam tid (fun t =>
    t.onSeq 0 (fun p => { p with progress := p.progress + 1 }))

/-- The requester of a team's programs (R47). -/
def Team.requester (t : Team) (tid : Nat) : Requester :=
  { ctx := t.ctx, cluster := t.cluster, core := t.core, engine := true, team := tid }

/-- What the enclosing MSTEPs add to addresses and to comparands. -/
def MatrixRun.increase (r : MatrixRun) : Nat × Nat :=
  (r.loops.filter (fun l => decide (l.first ≤ r.index ∧ r.index < l.place))).foldl
    (fun a l => (a.1 + l.rep * l.inc, a.2 + l.rep)) (0, 0)

/-- An address with its increases, modulo 2^32. -/
def MatrixRun.address (r : MatrixRun) (a : Word) : Nat := (a.toNat + r.increase.1) % 2 ^ 32

/-- What one word of a matrix program meets: its core, its run, its team. -/
structure MatrixAt where
  core : Nat
  run : MatrixRun
  tid : Nat
  team : Team
  deriving DecidableEq, Repr

/-- A command of the matrix sequencer, when it has no load or drain under way. -/
def matrixStep (f : MatrixAt → State → State) (s : State) : Out :=
  match s.cur with
  | .matrix core =>
    match (s.core core).matrix with
    | some r =>
      if r.pending.isSome then .next s
      else .next (f { core := core, run := r, tid := r.entry.team, team := lookD s.teams r.entry.team {} } s)
    | none => .next s
  | _ => .next s

/-- A command completes and the next word follows. -/
def State.matrixDone (s : State) (m : MatrixAt) (f : MatrixRun → MatrixRun) : State :=
  s.matrixNext m.core m.tid (m.run.index + 1) f

/-- The program ends with a fault. -/
def State.matrixFault (s : State) (m : MatrixAt) (code : Nat) (log : Option (DWord × Nat) := none) : State :=
  s.faultProgram m.tid 0 (.fault code log) m.run.entry.cap

/-- The program ends with a failed check. -/
def State.matrixFail (s : State) (m : MatrixAt) (f : Fail) : State := s.faultProgram m.tid 0 (f.hitch false) m.run.entry.cap

/-- The program's own holds, which never stand in its way (R129). -/
def ownHold (tid : Nat) (o : EngineOp) : Bool := isHold tid none o

/-- An operation of a matrix program. -/
def MatrixAt.op (m : MatrixAt) (k : OpKind) (srcs dsts : List Range) : EngineOp :=
  { core := m.core, team := m.tid, gid := (m.team.seq 0).forker, flag := 15, kind := k, ctx := m.team.ctx
    capA := m.run.entry.cap, capB := m.run.entry.cap, srcs := srcs, dsts := dsts, program := true }

/-- An operation released, unless its ranges or the RLT hold it back (R128, R130). -/
def State.matrixOp (s : State) (m : MatrixAt) (k : OpKind) (srcs dsts : List Range) : State :=
  if s.blocked m.team.ctx srcs dsts (ownHold m.tid) ∨ s.hasEntry m.core false = false then s
  else
    let (s1, id) := s.start (m.op k srcs dsts)
    s1.onMatrix m.core (fun r => { r with pending := some id })

/-! ### MCFG (R324) -/

/-- The MCFG command. -/
def execMcfg (afmt bfmt : Fin 16) (kb : Fin 256) : State → Out :=
  matrixStep (fun m s =>
    if 8 * 65536 < 64 * 32 * kb.val * elemBits afmt ∨ 8 * 65536 < 64 * 32 * kb.val * elemBits bfmt ∨ 13 < afmt.val ∨ 13 < bfmt.val then
      s.matrixFault m eBadField
    else
      let s1 := { s with ops := s.ops.filter (fun e => !isHold m.tid none e.2) }
      s1.matrixDone m (fun r =>
        { r with config := some (afmt.val, bfmt.val, kb.val), buffers := [none, none, none, none] }))

/-! ### MLOAD (R325 to R327) -/

/-- Bytes of an operand. -/
def operandBytes (cfg : Nat × Nat × Nat) (buf : Nat) : Nat :=
  match buf with
  | 0 => 64 * 32 * cfg.2.2 * elemBits cfg.1 / 8
  | 1 => 64 * 32 * cfg.2.2 * elemBits cfg.2.1 / 8
  | _ => 64 * cfg.2.2

/-- The scratch address of a location, as the program of a team names it (R53). -/
def State.scratchName (s : State) (t : Team) (loc : Nat) : Nat :=
  match s.teams.find? (fun e =>
      let base := scratchLoc (e.2.core / 8) e.2.sbase
      e.2.launch == t.launch && e.2.teamId - e.2.member == t.teamId - t.member && decide (base ≤ loc ∧ loc < base + e.2.ssize)) with
  | some e => e.2.member * 2 ^ 18 + (loc - scratchLoc (e.2.core / 8) e.2.sbase)
  | none => loc

/-- The filled buffers of a program that has been halted read again from their holds, before its next command (R323, R352). -/
def State.refill (s : State) (core : Nat) (r : MatrixRun) : State :=
  let tid := r.entry.team
  let holds := s.ops.filterMap (fun e =>
    match e.2.kind with
    | .hold b => if e.2.team = tid then e.2.srcs.head?.map (fun q => (b, q)) else none
    | _ => none)
  match holds.find? (fun h => s.isBad h.2.base h.2.len) with
  | some h =>
    s.faultProgram tid 0 (.fault Cause.machineCheck.code
      (some (checkScratchAddr (s.scratchName (lookD s.teams tid {}) h.2.base), 0))) r.entry.cap
  | none =>
    s.onMatrix core (fun r => { r with
      refill := false, buffers := holds.foldl (fun b h => b.set h.1 (some (s.mem.getsUnder 0 h.2.base h.2.len))) r.buffers })

/-- Member k of a team's set. -/
def State.memberOf (s : State) (t : Team) (k : Nat) : Option (Nat × Team) :=
  s.teams.find? (fun e => e.2.launch == t.launch && e.2.teamId == t.teamId - t.member + k)

/-- How a member stands towards the j-th multicast load of an MCAST value in round k: none, not there yet; some none, its
program of that round has ended before it, whatever it has forked since; some id, the load it waits at. -/
def State.memberAt (s : State) (t : Team) (k : Nat) (mc : BitVec 8) (round j : Nat) : Option (Option Nat) :=
  match s.memberOf t k with
  | none => some none
  | some (tid, p) =>
    if p.mrounds < round then none
    else if round < p.mrounds then some none
    else
      match (s.core p.core).matrix with
      | some r =>
        if r.entry.team ≠ tid then some none
        else if lookD r.mcasts mc.toNat 0 < j then none
        else r.pending.map some
      | none => some none

/-- The members an MCAST value names. -/
def mcastMembers (mc : BitVec 8) : List Nat := (List.range 8).filter (fun k => mc.getLsbD k)

/-- The match of a load just reached is settled if every member is there, or one can no longer come. -/
def State.settleMatch (s : State) (m : MatrixAt) (buf addr : Nat) (mc : BitVec 8) (j : Nat) : State :=
  let at_ := (mcastMembers mc).map (fun k => s.memberAt m.team k mc m.run.round j)
  let here := at_.filterMap (fun a => match a with | some (some id) => (look s.ops id).map (fun o => (id, o)) | _ => none)
  let unmatched (u : State) : State :=
    here.foldl (fun u e => ({ u with ops := del u.ops e.1 } : State).endProgram e.2.team 0 eMcast) u
  if at_.contains (some none) then unmatched s
  else if at_.contains none then s
  else if here.all (fun e => match e.2.kind with | .mload b a _ => b == buf && a == addr | _ => false) then
    { s with ops := here.foldl (fun t e => alter t e.1 (fun o => { o with state := .live })) s.ops }
  else unmatched s

/-- The MLOAD command. -/
def execMload (buf : Fin 4) (mcast : BitVec 8) (addr : Word) : State → Out :=
  matrixStep (fun m s =>
    match m.run.config with
    | none => s.matrixFault m eBadSequence
    | some cfg =>
      if 2 ≤ buf.val ∧ isMx cfg.1 = false then s.matrixFault m eBadSequence
      else if mcast ≠ 0 ∧ (mcast.getLsbD m.team.member = false ∨ 2 ^ m.team.setSize ≤ mcast.toNat) then s.matrixFault m eBadField
      else
        let a := m.run.address addr
        let n := operandBytes cfg buf
        if a % 16 ≠ 0 then s.matrixFault m Cause.misaligned.code
        else
          match s.scratchAt (m.team.requester m.tid) a n with
          | .error f => s.matrixFail m f
          | .ok loc =>
            let s1 := s.matrixOp m (.mload buf a mcast) [{ scratch := true, base := loc, len := n }] []
            match ((s1.core m.core).matrix).bind (·.pending) with
            | none => s1
            | some id =>
              if mcast = 0 then s1
              else
                let j := lookD m.run.mcasts mcast.toNat 0 + 1
                let s2 := ({ s1 with ops := alter s1.ops id (fun o => { o with state := .matching }) } : State).onMatrix m.core
                  (fun r => { r with mcasts := put r.mcasts mcast.toNat j })
                s2.settleMatch m buf a mcast j)

/-! ### MMA (R206, R323, R328) -/

/-- The 32 element codes of block m of row or column i of an operand. -/
def blockCodes (fmt kb : Nat) (l : List Byte) (i m : Nat) : List Nat :=
  let b := elemBits fmt
  unpackNat b 32 (ofBytes ((l.drop ((i * kb + m) * 4 * b)).take (4 * b)))

/-- The scale code of block m of row or column i; 127, which is 1, without scales. -/
def scaleCode (fmt kb : Nat) (l : List Byte) (i m : Nat) : Nat := if isMx fmt then ((l[i * kb + m]?).getD 0).toNat else 127

/-- One operand side: blocks of every row or column, scaled. -/
def operandSide (fmt kb : Nat) (els scales : List Byte) : List (List (List FVal)) :=
  (List.range 64).map (fun i => (List.range kb).map (fun m =>
    (blockCodes fmt kb els i m).map (elemValue fmt (scaleCode fmt kb scales i m))))

/-- The exact sum of a block's products. -/
def blockSum (a b : List FVal) : FVal :=
  (sumExact .rne ((a.zip b).map (fun e => (FVal.mul e.1 e.2).1)) (.num false 0 0)).1

/-- One element of a floating-point tile after its blocks, each rounded once. -/
def accumulate (acc : Word) (a b : List (List FVal)) : Word :=
  (a.zip b).foldl (fun c e =>
    BitVec.ofNat 32 (Fmt.fp32.write .rne false (FVal.add .rne (Fmt.fp32.decode c.toNat) (blockSum e.1 e.2)).1).1) acc

/-- The integer an INT8 element is. -/
def intOf (x : FVal) : Int := match x with | .num neg m _ => if neg then -(m : Int) else m | _ => 0

/-- One element of an INT32 tile. -/
def accumulateInt (acc : Word) (a b : List (List FVal)) : Word :=
  acc + BitVec.ofInt 32 ((a.zip b).foldl (fun n e => n + ((e.1.zip e.2).foldl (fun k x => k + intOf x.1 * intOf x.2) 0)) 0)

/-- A tile after one MMA. -/
def Tile.mma (t : Tile) (int : Bool) (a b : List (List (List FVal))) : Tile :=
  { kind := some int
    words := (List.range 4096).filterMap (fun e =>
      let acc := lookD t.words e 0
      let ra := (a[e / 64]?).getD []
      let cb := (b[e % 64]?).getD []
      let v := if int then accumulateInt acc ra cb else accumulate acc ra cb
      if v = 0 then none else some (e, v)) }

/-- The contents of a buffer. -/
def MatrixRun.buffer (r : MatrixRun) (n : Nat) : Option (List Byte) := ((r.buffers[n]?).getD none)

/-- The MMA command. -/
def execMma (acc : Fin 8) (zero : Bool) : State → Out :=
  matrixStep (fun m s =>
    match m.run.config, m.run.buffer 0, m.run.buffer 1 with
    | some (af, bf, kb), some a, some b =>
      let mx := isMx af
      if mx ∧ (m.run.buffer 2 = none ∨ m.run.buffer 3 = none) then s.matrixFault m eBadSequence
      else
        let int := decide (af = 7)
        let old := lookD (s.core m.core).tiles acc {}
        let t : Tile := if zero then {} else old
        if t.kind = some (!int) then s.matrixFault m eBadSequence
        else
          let t1 := t.mma int (operandSide af kb a ((m.run.buffer 2).getD [])) (operandSide bf kb b ((m.run.buffer 3).getD []))
          (s.onCore m.core (fun c => { c with tiles := put c.tiles acc t1 })).matrixDone m id
    | _, _, _ => s.matrixFault m eBadSequence)

/-! ### MDRAIN (R329, R330) -/

/-- Element bytes and scale bytes of an output. -/
def outputBytes (n : Nat) : Nat := 4096 * outBits n / 8 + (if isMx n then 128 else 0)

/-- Whether a tile of a kind is written in a format. -/
def drainsAs (kind : Option Bool) (n : Nat) : Bool :=
  match kind with
  | none => false
  | some false => decide (n ≤ 6 ∨ (8 ≤ n ∧ n ≤ 14))
  | some true => decide (n = 7 ∨ n = 14 ∨ n = 15)

/-- The mode of element e of an output (R329). -/
def drainMode (rm : Nat) (seed : Word) (n e : Nat) : Mode := modeOf rm (if rm = 4 then srdraw seed e n else 0)

/-- An output of 4,096 words, element e of it drawing as element e0 + e: its bytes and the status bits. -/
def drainImage (int : Bool) (ofmt rm : Nat) (seed : Word) (n e0 : Nat) (ws : List Word) : List Byte × Nat :=
  match mxElem ofmt with
  | some el =>
    let bs := ((pieces 32 128 ws).zipIdx).map (fun (b : List Word × Nat) =>
      quantBlock el (fun k => drainMode rm seed n (e0 + 32 * b.2 + k)) b.1)
    (bs.flatMap (fun b => packCodes (elemBits ofmt) b.2.1) ++ bs.map (fun b => BitVec.ofNat 8 b.1),
      bs.foldl (fun k b => k ||| b.2.2) 0)
  | none =>
    let cs := (ws.zipIdx).map (fun (e : Word × Nat) =>
      let md := drainMode rm seed n (e0 + e.2)
      if int then fromInt32 ofmt md e.1 else fromFp32 ofmt md e.1)
    ((pieces 64 64 (cs.map (·.1))).flatMap (packCodes (outBits ofmt)), cs.foldl (fun k c => k ||| c.2) 0)

/-- The 4,096 words of a tile, or of its transpose. -/
def Tile.all (t : Tile) (transposed : Bool) : List Word :=
  (List.range 4096).map (fun e => lookD t.words (if transposed then e % 64 * 64 + e / 64 else e) 0)

/-- The ranges and the checks of the outputs of a drain. -/
def State.drainRanges (s : State) (m : MatrixAt) (mem : Bool) (dests : List Nat) (n : Nat) : Except Fail (List Range) :=
  let rq := m.team.requester m.tid
  dests.foldl (fun a d =>
    match a with
    | .error f => .error f
    | .ok l =>
      match (if mem then s.checkCap rq m.run.entry.cap (permENG + permW) d n else s.scratchAt rq d n) with
      | .error f => .error f
      | .ok b => .ok (l ++ [{ scratch := !mem, base := b, len := n }])) (.ok [])

/-- The MDRAIN command. -/
def execMdrain (acc : Fin 8) (ofmt : Fin 16) (rm : Fin 8) (tr : Bool) (trm : Fin 8) (mem : Bool) (toff : BitVec 13)
    (dest : Word) : State → Out :=
  matrixStep (fun m s =>
    let n := outputBytes ofmt
    if 4 < rm.val ∨ 4 < trm.val ∨ (tr ∧ 256 * toff.toNat < n) then s.matrixFault m eBadField
    else if drainsAs (lookD (s.core m.core).tiles acc {}).kind ofmt = false then s.matrixFault m eBadSequence
    else
      let d := m.run.address dest
      if d % 16 ≠ 0 then s.matrixFault m Cause.misaligned.code
      else
        let dests := d :: (if tr then [d + 256 * toff.toNat] else [])
        match s.drainRanges m mem dests n with
        | .error f => s.matrixFail m f
        | .ok rs => s.matrixOp m (.mdrain acc ofmt rm trm tr mem toff.toNat d) [] rs)

/-! ### MWAIT (R331) and MSTEP (R332) -/

/-- The MWAIT command. Commands run one at a time, so every earlier one has completed. -/
def execMwait (kind : Fin 4) (value : BitVec 16) (addr : Word) : State → Out :=
  matrixStep (fun m s =>
    match kind with
    | 0 => s.matrixDone m id
    | 1 =>
      if addr.toNat % 4 ≠ 0 then s.matrixFault m eBadField
      else
        match s.scratchRead (m.team.requester m.tid) addr.toNat 4 with
        | .error f => s.matrixFail m f
        | .ok loc =>
          let w := ofBytes (s.mem.getsUnder 0 loc 4)
          if w < value.toNat + m.run.increase.2 ∨
              s.blocked m.team.ctx [{ scratch := true, base := loc, len := 4 }] [] (ownHold m.tid) then s
          else s.matrixDone m id
    | _ => s.matrixFault m eBadField)

/-- The MSTEP command: the first time it opens its repetitions, afterwards it starts the next one or goes on. -/
def execMstep (back : Fin 64) (count : BitVec 12) (addinc : Word) : State → Out :=
  matrixStep (fun m s =>
    let r := m.run
    let p := r.index
    let again (ls : List Loop) : State := s.matrixNext m.core m.tid (p - back.val) (fun r => { r with loops := ls })
    let on (ls : List Loop) : State := s.matrixDone m (fun r => { r with loops := ls })
    if back = 0 then (if count = 0 then (on r.loops).endProgram m.tid 0 0 else s.matrixFault m eBadField)
    else if p < back.val then s.matrixFault m eBadField
    else
      let opened : Loop := { place := p, first := p - back.val, rep := 1, count := count.toNat, inc := addinc.toNat }
      match r.loops.find? (fun l => l.place == p) with
      | some l =>
        let rest := r.loops.filter (fun k => k.place != p)
        if l.rep < l.count then again ({ l with rep := l.rep + 1 } :: rest) else on rest
      | none =>
        if count = 0 then on r.loops
        else if 4 ≤ r.loops.length then s.matrixFault m eBadField
        else again (opened :: r.loops))

end Sys2Proof.Machine
end

