-- ==== Sys2Proof/Machine/Collective.lean ====
section
/-! DEFINITION. The collective engine (R346 to R351, R418, R471): programs, steps, the matching of SEND with RECV, sparse
streams, and the end of steps and programs. A step's effect on memory stands at its event, in EngineDone. -/

namespace Sys2Proof.Machine

/-! ### Programs and steps -/

/-- The RLT a sequencer's operations stand in, numbered past the cores (R347). -/
def collCore (sequencer : Nat) : Nat := 512 + sequencer

/-- A program changed. -/
def State.onColl (s : State) (p : Nat) (f : CollProg → CollProg) : State := { s with colls := alter s.colls p f }

/-- The posted step of an operation. -/
def CollProg.stepOf (c : CollProg) (id : Nat) : Option PostedStep := c.posted.find? (fun t => t.engineOp == id)

/-- A posted step changed. -/
def CollProg.onStep (c : CollProg) (id : Nat) (f : PostedStep → PostedStep) : CollProg :=
  { c with posted := c.posted.map (fun t => if t.engineOp = id then f t else t) }

/-- Whether a program's next step can start (R347): the one before has completed, or lets it. -/
def CollProg.canStart (c : CollProg) : Bool :=
  !c.ended && c.closing.isNone && (c.async || !c.posted.any (fun t => t.index + 1 == c.next))

/-- The operation that reads a program's steps. -/
def CollProg.fetcher (c : CollProg) (p : Nat) : EngineOp :=
  { core := collCore c.sequencer, team := c.team, gid := c.gid, flag := 15, kind := .collective p (2 ^ 32), ctx := c.ctx
    capA := c.cap, capB := c.cap, program := true, locked := false }

/-- The operation of a step. -/
def CollProg.stepOp (c : CollProg) (p index : Nat) (srcs dsts : List Range) : EngineOp :=
  { c.fetcher p with kind := .collective p index, srcs := srcs, dsts := dsts, locked := !(srcs.isEmpty && dsts.isEmpty) }

/-- The requester of a program (R37, R47). -/
def State.collRequester (s : State) (c : CollProg) (p : Nat) : Requester := s.opRequester (c.fetcher p)

/-! ### Ends -/

/-- A packet put on the fabric for a program. -/
def State.collPacket (s : State) (c : CollProg) (kind vdn op : Nat) (t : CollArgs) : State :=
  { s with sent := s.sent ++
      [{ kind := kind
         flit := { tc := t.tc, dvdn := Fin.ofNat 2048 vdn, svdn := Fin.ofNat 2048 ((s.svdnOf c.ctx.fn).getD 0), tag := t.tag, len := 0,
                   op := Fin.ofNat 64 op, mask := 0xFFFF, gpa := 0, payload := [] } }] }

/-- A program whose end is decided ends once its steps have: its state and cause stand, and its flag falls, with the fault bit where
it faulted (R346, R471). -/
def State.closeColl (s : State) (p : Nat) : State :=
  match look s.colls p with
  | none => s
  | some c =>
    match c.closing with
    | some (st, code) =>
      if c.ended ∨ c.posted.isEmpty = false then s
      else
        ((s.onColl p (fun c => { c with ended := true, status := { c.status with state := st, cause := code } })).dropFlag c.gid c.flag
          code).tryRetire c.team
    | none => s

/-- The end of a program decided, in a state with a cause: no step starts any more, and what runs of its steps is to end as a
cancelled copy does (R320, R471). -/
def State.markEnded (s : State) (p st code : Nat) : State :=
  match look s.colls p with
  | none => s
  | some c =>
    if c.ended ∨ c.closing.isSome then s
    else
      let s1 := s.onColl p (fun c => { c with closing := some (st, code) })
      State.closeColl { s1 with
        ops := (del s1.ops c.fetchOp).map (fun (e : Nat × EngineOp) =>
          match e.2.kind with
          | .collective q _ => if q = p then (e.1, { e.2 with state := .cancelled }) else e
          | _ => e)
        outbound := s1.outbound.filter (fun e => match e.2.owner with | .op id => !(id == c.fetchOp) | _ => true) } p

/-- The cause of a program's fault met at the step of an index: that of an earlier step that has failed too (R471). -/
def State.collCause (s : State) (c : CollProg) (index code : Nat) : Nat :=
  let failed := c.posted.filterMap (fun t =>
    match look s.ops t.engineOp with
    | some o =>
      if index ≤ t.index then none
      else if o.refused ≠ 0 then some (t.index, o.refused)
      else o.broken.map (fun b => (t.index, b.code))
    | none => none)
  match lowest (failed.map (·.1)) with
  | some k => ((failed.find? (fun f => f.1 == k)).map (·.2)).getD code
  | none => code

/-- A program ends on a fault at a step, its next where none is named, with what the log records of it (R471). -/
def State.collFault (s : State) (p code : Nat) (log : Option (DWord × Nat)) (index : Option Nat := none) : State :=
  match look s.colls p with
  | none => s
  | some c =>
    if c.ended ∨ c.closing.isSome then s
    else (s.recordFault c.ctx c.team 0 true code log).markEnded p 4 (s.collCause c (index.getD c.next) code)

/-- A program ends on a failed check. -/
def State.collFail (s : State) (p : Nat) (f : Fail) : State :=
  match f.hitch false with
  | .fault code log => s.collFault p code log
  | _ => s

/-! ### Matching (R349) -/

/-- The oldest started step, of any program of a function, that a test finds: its program and itself. -/
def State.findStep (s : State) (fn : Nat) (test : PostedStep → Bool) : Option (Nat × PostedStep) :=
  (s.colls.flatMap (fun e => if e.2.ctx.fn = fn ∧ !e.2.ended ∧ e.2.closing.isNone then (e.2.posted.filter test).map (fun t => (e.1, t)) else [])).foldl
    (fun (b : Option (Nat × PostedStep)) e =>
      match b with
      | none => some e
      | some x => if e.2.engineOp < x.2.engineOp then some e else some x) none

/-- CLEAR from a receiver (R418): the oldest SEND to it with the tag may stream; one that is not yet there keeps it. -/
def State.takeClear (s : State) (f : Flit) : State :=
  match s.findStep (vdnFn (s.vdnOf f.dvdn)) (fun t => t.op == 0 && !t.cleared && t.args.vdn == f.svdn && t.args.tag == f.tag) with
  | some (p, t) => s.onColl p (fun c => c.onStep t.engineOp (fun t => { t with cleared := true }))
  | none => { s with early := s.early ++ [f] }

/-- CDATA (R418): the oldest RECV or RECVADD that names the sender and the tag takes the bytes. The answer: ACK, or ERROR with
its code (`total` is the sender's LENGTH where it is served within the device); a step whose lengths disagree ends with LENGTH_MISMATCH,
and without a step the sender's was matched to one that is gone (R315, R349). A flit that is not full is a SEND's last; a full one does
not tell another device's LENGTH, which the free Config.sendLength stands for. -/
def State.takeCdata (s : State) (f : Flit) (total : Option Nat) : State × Nat :=
  match s.findStep (vdnFn (s.vdnOf f.dvdn))
      (fun t => (t.op == 1 || t.op == 2) && t.args.vdn == f.svdn && t.args.tag == f.tag &&
        decide (t.received.length < t.args.length.toNat)) with
  | none => (s, ePeerCancelled)
  | some (p, t) =>
    let n := t.received.length + f.payload.length
    let sent := total.getD (if f.payload.length < 240 then n else Config.sendLength t.engineOp)
    if sent ≠ t.args.length.toNat ∨ t.args.length.toNat < n then (s.collFault p eLength none (some t.index), eLength)
    else (s.onColl p (fun c => c.onStep t.engineOp (fun t => { t with received := t.received ++ f.payload })), 0)

/-- The pairs of a payload (R418). -/
def pairsOf (l : List Byte) (n : Nat) : List (Word × Word) :=
  match n with
  | 0 => []
  | k + 1 => (BitVec.ofNat 32 (ofBytes (l.take 4)), BitVec.ofNat 32 (ofBytes ((l.drop 4).take 4))) :: pairsOf (l.drop 8) k

/-- Whether a RECVSPARSE with the tag still waits for senders. -/
def PostedStep.takesSparse (t : PostedStep) (tag : BitVec 16) : Bool :=
  t.op == 6 && t.args.tag == tag && decide (t.ends < t.args.value.toNat)

/-- SPARSE: the pairs go to the RECVSPARSE with the tag, or are kept for it. -/
def State.takeSparse (s : State) (f : Flit) : State :=
  match s.findStep (vdnFn (s.vdnOf f.dvdn)) (fun t => t.takesSparse f.tag) with
  | some (p, t) =>
    s.onColl p (fun c => c.onStep t.engineOp (fun t => { t with pairs := t.pairs ++ pairsOf f.payload (f.payload.length / 8) }))
  | none => { s with early := s.early ++ [{ f with op := 0x12 }] }

/-- SPEND: one more sender has ended. -/
def State.takeSpend (s : State) (f : Flit) : State :=
  match s.findStep (vdnFn (s.vdnOf f.dvdn)) (fun t => t.takesSparse f.tag) with
  | some (p, t) => s.onColl p (fun c => c.onStep t.engineOp (fun t => { t with ends := t.ends + 1 }))
  | none => { s with early := s.early ++ [{ f with op := 0x13 }] }

/-- A kept flit taken up by a step that has just started; `kind` 0 a CLEAR, otherwise the sparse kind it was. -/
def State.retake (s : State) (f : Flit) : State :=
  let s1 := { s with early := s.early.erase f }
  if f.op = 0x12 then s1.takeSparse f else if f.op = 0x13 then s1.takeSpend f else s1.takeClear f

/-- Flits kept for a step that has just started, in the order they came, at most `fuel`. -/
def State.retakeAll (s : State) (fn : Nat) (tag : BitVec 16) (sparse : Bool) (vdn : Nat) (fuel : Nat) : State :=
  match fuel with
  | 0 => s
  | k + 1 =>
    match s.early.find? (fun f => vdnFn (s.vdnOf f.dvdn) == fn && f.tag == tag && (f.op == 0) != sparse && (sparse || f.svdn == vdn)) with
    | none => s
    | some f => if sparse then (s.retake f).retakeAll fn tag sparse vdn k else s.retake f

/-! ### The flits of a step -/

/-- What the interface tells a step of one of its flits: acknowledged (code 0), or an ERROR with its code. Clearance is not
counted. -/
def State.collAnswer (s : State) (id kind code : Nat) : State :=
  { s with ops := alter s.ops id (fun o =>
      if code ≠ 0 then { o with out := none, refused := code }
      else if kind = 0x11 then o
      else { o with out := none, acked := o.acked + 1 }) }

/-- The flit of an outbound collective packet. -/
def Outbound.flit (q : Outbound) : Flit :=
  let l := match q.what with | .store l => l | _ => []
  { tc := Fin.ofNat 4 q.tc, dvdn := Fin.ofNat 2048 q.vdn, svdn := Fin.ofNat 2048 q.svdn, tag := BitVec.ofNat 16 (q.seq.getD 0)
    len := Fin.ofNat 16 (ceilDiv l.length 16), op := 0, mask := 0xFFFF, gpa := 0, payload := l }

/-- The LENGTH of the step that sends. -/
def State.lengthOf (s : State) (id : Nat) : Option Nat :=
  match look s.ops id with
  | some o =>
    (match o.kind with
     | .collective p _ => ((look s.colls p).bind (fun c => c.stepOf id)).map (fun t => t.args.length.toNat)
     | _ => none)
  | none => none

/-- A collective flit that the receiver's checks have let in, and its answer. -/
def State.takeColl (s : State) (kind : Nat) (f : Flit) (total : Option Nat) : State × Nat :=
  match kind with
  | 0x10 => s.takeCdata f total
  | 0x11 => (s.takeClear f, 0)
  | 0x12 => (s.takeSparse f, 0)
  | _ => (s.takeSpend f, 0)

/-- A collective packet that has just been given to the interface, or comes to be sent again: what the device serves itself is
delivered (R412), and a mask without a working port ends the step (R409). -/
def State.collServe (s : State) (oid : Nat) : State :=
  match look s.outbound oid with
  | none => s
  | some q =>
    match q.owner with
    | .op id =>
      let s0 := { s with outbound := del s.outbound oid }
      (match q.state with
       | .within =>
         (match s.gate q.vdn q.svdn with
          | .pass _ _ => let r := s0.takeColl q.kind q.flit (s.lengthOf id); r.1.collAnswer id q.kind r.2
          | .retry h =>
            ({ s with outbound := put s.outbound oid { q with state := .retry (s.clock + h.getD (Config.hint s.free).toNat) } } : State).bump
          | .roster part fn => (s0.logRefused part fn q.svdn 0 0 .peerRoster).collAnswer id q.kind Cause.peerRoster.code
          | _ => s0.collAnswer id q.kind Cause.peerRoster.code)
       | .sent _ _ => if s.hasPort q then s else s0.collAnswer id q.kind Cause.machineCheck.code
       | _ => s)
    | _ => s

/-- A flit from a step to its peer. -/
def State.collSend (s : State) (id : Nat) (c : CollProg) (t : PostedStep) (kind : Nat) (l : List Byte) : State :=
  let (s1, oid) := s.sendOut { owner := .op id, part := c.ctx.part, fn := c.ctx.fn, svdn := (s.svdnOf c.ctx.fn).getD 0, vdn := t.args.vdn, gpa := 0
                               size := l.length, what := .store l, seq := some t.args.tag.toNat, tc := t.args.tc, kind := kind, state := .held }
  ({ s1 with ops := alter s1.ops id (fun o => { o with out := if kind = 0x11 then o.out else some oid }) } : State).collServe oid

/-! ### Steps (R347) -/

/-- Whether a step's DT and LENGTH are in range; the WAITW and END of R442 too carry a LENGTH of 16. -/
def stepFields (op : Nat) (a : CollArgs) : Bool :=
  decide (a.dt ≠ 3 ∧ a.length ≠ 0 ∧ a.length.toNat % (if op = 5 ∨ op = 6 then 8 else 16) = 0)

/-- Whether a step's OFFSET is aligned: to 16 bytes for data, to 4 for WAITW and SIGNAL. -/
def stepAligned (op : Nat) (a : CollArgs) : Bool := decide (a.offset.toNat % (if op = 3 ∨ op = 4 then 4 else 16) = 0)

/-- What a step needs of the program's capability (R346): whether it names a VDN, and the permissions. -/
def stepNeeds (op : Nat) : Bool × Nat :=
  match op with
  | 0 | 5 => (true, permENG + permR + permPEER)
  | 1 => (true, permENG + permW + permPEER)
  | 2 => (true, permENG + permR + permW + permPEER)
  | 3 => (false, permENG + permR)
  | 4 => (false, permENG + permW)
  | _ => (false, permENG + permR + permW)

/-- The checks of a step that reaches memory: the GVA of its operand, or why the program ends. -/
def State.checkStep (s : State) (p : Nat) (c : CollProg) (op : Nat) (a : CollArgs) : Except (Nat × Option (DWord × Nat)) Nat :=
  let (named, perm) := stepNeeds op
  let n := if op = 3 ∨ op = 4 then 4 else a.length.toNat
  if stepFields op a = false then .error (eBadField, none)
  else if stepAligned op a = false then .error (Cause.misaligned.code, none)
  else if named ∧ c.cap.scope ≠ 4 then .error (Cause.capScope.code, some (BitVec.ofNat 64 c.cap.base, c.cap.owner))
  else
    match s.checkCap (s.collRequester c p) c.cap perm a.offset.toNat n with
    | .error f => (match f.hitch false with | .fault k l => .error (k, l) | _ => .error (eBadField, none))
    | .ok gva =>
      if named ∧ (s.onRoster c.ctx.fn a.vdn = false ∨ s.reaches c.ctx.fn a.vdn = false) then
        .error (Cause.peerRoster.code, some (BitVec.ofNat 64 (a.vdn.val * 2 ^ 52), c.cap.owner))
      else .ok gva

/-- A program's step on behalf of which `exec` runs. -/
def collStep (f : Nat → CollProg → State → State) (s : State) : Out :=
  match s.cur with
  | .coll p =>
    match look s.colls p with
    | some c => if c.canStart then .next (f p c s) else .next s
    | none => .next s
  | _ => .next s

/-- A step starts (R347): its operation registered, unless R130 or the RLT holds it back. -/
def State.postStep (s : State) (p : Nat) (c : CollProg) (op : Nat) (a : CollArgs) (srcs dsts : List Range)
    (after : Nat → State → State) : State :=
  if s.blocked c.ctx srcs dsts (fun _ => false) ∨ s.hasEntry (collCore c.sequencer) false = false then s
  else
    let (s1, id) := s.start (c.stepOp p c.next srcs dsts)
    after id (s1.onColl p (fun c => { c with
      posted := c.posted ++ [{ index := c.next, op := op, args := a, engineOp := id }], next := c.next + 1, async := a.async }))

/-- The memory range of a step. -/
def stepRange (gva n : Nat) : List Range := [{ scratch := false, base := gva, len := n }]

/-- A step with an operand: checked, then started. -/
def startStep (op : Nat) (a : CollArgs) (ranges : Nat → List Range × List Range) (after : Nat → CollProg → Nat → State → State) :
    State → Out :=
  collStep (fun p c s =>
    match s.checkStep p c op a with
    | .error (k, l) => s.collFault p k l
    | .ok gva => s.postStep p c op a (ranges gva).1 (ranges gva).2 (fun id t => after p c id t))

/-- SEND: it waits for the receiver's clearance (R349). -/
def execSend (a : CollArgs) : State → Out :=
  startStep 0 a (fun g => (stepRange g a.length.toNat, [])) (fun _ c _ t => t.retakeAll c.ctx.fn a.tag false a.vdn 1)

/-- The clearance a receiving step sends (R418). -/
def State.clearFor (s : State) (p id : Nat) : State :=
  match look s.colls p with
  | some c => (match c.stepOf id with | some t => s.collSend id c t 0x11 [] | none => s)
  | none => s

/-- RECV. -/
def execRecv (a : CollArgs) : State → Out :=
  startStep 1 a (fun g => ([], stepRange g a.length.toNat)) (fun p _ id t => t.clearFor p id)

/-- RECVADD. -/
def execRecvadd (a : CollArgs) : State → Out :=
  startStep 2 a (fun g => ([], stepRange g a.length.toNat)) (fun p _ id t => t.clearFor p id)

/-- WAITW: it holds no range until the read that meets its condition (R350). -/
def execWaitw (a : CollArgs) : State → Out := startStep 3 a (fun _ => ([], [])) (fun _ _ _ t => t)

/-- SIGNAL. -/
def execSignal (a : CollArgs) : State → Out := startStep 4 a (fun g => ([], stepRange g 4)) (fun _ _ _ t => t)

/-- SPARSE. -/
def execSparse (a : CollArgs) : State → Out := startStep 5 a (fun g => (stepRange g a.length.toNat, [])) (fun _ _ _ t => t)

/-- RECVSPARSE. -/
def execRecvsparse (a : CollArgs) : State → Out :=
  startStep 6 a (fun g => ([], stepRange g a.length.toNat))
    (fun _ c _ t => t.retakeAll c.ctx.fn a.tag true 0 (t.early.length))

/-- END: once every earlier step has completed, the program ends. -/
def execEndStep (a : CollArgs) : State → Out :=
  collStep (fun p c s =>
    if stepFields 7 a = false then s.collFault p eBadField none
    else if !c.posted.isEmpty then s
    else (s.onColl p (fun c => { c with status := { c.status with progress := c.status.progress + 1 } })).markEnded p 3 0)

/-! ### What a step comes to at its event -/

/-- The element format of DT (R347). -/
def dtFmt (dt : Nat) : Fmt := match dt with | 0 => .fp32 | 1 => .bf16 | _ => .fp16

/-- Bytes plus bytes, element by element, with the status bits (R348). -/
def addBytes (f : Fmt) (w n : Nat) (a b : List Byte) : List Byte × Nat :=
  match n with
  | 0 => ([], 0)
  | k + 1 =>
    let r := (f.addW .rne false (ofBytes (a.take w)) (ofBytes (b.take w))).1
    let t := addBytes f w k (a.drop w) (b.drop w)
    (toBytes w r ++ t.1, noteOf (f.decode r) ||| t.2)

/-- Bytes of an element of DT. -/
def dtBytes (dt : Nat) : Nat := if dt = 0 then 4 else 2

/-- The pairs of a sparse step added into the array's bytes (R351), with the status bits. -/
def addPairs (l : List Byte) (ps : List (Word × Word)) : List Byte × Nat :=
  ps.foldl (fun (a : List Byte × Nat) p =>
    let i := p.1.toNat
    if a.1.length ≤ 4 * i then (a.1, a.2 ||| stDROP)
    else
      let r := (Fmt.fp32.addW .rne false (ofBytes ((a.1.drop (4 * i)).take 4)) p.2.toNat).1
      (a.1.take (4 * i) ++ toBytes 4 r ++ a.1.drop (4 * i + 4), a.2 ||| noteOf (Fmt.fp32.decode r))) (l, 0)

/-- A WAITW word must be LOCAL (R350). -/
def localOnly (m : Made) (owner : Nat) : Made :=
  match (m.reads.filter (fun r => match r.x with | some x => x.kind != .dram | none => false)).head? with
  | some r => { m with hitch := some (.fault Cause.capPermission.code (some (BitVec.ofNat 64 r.gva, owner))) }
  | none => m

/-- The reads and writes of a step, over as many received bytes as have come. -/
def State.collMade (s : State) (o : EngineOp) (c : CollProg) (t : PostedStep) : Made :=
  let rq := s.opRequester o
  let off := t.args.offset.toNat
  match t.op with
  | 1 => s.writeInto rq o {} (some c.cap) off t.received
  | 2 =>
    let (m, l) := s.readInto rq o {} (some c.cap) off t.received.length
    let w := dtBytes t.args.dt
    let r := addBytes (dtFmt t.args.dt) w (l.length / w) l t.received
    let m1 := { m with sticky := r.2 }
    if m.hitch.isSome then m1 else s.writeInto rq o m1 (some c.cap) off r.1
  | 3 => localOnly (s.readInto rq o {} (some c.cap) off 4).1 c.cap.owner
  | 4 => s.writeInto rq o {} (some c.cap) off (toBytes 4 t.args.value.toNat)
  | 6 =>
    let (m, l) := s.readInto rq o {} (some c.cap) off t.args.length.toNat
    let r := addPairs l t.pairs
    let m1 := { m with sticky := r.2 }
    if m.hitch.isSome then m1 else s.writeInto rq o m1 (some c.cap) off r.1
  | _ => {}

/-- The word a WAITW reads. -/
def State.waitWord (s : State) (o : EngineOp) (c : CollProg) (t : PostedStep) : Nat :=
  ofBytes (s.readInto (s.opRequester o) o {} (some c.cap) t.args.offset.toNat 4).2

/-- Flits a sending step sends in all: its slices, and for SPARSE the end marker. -/
def PostedStep.flits (t : PostedStep) : Nat := ceilDiv t.args.length.toNat 240 + (if t.op = 5 then 1 else 0)

/-- Whether a step's event can stand: SEND and SPARSE when the last flit is acknowledged, RECV and RECVADD when the last byte
has come, RECVSPARSE when the last sender has ended, WAITW when its word meets the condition. -/
def State.stepReady (s : State) (o : EngineOp) (c : CollProg) (t : PostedStep) : Bool :=
  match t.op with
  | 0 | 5 => decide (t.flits ≤ o.acked)
  | 1 | 2 => decide (t.received.length = t.args.length.toNat)
  | 3 =>
    decide (t.args.value.toNat ≤ s.waitWord o c t) &&
      !s.blocked c.ctx (stepRange (c.cap.base + t.args.offset.toNat) 4) [] (fun _ => false)
  | 6 => decide (t.args.value.toNat ≤ t.ends)
  | _ => true

/-- Whether a step may send (R349): a SEND after the receiver's clearance and after the earlier SENDs to that VDN with its tag. -/
def State.maySend (s : State) (c : CollProg) (t : PostedStep) : Bool :=
  t.op == 5 || (t.op == 0 && t.cleared &&
    (s.findStep c.ctx.fn (fun u => u.op == 0 && u.args.vdn == t.args.vdn && u.args.tag == t.args.tag)).any (fun e =>
      e.2.engineOp == t.engineOp))

/-- The next flit of a sending step (R418). -/
def State.streamStep (s : State) (id : Nat) (o : EngineOp) (c : CollProg) (t : PostedStep) : State :=
  let n := t.args.length.toNat
  let at_ := 240 * o.acked
  if n ≤ at_ then s.collSend id c t 0x13 []
  else
    let (m, l) := s.readInto (s.opRequester o) o {} (some c.cap) (t.args.offset.toNat + at_) (min 240 (n - at_))
    match peerRead m.needs, m.hitch with
    | some r, _ => s.opSend id o m r
    | none, none => (s.installAll (m.founds.map (fun f => f.2.2))).collSend id c t (if t.op = 5 then 0x12 else 0x10) l
    | none, some (.fault code log) => { s with ops := put s.ops id { o with refused := code } }.recordFault c.ctx c.team 0 true code log
    | none, some (.page f gva w) => s.parkOp id o f gva w

end Sys2Proof.Machine
end

