-- ==== Sys2Proof/Machine/EngineDone.lean ====
section
/-! DEFINITION. ENGINE_OPERATION_COMPLETION: the event of an engine operation (R131), with its accesses to PEER memory
before it (R132), the cut of one that faults or is cancelled (R316, R320), and what follows for its command, its program or
its collective step. -/

namespace Sys2Proof.Machine

/-! ### What an operation comes to -/

/-- The outputs of a drain (R329, R330). -/
def State.drainMade (s : State) (o : EngineOp) (acc ofmt rm trm : Nat) (trans mem : Bool) (toff dest : Nat) : Made :=
  let c := s.core o.core
  let t := lookD c.tiles acc {}
  let r := c.matrix
  let seed := match r with | some r => r.entry.seed | none => 0
  let n := match r with | some r => r.drains | none => 0
  let rq := s.opRequester o
  let int := t.kind == some true
  let side : Option Cap := if mem then some o.capB else none
  let a := drainImage int ofmt rm seed n 0 (t.all false)
  let m := s.writeInto rq o { sticky := a.2 } side dest a.1
  if trans then
    let b := drainImage int ofmt trm seed n 4096 (t.all true)
    s.writeInto rq o { m with sticky := m.sticky ||| b.2 } side (dest + 256 * toff) b.1
  else m

/-- The bytes a load reads. -/
def State.loadRead (s : State) (o : EngineOp) (addr : Nat) : Made × List Byte :=
  s.readInto (s.opRequester o) o {} none addr (((o.srcs.head?).map (·.len)).getD 0)

/-- The accesses of an operation. -/
def State.opMade (s : State) (o : EngineOp) (id : Nat) : Made :=
  match o.kind with
  | .copy d => s.copyMade o d
  | .chain _ => s.chainMade o
  | .mload _ addr _ => (s.loadRead o addr).1
  | .mdrain acc ofmt rm trm tr mem toff dest => s.drainMade o acc ofmt rm trm tr mem toff dest
  | .collective p _ =>
    (match look s.colls p with
     | some c => (match c.stepOf id with | some t => s.collMade o c t | none => {})
     | none => {})
  | .hold _ => {}

/-! ### What follows an event -/

/-- The status bits of a program's operation join its program's (R319). -/
def Team.addSticky (t : Team) (n st : Nat) : Team := t.onSeq n (fun p => { p with sticky := p.sticky ||| BitVec.ofNat 4 st })

/-- Whether another operation of a team's copy program is under way. -/
def State.copiesLeft (s : State) (tid : Nat) : Bool := s.ops.any (fun e => e.2.team == tid && e.2.program && !e.2.orphan && e.2.isCopy)

/-- A copy of a program has ended: SIG, PROGRESS, and the end of the program by its fault or its last copy (R345). -/
def State.afterProgramCopy (s : State) (o : EngineOp) (st code : Nat) : State :=
  let s1 := match st, o.signal with
    | 3, some a => s.signalWord o.team a
    | _, _ => s
  if o.orphan then s1
  else
  let s2 := if st = 3 then s1.onTeam o.team (fun t => t.onSeq 2 (fun p => { p with progress := p.progress + 1 })) else s1
  if st = 4 then s2.endProgram o.team 2 code
  else
    match (s2.core o.core).copy with
    | some r => if r.entry.team = o.team ∧ r.last ∧ s2.copiesLeft o.team = false then s2.endProgram o.team 2 0 else s2
    | none => s2

/-- A run of a chain program has ended (R340); its completed rows count (R319). -/
def State.afterProgramChain (s : State) (o : EngineOp) (st code sticky : Nat) : State :=
  let s1 := s.onTeam o.team (fun t => (t.addSticky 1 sticky).onSeq 1 (fun p => { p with progress := p.progress + o.run.rowsDone }))
  if st = 4 then s1.endProgram o.team 1 code
  else
    match (s1.core o.core).chain with
    | some r => if r.entry.team = o.team ∧ r.last ∧ st = 3 then s1.endProgram o.team 1 0 else s1
    | none => s1

/-- A load has completed: the buffer filled, its entry a buffer hold, MLCOUNT and PROGRESS one higher (R326). -/
def State.afterLoad (s : State) (o : EngineOp) (buf : Nat) (l : List Byte) : State :=
  let s1 := { s with ops := s.ops.filter (fun e => !isHold o.team (some buf) e.2) }
  let s2 := { s1 with nextId := s1.nextId + 1
                      ops := put s1.ops s1.nextId { o with kind := .hold buf, state := .live, got := [], acked := 0, out := none } }
  let s3 := s2.onTeam o.team (fun t => { t with mlcount := (t.mlcount + 1) % 2 ^ 32 })
  match (s3.core o.core).matrix with
  | some r => s3.matrixNext o.core o.team (r.index + 1) (fun r => { r with buffers := r.buffers.set buf (some l) })
  | none => s3

/-- A drain has completed: the buffers whose held bytes it wrote emptied (R326), one more drain executed. -/
def State.afterDrain (s : State) (o : EngineOp) (sticky : Nat) : State :=
  let hit (e : Nat × EngineOp) : Bool :=
    isHold o.team none e.2 && o.dsts.any (fun d => e.2.srcs.any (fun r => s.rangesMeet o.ctx d e.2.ctx r))
  let bufs := (s.ops.filter hit).filterMap (fun e => match e.2.kind with | .hold b => some b | _ => none)
  let s1 := ({ s with ops := s.ops.filter (fun e => !hit e) } : State).onTeam o.team (fun t => t.addSticky 0 sticky)
  match (s1.core o.core).matrix with
  | some r => s1.matrixNext o.core o.team (r.index + 1) (fun r =>
      { r with drains := r.drains + 1, buffers := bufs.foldl (fun b k => b.set k none) r.buffers })
  | none => s1

/-- The step at a peer that a step was matched with ends with PEER_CANCELLED: here, or by an ERROR to the peer (R320, R471). -/
def State.cancelPeer (s : State) (c : CollProg) (t : PostedStep) : State :=
  let sv := (s.svdnOf c.ctx.fn).getD 0
  let e := s.vdnOf t.args.vdn
  let partner (u : PostedStep) : Bool :=
    u.args.vdn.val == sv && u.args.tag == t.args.tag && (if t.op = 0 then (u.op == 1 || u.op == 2) else u.op == 0 && u.cleared)
  if t.op ≤ 2 ∧ (t.op ≠ 0 ∨ t.cleared) then
    if vdnLocal e then
      match s.findStep (vdnFn e) partner with
      | some (p, _) => s.collFault p ePeerCancelled none
      | none => s
    else s.collPacket c 0x23 t.args.vdn ePeerCancelled t.args
  else s

/-- A collective step has ended: completed, faulted, or cancelled with its program. -/
def State.afterStep (s : State) (id p st code sticky : Nat) (log : Option (DWord × Nat)) : State :=
  match look s.colls p with
  | none => s
  | some c =>
    match c.stepOf id with
    | none => s
    | some t =>
      let s1 := s.onColl p (fun c =>
        { c with
          posted := c.posted.filter (fun u => u.engineOp != id)
          status := { c.status with sticky := c.status.sticky ||| BitVec.ofNat 4 sticky
                                    progress := if st = 3 then c.status.progress + 1 else c.status.progress } })
      let s2 := { s1 with outbound := s1.outbound.filter (fun e => match e.2.owner with | .op k => k != id | _ => true) }
      match st with
      | 3 => s2
      | 4 => (s2.collFault p code log (some t.index)).cancelPeer c t
      | _ => (s2.cancelPeer c t).closeColl p

/-- An operation ends in state 3, 4 or 5 with its cause: its event's effects apart from its writes (R131, R316, R320). -/
def State.afterOp (s : State) (id : Nat) (o : EngineOp) (m : Made) (st code : Nat) (log : Option (DWord × Nat)) : State :=
  let bytes := match o.kind with | .mload _ addr _ => (s.loadRead o addr).2 | _ => []
  let s0 := match o.kind with
    | .collective _ _ => s
    | _ => if st = 4 then s.recordFault o.ctx o.team (if o.program then 0 else o.pc) false code log else s
  let s1 := s0.dropOp id o
  let s2 :=
    match o.kind with
    | .copy _ =>
      let s2 := if st = 3 then s1.learn o else s1
      if o.program then s2.afterProgramCopy o st code else (s2.noteCopy id o st code (max o.least m.bytes)).dropFlag o.gid o.flag code
    | .chain _ => if o.program then s1.afterProgramChain o st code m.sticky else s1.dropFlag o.gid o.flag code
    | .mload buf _ _ => if st = 3 then s1.afterLoad o buf bytes else if st = 4 then s1.endProgram o.team 0 code else s1
    | .mdrain _ _ _ _ _ _ _ _ => if st = 3 then s1.afterDrain o m.sticky else if st = 4 then s1.endProgram o.team 0 code else s1
    | .collective p _ => s1.afterStep id p st code m.sticky log
    | .hold _ => s1
  s2.tryRetire o.team

/-! ### The event -/

/-- What an operation ends with: its own fault, or none. -/
def Made.outcome (m : Made) : Nat × Nat × Option (DWord × Nat) :=
  match m.hitch with
  | some (.fault code log) => (4, code, log)
  | _ => (3, 0, none)

/-- The event, once the homes have given its lines. -/
def State.commitOp (s : State) (id : Nat) (o : EngineOp) (m : Made) : State :=
  let s1 := s.takeFor m
  if !s1.gaveAll m then s1
  else (s1.performMade o.ctx m).afterOp id o m m.outcome.1 m.outcome.2.1 m.outcome.2.2

/-- The lines of PEER memory are written one by one, in ascending address, before the event (R132, R417). -/
def State.writeOut (s : State) (id : Nat) (o : EngineOp) (m : Made) : State :=
  match (if o.broken.any (fun b => b.write) then none else m.nextLine o.peerTo) with
  | some r => s.opSend id o m r
  | none => s.commitOp id o m

/-- An operation goes on as far as it can: a PEER line fetched, a page fault parked on, its PEER writes, its event. -/
def State.settleOp (s : State) (id : Nat) (o : EngineOp) (m : Made) : State :=
  match peerRead m.needs, m.hitch with
  | some r, _ => s.opSend id o m r
  | none, some (.page f gva w) => s.parkOp id o f gva w
  | none, _ => s.writeOut id o m

/-- How many granules of an operation are known to have been written when it stops, and how many can have been: those up to the last
of a PEER line that has been acknowledged, and up to the first of one that has not; of a copy those whose bytes have been told of
(R319, R320). -/
def Made.stopsBetween (m : Made) (peerTo least : Nat) : Nat × Nat :=
  let gs := m.granules
  let peer (g : List (Req × List Byte)) (done : Bool) : Bool := g.any (fun w => w.1.isPeer && decide (w.1.gva / 128 < peerTo) == done)
  let lo := gs.zipIdx.foldl (fun n (e : List (Req × List Byte) × Nat) => if peer e.1 true then e.2 + 1 else n) 0
  let told := ((List.range (gs.length + 1)).find? (fun n => decide (least ≤ (m.cut n).bytes))).getD gs.length
  let hi := (gs.findIdx? (fun g => peer g false)).getD gs.length
  (max lo told, max (max lo told) hi)

/-- The event of a cancelled operation: some of its granules, in order (R316, R320). How far it had come is a free value. -/
def State.cancelNow (s : State) (id : Nat) : State :=
  match look s.ops id with
  | none => s
  | some o =>
    let m0 := (s.opMade o id).solidPart
    let b := m0.stopsBetween o.peerTo o.least
    let n := b.1 + (Config.dword (2 ^ 67 + s.free * 2 ^ 16 + id)).toNat % (b.2 - b.1 + 1)
    let m := { m0.cut n with hitch := none }
    let s0 := { s.bump with outbound := s.outbound.filter (fun e => match e.2.owner with | .op k => k != id | _ => true) }
    let s1 := s0.takeFor m
    if !s1.gaveAll m then { s1 with ops := put s1.ops id { o with state := .cancelled, out := none } }
    else (s1.performMade o.ctx m).afterOp id o m 5 0 none

/-- Whether the engine of an operation runs (R352, R386, R433). -/
def State.opRuns (s : State) (o : EngineOp) : Bool :=
  match o.kind with
  | .collective _ _ => !s.isHeld o.ctx.part
  | _ => s.works o

/-- A collective step that has started: it streams, or its event stands. -/
def State.advanceStep (s : State) (id : Nat) (o : EngineOp) (p : Nat) : State :=
  match look s.colls p with
  | none => s
  | some c =>
    match c.stepOf id with
    | none => s
    | some t =>
      if o.refused ≠ 0 then s.afterOp id o {} 4 o.refused none
      else if s.stepReady o c t then s.settleOp id o (s.collMade o c t)
      else if s.maySend c t then s.streamStep id o c t
      else
        match t.op with
        | 3 =>
          let m := s.collMade o c t
          (match m.hitch with | some _ => s.settleOp id o m | none => s)
        | _ => s

/-- Whether an operation's turn for its event has come. -/
def State.opDue (s : State) (id : Nat) (o : EngineOp) : Bool :=
  match o.kind with
  | .copy _ => !(o.ordered && s.ops.any (fun e => decide (e.1 < id) && e.2.team == o.team && e.2.program && !e.2.orphan && e.2.isCopy))
  | .chain r => r.ended
  | .hold _ => false
  | _ => true

/-- ENGINE_OPERATION_COMPLETION (R131). -/
def State.completeOp (s : State) (id : Nat) : State :=
  match look s.ops id with
  | none => s
  | some o =>
    match o.state with
    | .cancelled => s.cancelNow id
    | .live =>
      if s.opRuns o && o.out.isNone && s.opDue id o then
        match o.kind with
        | .collective p _ => s.advanceStep id o p
        | _ => s.settleOp id o (s.opMade o id)
      else s
    | _ => s

/-- ENGINE_OPERATION_COMPLETION: an engine operation comes to its completion (R131). -/
def execEngineOperationCompletion (op : Nat) (s : State) : Out := .next (s.completeOp op)

end Sys2Proof.Machine
end

