-- ==== Sys2Proof/Machine/EngineCmd.lean ====
section
/-! DEFINITION. The engine commands of lanes and guides (R302, R313 to R321, R335, R341 to R346): block checks at issue, the
deferred launch buffer (R126), release under R130, COPYQ, ESTAT, ECANCEL and POST; and the release of the items of copy and
chain programs (R340, R345). -/

namespace Sys2Proof.Machine

/-! ### Command blocks (R313, R314) -/

/-- The s-registers of a command block. -/
def blockRegs (x : Fin 64) (n : Nat) : List Nat := span (4 * x.val) n

/-- Register n of a command block. -/
def Issue.block (x : Issue) (k : Fin 64) (n : Nat) : Nat := (x.sreg n (4 * k.val + n)).toNat

/-- Why a command is not given to its engine: a block field, by its register's s-index, or a check of R47 and R54. -/
inductive Refused where
  | field (index : Nat)
  | check (f : Fail)
  deriving DecidableEq, Repr

/-- A command that fails at issue: ENGINE_FAULT for a block field (R314), otherwise the trap of R47. In an epoch it waits as
the drain kind does (R122). -/
def Issue.refuse (x : Issue) (s : State) (r : Refused) : State :=
  if x.g.epoch.isSome then s
  else
    match r with
    | .field i => x.trap .engineFault (engineFaultAddr 0 eBadField i) x.act
    | .check f => x.failWhole s .engineRead f

/-- The requester of a command's checks (R47). -/
def Issue.engineReq (x : Issue) (collective : Bool) : Requester := { x.requester with engine := true, collective := collective }

/-- The first of a block's registers that is out of range, as its s-index: `bad` says which. -/
def badReg (k : Fin 64) (bad : List Bool) : Option Nat := (bad.findIdx? id).map (fun i => 4 * k.val + i)

/-- A check that answers nothing of use, as a refusal. -/
def asRefused {α : Type} (e : Except Fail α) : Option Refused := match e with | .ok _ => none | .error f => some (.check f)

/-! ### Release (R126, R130) -/

/-- A result register of a command written at its release: in the group as it stands, and in the checkpoint of an epoch
that has opened since. -/
def State.writeResult (s : State) (gid : Nat) (f : GroupArch → GroupArch) : State :=
  s.onGroup gid (fun g => { g with arch := f g.arch, epoch := g.epoch.map (fun e => { e with saved := f e.saved }) })

/-- The live programs of a collective sequencer. -/
def State.liveOn (s : State) (sequencer : Nat) : Nat := (s.colls.filter (fun e => e.2.sequencer == sequencer && !e.2.ended)).length

/-- What every operation of a group's command carries. -/
def Deferred.op (d : Deferred) (gid : Nat) (g : Group) (t : Team) (flag : Nat) (kind : OpKind) (a b : Cap) : EngineOp :=
  { core := t.core, team := g.team, gid := gid, flag := flag, kind := kind, ctx := t.ctx, capA := a, capB := b, srcs := d.srcs
    dsts := d.dsts, pc := d.pc }

/-- An entry in the fork queue of a core: 0 matrix, 1 chain, 2 copy. -/
def Core.enqueue (c : Core) (n : Nat) (e : ForkEntry) : Core :=
  match n with
  | 0 => { c with matrixQ := c.matrixQ ++ [e] }
  | 1 => { c with chainQ := c.chainQ ++ [e] }
  | _ => { c with copyQ := c.copyQ ++ [e] }

/-- FORK released: every named sequencer receives its entry; a matrix program resets the load count (R172, R302, R322). -/
def State.releaseFork (s : State) (gid tid : Nat) (q : Nat) (entry : Nat → ForkEntry) : State :=
  let t := lookD s.teams tid {}
  let s1 := s.onTeam tid (fun t =>
    (seqsIn q).foldl (fun t n => t.onSeq n (fun p => { state := 1, fault := p.fault, forker := gid }))
      (if q % 2 = 1 then { t with mlcount := 0 } else t))
  s1.onCore t.core (fun c => (seqsIn q).foldl (fun c n => c.enqueue n (entry n)) c)

/-- COPY released (R343): its promise written to its pair, which is bound to it. -/
def State.releaseCopy (s : State) (gid : Nat) (g : Group) (t : Team) (d : Deferred) (c : CopyDesc) (pair : Nat) (src dst : Cap)
    (flag : Nat) : State :=
  let cls := s.classOf t.ctx c src dst
  let n := c.rows * c.rbytes
  let p := (s.core t.core).predictor cls
  let now := s.partClock t.ctx.part
  let promise := (now + p.ahead p.lat (s.queued t.core cls s.nextId + n)) % 2 ^ 64
  let o := { d.op gid g t flag (.copy c) src dst with
             pair := some pair, promise := promise, released := now, bytes := n, cls := cls }
  let (s1, id) := s.start o
  ((s1.noteMoved (fun i q => decide (i < s.nextId) && q.ahead t.core cls)).bump.writeResult gid (fun a =>
    let b := (a.setSreg pair (BitVec.ofNat 32 promise)).setSreg (pair + 1) (BitVec.ofNat 32 (promise / 2 ^ 32))
    { b with bound := b.bound ++ [(pair, id)] })).noteCopy id o 2 0 0

/-- The image at a scratch address. The bytes come from `read`, by location. -/
def State.readImage (s : State) (rq : Requester) (a : Nat) (read : Nat → Nat → List Byte) : Image :=
  match s.scratchAt rq a 20 with
  | .error _ => {}
  | .ok loc =>
    match s.scratchAt rq a (imageBytes (ofBytes (read loc 4) % 32)) with
    | .ok l => imageOf (read l (imageBytes (ofBytes (read loc 4) % 32)))
    | .error _ => imageOf (read loc 20)

/-- The words of a chain run as they stand: its descriptor, and its image where it loads one, otherwise the slot's (R335). -/
def State.chainWords (s : State) (rq : Requester) (slotImage : Image) (r : ChainRun) (read : Nat → Nat → List Byte) : ChainRun :=
  { r with
    desc := match s.scratchAt rq r.descAt 96 with | .ok loc => wordsOf (read loc 96) 24 | .error _ => []
    image := if r.load then s.readImage rq r.imageAt read else slotImage }

/-- A deferred command as it stands at its release: the ranges of a chain run follow from its words and its slot's image at that
moment (R126, R335). -/
def State.rangesNow (s : State) (gid : Nat) (d : Deferred) : Deferred :=
  let g := lookD s.groups gid {}
  let t := s.teamOf g
  match d.cmd with
  | .chain image desc load slot seed inp out flag =>
    let rq := s.opRequester (d.op gid g t flag (.chain {}) inp out)
    let r := s.chainWords rq (s.slotView t.core slot).image
      { imageAt := image, descAt := desc, load := load, slot := slot, seed := seed } (fun l n => s.mem.getsUnder 0 l n)
    (match s.chainRanges rq inp out r (imageBytes r.image.count) with
     | .ok (srcs, dsts) => { d with srcs := srcs, dsts := dsts }
     | .error _ => d)
  | _ => d

/-- Whether a command can be released: no conflicting range, an RLT entry, its sequencers idle, room on the collective
sequencer. -/
def State.canRelease (s : State) (gid : Nat) (d0 : Deferred) : Bool :=
  let d := s.rangesNow gid d0
  let t := s.teamOf (lookD s.groups gid {})
  match d.cmd with
  | .fork q _ _ _ _ _ _ _ => !(seqsIn q).any t.busyOn
  | .copy _ _ _ _ _ => !s.blocked t.ctx d.srcs d.dsts (fun _ => false) && s.hasEntry t.core true
  | .chain _ _ _ _ _ _ _ _ => !s.blocked t.ctx d.srcs d.dsts (fun _ => false) && s.hasEntry t.core false
  | .coll _ sq _ _ _ => decide (s.liveOn sq < 64)
  | .cancelCopy _ | .cancelColl _ => true

/-- Bytes of the image a run loads. -/
def ChainRun.imageLen (r : ChainRun) : Nat := imageBytes r.image.count

/-- A handle no live program of the partition has; which one is a free value. -/
def State.freeHandle (s : State) (part : Nat) : Nat :=
  let at_ := (Config.dword (2 ^ 68 + s.free)).toNat
  let live (h : Nat) : Bool := match look s.colls (part * 65536 + h) with | some c => !c.ended | none => false
  (((List.range 257).map (fun i => (at_ + i) % 65536)).find? (fun h => !live h)).getD 0

/-- COLL released (R346): a program with its handle, and the operation that reads its steps. -/
def State.releaseColl (s : State) (gid : Nat) (g : Group) (t : Team) (offset seqr block : Nat) (cap : Cap) (flag : Nat) : State :=
  let h := s.freeHandle t.ctx.part
  let p := t.ctx.part * 65536 + h
  let c : CollProg := { sequencer := seqr, team := g.team, gid := gid, flag := flag, ctx := t.ctx, cap := cap, offset := offset
                        handle := h, fetchOp := 0, status := { state := 2, forker := gid } }
  let (s1, id) := s.start (c.fetcher p)
  ({ s1 with colls := put s1.colls p { c with fetchOp := id } } : State).bump.writeResult gid (fun a => a.setSreg block (BitVec.ofNat 32 h))

/-- The live copy of a PROMISE pair of a group. -/
def State.pairOp (s : State) (gid pair : Nat) : Option (Nat × EngineOp) :=
  (s.ops.filter (fun e => e.2.gid == gid && !e.2.program && e.2.pair == some pair)).getLast?

/-- The copy bound to a pair of a group, while it lives (R344). -/
def State.boundTo (s : State) (gid pair : Nat) : Option Nat :=
  match look s.groups gid with
  | none => none
  | some g =>
    match g.arch.bound.find? (fun b => b.1 == pair) with
    | some b => if (look s.ops b.2).isSome then some b.2 else none
    | none => none

/-- A collective program cancelled (R320): what runs of its steps ends, and then the program. -/
def State.cancelProgram (s : State) (p : Nat) : State :=
  match look s.colls p with
  | none => s
  | some c =>
    if c.ended ∨ c.closing.isSome then s
    else (s.markEnded p 5 0).ops.foldl (fun (u : State) (e : Nat × EngineOp) =>
      match e.2.kind with
      | .collective q _ => if q = p ∧ (look u.ops e.1).isSome then u.cancelNow e.1 else u
      | _ => u) (s.markEnded p 5 0)

/-- A command released (R126). -/
def State.releaseCmd (s : State) (gid : Nat) (d0 : Deferred) : State :=
  match look s.groups gid with
  | none => s
  | some g =>
    let d := s.rangesNow gid d0
    let t := s.teamOf g
    match d.cmd with
    | .fork q mat chn cpy cm cc cp seed =>
      s.releaseFork gid g.team q (fun n =>
        match n with
        | 0 => { team := g.team, addr := mat, cap := cm, seed := seed }
        | 1 => { team := g.team, addr := chn, cap := cc, seed := seed }
        | _ => { team := g.team, addr := cpy, cap := cp, seed := seed })
    | .copy c pair src dst flag => s.releaseCopy gid g t d c pair src dst flag
    | .chain image desc load slot seed inp out flag =>
      let o := d.op gid g t flag (.chain {}) inp out
      let r := s.chainWords (s.opRequester o) (s.slotView t.core slot).image
        { imageAt := image, descAt := desc, load := load, slot := slot, seed := seed } (fun l n => s.mem.getsUnder 0 l n)
      (s.start (o.withRun r)).1
    | .coll offset seqr block cap flag => s.releaseColl gid g t offset seqr block cap flag
    | .cancelCopy pair => (match s.boundTo gid pair with | some id => s.cancelNow id | none => s)
    | .cancelColl h => s.cancelProgram (t.ctx.part * 65536 + h)

/-- Whether a command locks ranges, so that it keeps its place in the wait of its group's commands (R130). -/
def Command.locks (c : Command) : Bool := match c with | .copy _ _ _ _ _ | .chain _ _ _ _ _ _ _ _ => true | _ => false

/-- Whether earlier commands of a group that lock ranges wait for their release: those of other convoys, of the trapping one in trap
mode, whose lanes alone can go on (R130, R308). -/
def Group.waitsBefore (g : Group) (mask : List Nat) : Bool :=
  (((g.cmdWait.filter (fun w => !g.trapMode || w.1.any (fun i => (g.lane i).tmeld.conv))).takeWhile (fun w => !w.1.any mask.contains))).any
    (fun w => w.2.cmd.locks)

/-- A command that has passed its checks: deferred in an epoch while the DLB has room; otherwise released, or its lanes park
until it can be, commands of a group that lock ranges in program order (R126, R130, R302). -/
def Issue.give (x : Issue) (d : Deferred) (p : Park) : State :=
  match x.g.epoch with
  | some e =>
    if 8 ≤ x.g.release.length + e.dlb.length then x.stall
    else x.commit { pend := true, group := fun g => { g with epoch := g.epoch.map (fun e => { e with dlb := e.dlb ++ [d] }) } }
  | none =>
    if x.s.canRelease x.gid d ∧ (d.cmd.locks && x.g.waitsBefore x.mask) = false then (x.commit { pend := true }).releaseCmd x.gid d
    else
      let listed := x.g.cmdWait.any (fun w => w.1.any x.mask.contains)
      x.s.onGroup x.gid (fun g => { g.parkLanes x.mask p with cmdWait := if listed then g.cmdWait else g.cmdWait ++ [(x.mask, d)] })

/-- The entries of a committed epoch released in program order, as far as they can be (R117, R126). -/
def State.releaseFrom (s : State) (gid fuel : Nat) : State :=
  match fuel with
  | 0 => s
  | k + 1 =>
    match look s.groups gid with
    | none => s
    | some g =>
      match g.release with
      | [] => s
      | d :: rest =>
        if s.canRelease gid d ∧ (d.cmd.locks && g.waitsBefore []) = false then ((s.setGroup gid { g with release := rest }).releaseCmd gid d).releaseFrom gid k else s

/-- Every releasable entry of a group's committed epoch. -/
def State.releaseGroup (s : State) (gid : Nat) : State := s.releaseFrom gid 8

/-! ### FORK (R302) -/

/-- What a FORK asks of its block: alignments, the capability word's zero bits, then each named address and capability. -/
def Issue.forkRefused (x : Issue) (k : Fin 64) (q : Nat) : Option Refused :=
  let a (n : Nat) : Nat := x.block k n
  let cap (n : Nat) : Cap := x.g.cap (a 3 / 2 ^ (4 * n) % 16)
  let named (n : Nat) : Bool := (seqsIn q).contains n
  let rq := x.engineReq false
  match badReg k [named 0 && a 0 % 8 != 0, named 1 && a 1 % 4 != 0, named 2 && a 2 % 4 != 0, a 3 / 2 ^ 12 != 0] with
  | some i => some (.field i)
  | none =>
    (seqsIn q).findSome? (fun n =>
      match asRefused (x.s.scratchAt rq (a n) (if n = 0 then 8 else 4)) with
      | some r => some r
      | none => asRefused (x.s.checkCap rq (cap n) permENG 0 0))

/-- FORK. -/
def execFork (k : Fin 64) (q w : Fin 8) (s : State) : Out :=
  issue { sr := (seqsIn q).map (fun n => 4 * k.val + n) ++ [4 * k.val + 3], stall := w, rule := .forbidden, mem := true } (fun x =>
    match x.forkRefused k q with
    | some r => x.refuse x.s r
    | none =>
      let a (n : Nat) : Nat := x.block k n
      let cap (n : Nat) : Cap := x.g.cap (a 3 / 2 ^ (4 * n) % 16)
      x.give { cmd := .fork q (a 0) (a 1) (a 2) (cap 0) (cap 1) (cap 2) x.g.arch.srseed, pc := x.pc } (.fork q)) s

/-! ### COPY (R341, R342) -/

/-- The descriptor that words 0 to 5 of a COPY block give. -/
def copyDesc (w : Nat → Nat) : CopyDesc :=
  { kind := w 0 % 4, ssp := w 0 / 4 % 2 == 1, dsp := w 0 / 8 % 2 == 1, rows := w 0 / 2 ^ 8 % 2 ^ 16, soff := w 1, doff := w 2
    rbytes := w 3, sstride := w 4, dstride := w 5 }

/-- Which of the words 0 to 5 are out of range; bits 7 to 4 of word 0 are a program's (R345). -/
def copyBad (w : Nat → Nat) (program : Bool) : List Bool :=
  let d := copyDesc w
  [w 0 / 2 ^ 24 != 0 || d.rows == 0 || (d.kind == 0 && d.rows != 1) || (!program && w 0 / 16 % 16 != 0),
   d.soff % 16 != 0, d.doff % 16 != 0, d.rbytes % 16 != 0 || decide (d.rbytes < 16 ∨ 2 ^ 24 < d.rbytes),
   d.kind != 0 && d.sstride % (if d.kind = 2 then 4 else 16) != 0,
   d.kind != 0 && d.dstride % (if d.kind = 3 then 4 else 16) != 0]

/-- The range of a side of a copy, and its check where it is known before the copy runs (R47, R54, R128, R342). -/
def State.copySide (s : State) (rq : Requester) (d : CopyDesc) (cap : Cap) (dst : Bool) : Except Fail (List Range) :=
  let perm := permENG + (if dst then permW else permR)
  let off := if dst then d.doff else d.soff
  if if dst then d.dsp else d.ssp then
    if d.indexed dst then
      let t := lookD s.teams rq.team {}
      let lo := min (off % 2 ^ 18) t.ssize
      (match s.scratchAt rq (off - off % 2 ^ 18) 0 with
       | .ok loc => .ok [{ scratch := true, base := loc + lo, len := t.ssize - lo }]
       | .error _ => .ok [])
    else
      (s.scratchPieces rq ((List.range d.rows).map (fun r => (d.row dst r 0, d.rbytes)))).map (rangeOf true)
  else if d.indexed dst then
    (s.checkCap rq cap perm 0 0).map (fun g => [{ scratch := false, base := g, len := cap.length }])
  else
    (s.memoryPieces rq cap dst [(d.row dst 0 0, d.rbytes), (d.row dst (d.rows - 1) 0, d.rbytes)]).map (rangeOf false)

/-- The source and destination ranges of a copy: source, index table, destination. -/
def State.copyRanges (s : State) (rq : Requester) (d : CopyDesc) (src dst : Cap) : Except Fail (List Range × List Range) :=
  let table : Except Fail (List Range) :=
    if d.kind ≤ 1 then .ok []
    else (s.scratchPieces rq [(d.table, 4 * d.rows)]).map (rangeOf true)
  match s.copySide rq d src false, table, s.copySide rq d dst true with
  | .ok a, .ok b, .ok c => .ok (a ++ b, c)
  | .error f, _, _ => .error f
  | _, .error f, _ => .error f
  | _, _, .error f => .error f

/-- COPY. -/
def execCopy (k : Fin 64) (a b f : Fin 16) (w : Fin 8) (s : State) : Out :=
  issue { sr := blockRegs k 6, sw := [4 * k.val + 6, 4 * k.val + 7], flag := f, stall := w, mem := true } (fun x =>
    match badReg k (copyBad (x.block k) false) with
    | some i => x.refuse x.s (.field i)
    | none =>
      let d := copyDesc (x.block k)
      match x.s.copyRanges (x.engineReq false) d (x.g.cap a) (x.g.cap b) with
      | .error e => x.refuse x.s (.check e)
      | .ok (srcs, dsts) =>
        x.give { cmd := .copy d (4 * k.val + 6) (x.g.cap a) (x.g.cap b) f, srcs := srcs, dsts := dsts, pc := x.pc } .release) s

/-- COPYQ (R344): a new estimate for a bound copy, whose binding continues; CLOCK for an unbound pair. With XF 63 its pair would lie past
s255: there is nothing to write (DESIGN CHOICE). -/
def execCopyq (k : Fin 64) (w : Fin 8) (s : State) : Out :=
  let pair := 4 * k.val + 6
  let there := decide (k ≠ 63)
  issue { sw := if there then [pair, pair + 1] else [], stall := w, mem := true } (fun x =>
    let now := x.s.partClock x.team.ctx.part
    let est :=
      match x.boundCopy pair with
      | none => now
      | some id =>
        let o := lookD x.s.ops id { core := 0, team := 0, gid := 0, flag := 15, kind := .hold 0, ctx := {} }
        let p := (x.s.core o.core).predictor o.cls
        let m := x.s.moved id o
        now + p.ahead (if m = 0 then p.lat else 0) (o.bytes - m + x.s.queued o.core o.cls id)
    let e : DWord := BitVec.ofNat 64 est
    (x.commit { sregs := if there then [(pair, e.truncate 32), (pair + 1, (e >>> 32).truncate 32)] else []
                group := fun g => { g with arch := { g.arch with bound := x.g.arch.bound } } }
      |>.noteMoved (fun i q => (x.boundCopy pair).any (fun id =>
          let o := lookD x.s.ops id { core := 0, team := 0, gid := 0, flag := 15, kind := .hold 0, ctx := {} }
          i == id || (decide (i < id) && q.ahead o.core o.cls)))).bump) s

/-! ### CHAIN (R335) -/

/-- What a slot will hold for a CHAIN of a group: the image that the last of its deferred commands loads there, otherwise what the
slot will hold for the next run. -/
def Issue.slotImage (x : Issue) (rq : Requester) (slot : Nat) : Image :=
  match (x.g.deferred.filterMap (fun d =>
      match d.cmd with | .chain image _ true n _ _ _ _ => if n = slot then some image else none | _ => none)).getLast? with
  | some a => x.s.readImage rq a (fun l n => x.bytesAt 0 l n)
  | none => (x.s.slotView x.team.core slot).image

/-- CHAIN. -/
def execChain (k : Fin 64) (a b f : Fin 16) (w : Fin 8) (s : State) : Out :=
  issue { sr := blockRegs k 4, flag := f, stall := w, mem := true } (fun x =>
    let load := x.block k 2 / 8 % 2 == 1
    match badReg k [load && x.block k 0 % 4 != 0, x.block k 1 % 16 != 0, x.block k 2 / 16 != 0] with
    | some i => x.refuse x.s (.field i)
    | none =>
      let rq := x.engineReq false
      let r := x.s.chainWords rq (x.slotImage rq (x.block k 2 % 8))
        { imageAt := x.block k 0, descAt := x.block k 1, load := load, slot := x.block k 2 % 8, seed := x.sreg 3 (4 * k.val + 3) }
        (fun l n => x.bytesAt 0 l n)
      match x.s.chainRanges rq (x.g.cap a) (x.g.cap b) r r.imageLen with
      | .error e => x.refuse x.s (.check e)
      | .ok (srcs, dsts) =>
        x.give { cmd := .chain r.imageAt r.descAt load r.slot r.seed (x.g.cap a) (x.g.cap b) f, srcs := srcs, dsts := dsts
                 pc := x.pc } .release) s

/-! ### COLL (R346) -/

/-- COLL. -/
def execColl (k : Fin 64) (a f : Fin 16) (w : Fin 8) (s : State) : Out :=
  issue { sr := blockRegs k 3, sw := [4 * k.val + 3], flag := f, stall := w, mem := true } (fun x =>
    match badReg k [x.block k 0 % 32 != 0, x.block k 1 / 2 ^ 25 != 0, x.block k 2 / 4 != 0] with
    | some i => x.refuse x.s (.field i)
    | none =>
      match x.s.checkCap (x.engineReq true) (x.g.cap a) (permENG + permR) 0 0 with
      | .error e => x.refuse x.s (.check e)
      | .ok _ =>
        x.give { cmd := .coll (x.block k 0 + x.block k 1 * 2 ^ 32) (x.block k 2) (4 * k.val + 3) (x.g.cap a) f, pc := x.pc }
          .release) s

/-! ### ECANCEL and ESTAT (R319, R320) -/

/-- Whether a query word is out of range: WHAT not accepted, bits 7 to 3, an odd PAIR. -/
def queryBad (q : Nat) (accepted : List Nat) : Bool :=
  !accepted.contains (q % 8) || q / 8 % 32 != 0 || (q % 8 == 0 && q / 256 % 2 != 0)

/-- ECANCEL. -/
def execEcancel (k : Fin 64) (w : Fin 8) (s : State) : Out :=
  issue { sr := [4 * k.val], stall := w, mem := true } (fun x =>
    let q := x.block k 0
    if queryBad q [0, 4] then x.refuse x.s (.field (4 * k.val))
    else x.give { cmd := if q % 8 = 0 then .cancelCopy (q / 256 % 256) else .cancelColl (q / 2 ^ 16), pc := x.pc } .release) s

/-- Whether a deferred command is the one a query names, or forks the sequencer it names (R319). -/
def Command.isAsked (c : Command) (q : Nat) : Bool :=
  match c with
  | .copy _ pair _ _ _ => q % 8 == 0 && pair == q / 256 % 256
  | .fork n _ _ _ _ _ _ _ => decide (1 ≤ q % 8 ∧ q % 8 ≤ 3) && (seqsIn n).contains (q % 8 - 1)
  | _ => false

/-- The status word (R319). -/
def ProgStatus.word (p : ProgStatus) : Word :=
  BitVec.ofNat 32 (p.state + p.sticky.toNat * 2 ^ 12 + (if p.state = 4 then p.cause % 64 * 2 ^ 16 else 0))

/-- The rows that the run under way of a team's chain program has completed (R319). -/
def State.rowsUnderWay (s : State) (tid : Nat) : Nat :=
  s.ops.foldl (fun n e =>
    match e.2.kind with | .chain r => if e.2.team = tid ∧ e.2.program then n + r.rowsDone else n | _ => n) 0

/-- The status a query finds. -/
def Issue.asked (x : Issue) (q : Nat) : ProgStatus :=
  match q % 8 with
  | 0 =>
    let p := lookD x.team.copies (x.gid * 256 + q / 256 % 256) {}
    (match x.s.pairOp x.gid (q / 256 % 256) with | some (id, o) => { p with state := 2, progress := x.s.moved id o } | none => p)
  | 4 => (match look x.s.colls (x.team.ctx.part * 65536 + q / 2 ^ 16) with | some c => c.status | none => {})
  | n =>
    let p := x.team.seq (n - 1)
    if n = 2 then { p with progress := p.progress + x.s.rowsUnderWay x.g.team } else p

/-- ESTAT. -/
def execEstat (k : Fin 64) (w : Fin 8) (s : State) : Out :=
  issue { sr := [4 * k.val], sw := span (4 * k.val + 1) 3, stall := w, mem := true } (fun x =>
    let q := x.block k 0
    if queryBad q [0, 1, 2, 3, 4] then x.refuse x.s (.field (4 * k.val))
    else if x.g.deferred.any (fun d => d.cmd.isAsked q) then x.stall
    else
      let p := x.asked q
      (x.commit { sregs := [(4 * k.val + 1, p.word), (4 * k.val + 2, BitVec.ofNat 32 p.progress),
                            (4 * k.val + 3, BitVec.ofNat 32 (p.progress / 2 ^ 32))] }
        |>.noteMoved (fun id _ => q % 8 == 0 && (x.s.pairOp x.gid (q / 256 % 256)).any (fun e => e.1 == id))).bump) s

/-! ### POST (R321) -/

/-- Whether every engine command a group has issued has completed, and every program it has forked has ended. -/
def State.quiet (s : State) (gid : Nat) (t : Team) : Bool :=
  !s.ops.any (fun e => e.2.gid == gid && !e.2.program) && !s.colls.any (fun e => e.2.gid == gid && !e.2.ended) &&
    !t.seqs.any (fun p => p.forker == gid && (p.state == 1 || p.state == 2))

/-- The store of POST: through the process's two stages, with no capability. -/
def Issue.postReq (x : Issue) (gva : Nat) (l : List Byte) : Except Fail (Req × Option Found) :=
  let denied : Except Fail (Req × Option Found) := .error (.cause .capPermission (BitVec.ofNat 64 gva) (some x.requester.key))
  match translateAt x.s x.requester.place x.team.ctx .write gva 0 with
  | .error f => if f.reason = rPermission then denied else .error (.page f gva)
  | .ok f =>
    if f.x.kind = .peer ∨ f.x.kind = .notify ∨ (pageRule .write gva 4 f.x).isSome then denied
    else if (x.s.refuser { ctx := x.team.ctx, gva := gva, size := 4, x := f.x } true).isSome then
      .error (.cause .rangeLock (BitVec.ofNat 64 gva) none)
    else .ok ({ lane := x.low, unit := x.low, gva := gva, loc := outPlace f.x, size := 4, key := x.s.serialOf f.x.key
                x := some f.x, what := .store l }, some f)

/-- A store performed as one access: in the core's L1, or at the NMU of a memory-side page (R82). -/
def Issue.storeOne (x : Issue) (r : Req) (l : List Byte) : State × Bool :=
  let a := x.s.gotten x.team.core [r]
  if a.2 = false then a
  else if r.drains then (a.1.perform (some x.gid) r.key (cellsAt r.loc l), true)
  else (a.1.performCells x.gid x.team.core ((cellsAt r.loc l).map (fun c => (r.key, c.1, c.2))), true)

/-- POST. -/
def execPost (k : Fin 64) (f : Fin 16) (w : Fin 8) (s : State) : Out :=
  issue { sr := [4 * k.val], flag := f, stall := w, drain := true, mem := true } (fun x =>
    if x.s.quiet x.gid x.team = false then x.park .engines
    else
      let l := toBytes 4 (x.block k 0)
      match x.postReq (x.launch.result + 4) l with
      | .error e => x.failWhole x.s .write e
      | .ok (r, fd) =>
        let (s1, done) := x.storeOne r l
        if done then x.commitIn (s1.installAll fd.toList) {} else x.awaiting s1 [r]) s

/-! ### Copy programs (R345) -/

/-- The capability, team and operation of a copy program's descriptor. -/
def State.programOp (s : State) (core : Nat) (e : ForkEntry) (kind : OpKind) : EngineOp :=
  { core := core, team := e.team, gid := 0, flag := 15, kind := kind, ctx := (lookD s.teams e.team {}).ctx, capA := e.cap
    capB := e.cap, program := true }

/-- The next entry of a core's fork queue taken up, where its sequencer is idle and not halted (R172, R173). -/
def State.startSeq (s : State) (core n : Nat) : State :=
  let c := s.core core
  let take (e : ForkEntry) (c1 : Core) : State :=
    (s.onCore core (fun _ => c1)).onTeam e.team (fun t => t.onSeq n (fun p => { p with state := 2 }))
  if n = 1 then
    match c.chain, c.chainQ, c.chainHalted with
    | none, e :: r, false => take e { c with chain := some { entry := e }, chainQ := r }
    | _, _, _ => s
  else
    match c.copy, c.copyQ, c.copyHalted with
    | none, e :: r, false => take e { c with copy := some { entry := e }, copyQ := r }
    | _, _, _ => s

/-- A descriptor of a copy program reached: fetched, checked, and released once its conditions hold. -/
def State.copyItem (s : State) (core : Nat) (r : SeqRun) : State :=
  let e := r.entry
  let tid := e.team
  let o := s.programOp core e (.copy {})
  let rq := s.opRequester o
  let stop (f : Fail) : State := s.faultProgram tid 2 (f.hitch false) e.cap
  let bad : State := s.faultProgram tid 2 (.fault eBadField none) e.cap
  match s.scratchRead rq ((e.addr + 32 * r.index) % 2 ^ 32) 32 with
  | .error f => stop f
  | .ok loc =>
    let ws := wordsOf (s.mem.getsUnder 0 loc 32) 8
    let w (n : Nat) : Nat := ((ws[n]?).getD 0).toNat
    let flag (n : Nat) : Bool := w 0 / 2 ^ n % 2 == 1
    let sig : Option Refused := if flag 4 then (if w 6 % 4 ≠ 0 then some (.field 0) else asRefused (s.scratchAt rq (w 6) 4)) else none
    match sig with
    | some (.field _) => bad
    | some (.check f) => stop f
    | none =>
      if flag 7 && decide ((lookD s.teams tid {}).mlcount < w 7) then s
      else if flag 6 && s.copiesLeft tid then s
      else if (copyBad w true).any id then bad
      else
        let d := copyDesc w
        match s.copyRanges rq d e.cap e.cap with
        | .error f => stop f
        | .ok (srcs, dsts) =>
          if s.blocked o.ctx srcs dsts (fun _ => false) ∨ s.hasEntry core true = false then s
          else
            let n := d.rows * d.rbytes
            let cls := s.classOf o.ctx d e.cap e.cap
            let p := (s.core core).predictor cls
            let now := s.partClock o.ctx.part
            let (s1, _) := s.start { o with
              kind := .copy d, srcs := srcs, dsts := dsts, bytes := n, cls := cls, released := now
              promise := now + p.ahead p.lat (s.queued core cls s.nextId + n)
              signal := if flag 4 then some (w 6) else none, ordered := flag 6 }
            (s1.noteMoved (fun i q => decide (i < s.nextId) && q.ahead core cls)).bump.onCore core (fun c => { c with copy := some { r with index := r.index + 1, last := flag 5 } })

/-- DESCRIPTOR_RELEASE: a core's copy sequencer comes to its next descriptor (R345). -/
def execDescriptorRelease (core : Nat) (s : State) : Out :=
  let s1 := s.startSeq core 2
  match (s1.core core).copy with
  | some r => .next (if r.last ∨ (s1.core core).copyHalted ∨ s1.teamRuns r.entry.team = false then s1 else s1.copyItem core r)
  | none => .next s1

/-! ### Chain programs (R340) -/

/-- Whether a run of a chain program is under way. -/
def State.runsLeft (s : State) (tid : Nat) : Bool :=
  s.ops.any (fun e => e.2.team == tid && e.2.program && (match e.2.kind with | .chain _ => true | _ => false))

/-- An entry of a chain program reached, the one before it having completed. -/
def State.chainItem (s : State) (core : Nat) (q : SeqRun) : State :=
  let e := q.entry
  let o := s.programOp core e (.chain {})
  let rq := s.opRequester o
  let stop (f : Fail) : State := s.faultProgram e.team 1 (f.hitch false) e.cap
  match s.scratchRead rq ((e.addr + 16 * q.index) % 2 ^ 32) 16 with
  | .error f => stop f
  | .ok loc =>
    let ws := wordsOf (s.mem.getsUnder 0 loc 16) 4
    let w (n : Nat) : Nat := ((ws[n]?).getD 0).toNat
    let load := w 2 / 8 % 2 == 1
    if (load && w 0 % 4 != 0) || w 1 % 16 != 0 || w 2 / 16 % 2 ^ 27 != 0 then s.faultProgram e.team 1 (.fault eBadField none) e.cap
    else
      let r := s.chainWords rq (s.slotView core (w 2 % 8)).image
        { imageAt := w 0, descAt := w 1, load := load, slot := w 2 % 8, seed := BitVec.ofNat 32 (w 3) } (fun l n => s.mem.getsUnder 0 l n)
      match s.chainRanges rq e.cap e.cap r r.imageLen with
      | .error f => stop f
      | .ok (srcs, dsts) =>
        if s.blocked o.ctx srcs dsts (fun _ => false) ∨ s.hasEntry core false = false then s
        else
          ((s.start { o.withRun r with srcs := srcs, dsts := dsts }).1).onCore core (fun c =>
            { c with chain := some { q with index := q.index + 1, last := decide (w 2 / 2 ^ 31 = 1) } })

/-- A core's chain sequencer comes to its next entry (R340). -/
def State.chainSequencer (s : State) (core : Nat) : State :=
  let s1 := s.startSeq core 1
  match (s1.core core).chain with
  | some q =>
    if q.last ∨ s1.runsLeft q.entry.team ∨ (s1.core core).chainHalted ∨ s1.teamRuns q.entry.team = false then s1 else s1.chainItem core q
  | none => s1

end Sys2Proof.Machine
end

