-- ==== Sys2Proof/Machine/FaultQ.lean ====
section
/-! DEFINITION. Responses to fault records (R397, R398) and room in the fault queue (R396). -/

namespace Sys2Proof.Machine

/-- Whether a response takes effect on a parked party now: it is on a core (R398), and a group is neither in outrider mode nor in a
drained access's shadow, where it takes no trap (R123, R391). -/
def State.partyHere (s : State) (p : Party) : Bool :=
  match p with
  | .lanes gid _ => (match look s.groups gid with | some g => s.teamRuns g.team && !g.holdsTrap | none => true)
  | .op id _ _ _ => (match look s.ops id with | some o => s.opRuns o | none => true)

/-- A response reaches one party (R397): RETRY resumes it; DENY traps a group, or ends an operation with its cause. -/
def State.answerParty (s : State) (retry : Bool) (p : Party) : State :=
  match p with
  | .lanes gid t =>
    let s1 := s.outside gid (fun i l => if t.convoy.contains i ∧ l.park = some .record then { l with park := none } else l)
    if retry then s1 else s1.takeTrap gid t
  | .op id c gva w =>
    match look s.ops id with
    | none => s
    | some o =>
      if o.state = .parked then
        { s with ops := put s.ops id { o with state := .live, broken := if retry then none else some { gva := gva, write := w, code := c.code, addr := gva } } }
      else s

/-- Answered records: the parties that are on a core receive the response, the others keep it (R398). -/
def State.settleAnswers (s : State) (p : Nat) : State :=
  let q := s.part p
  let s1 := s.onPart p (fun q => { q with faults := q.faults.filterMap (fun r =>
    match r.answer with
    | none => some r
    | some _ =>
      let rest := r.parties.filter (fun x => !s.partyHere x)
      if rest.isEmpty then none else some { r with parties := rest }) })
  q.faults.foldl (fun t r =>
    match r.answer with
    | some b => (r.parties.filter s.partyHere).foldl (fun u x => u.answerParty b x) t
    | none => t) s1

/-- The answers that a group's lanes have still to receive taken up, where they can be. -/
def State.takeAnswers (s : State) (gid : Nat) : State :=
  match look s.groups gid with
  | none => s
  | some g =>
    let p := (s.teamOf g).ctx.part
    let mine (r : FaultRec) : Bool := r.answer.isSome && r.parties.any (fun y => match y with | .lanes k _ => k == gid | _ => false)
    if (s.part p).faults.any mine then s.settleAnswers p else s

/-- A write to FQRESP (R395, R397): the unresolved record with the ID is answered; through the runtime's mapping only a
stage-1 record. -/
def State.respond (s : State) (p id : Nat) (retry runtime : Bool) : State :=
  let hit (r : FaultRec) : Bool := r.id == some id && r.answer.isNone && !(runtime && r.fault.stage2)
  (s.onPart p (fun q => { q with faults := q.faults.map (fun r => if hit r then { r with answer := some retry } else r) })).settleAnswers p

/-- FQRESP_RETRY: the parties parked on a record resume (R397). -/
def execFqrespRetry (p id : Nat) (runtime : Bool) (s : State) : Out := .next (s.respond p id true runtime)

/-- FQRESP_DENY: the parties parked on a record take their page fault (R397). -/
def execFqrespDeny (p id : Nat) (runtime : Bool) (s : State) : Out := .next (s.respond p id false runtime)

/-- FQTAIL_WRITE: records consumed; those held are written as room frees (R396). -/
def execFqtailWrite (p : Nat) (tail : Word) (s : State) : Out :=
  .next ((s.onPart p (fun q => { q with fqTail := tail })).writeRecords p 512)

end Sys2Proof.Machine
end

