-- ==== Sys2Proof/Machine/Hbm.lean ====
section
/-! DEFINITION. The HBM channels as requesters see them (R77 to R81, R465): responses, refresh, power states; channel
retirement (R95 to R98); the end of a hot-page epoch (R101). None of them changes a value (R104). -/

namespace Sys2Proof.Machine

/-! ### Requests of a channel -/

/-- A channel as it stands. -/
def State.chan (s : State) (ch : Nat) : Channel := lookD s.channels ch {}

/-- A channel changed. -/
def State.onChan (s : State) (ch : Nat) (f : Channel → Channel) : State := { s with channels := put s.channels ch (f (s.chan ch)) }

/-- The bank of a request, counted over both pseudo-channels: which bank a block lies in no rule states (R76). -/
def ChanReq.bank (r : ChanReq) : Nat := 2 * Config.bankOf (r.dpa / 2048) + pseudoOf r.dpa

/-- Whether a request can be taken up: it is not waiting for a hint, and its pseudo-channel is awake (R77, R80). -/
def Channel.ready (c : Channel) (r : ChanReq) : Bool := r.notBefore == 0 && lookD c.power (pseudoOf r.dpa) .awake == .awake

/-- Whether a bank is under refresh (R78). -/
def Channel.refreshing (c : Channel) (clock bank : Nat) : Bool := decide (clock < lookD c.refresh bank 0)

/-- Granules, by number in the device, that a request names. -/
def ChanReq.granules (r : ChanReq) : List Nat :=
  ((List.range 128).filter (fun i => r.fill.getLsbD i)).map (fun i => r.dpa / 2048 * 128 + i)

/-- Those of them that are uncorrectable. -/
def State.badOf (s : State) (r : ChanReq) : List Nat := r.granules.filter (fun g => s.mem.bad.contains g)

/-- Whether a write stays at its slice while its channel is being retired (R98). -/
def State.writeHeld (s : State) (r : ChanReq) : Bool := r.isWrite && s.retiring r.dpa

/-- Requests each at the head of its bank's queue: no earlier one waits for that bank (R78, R80), those apart that a retirement
holds. -/
def bankHeads (l : List ChanReq) : List ChanReq :=
  (l.foldl (fun (a : List ChanReq × List Nat) r => if a.2.contains r.bank then a else (a.1 ++ [r], r.bank :: a.2)) ([], [])).1

/-- The requests of a channel at the heads of its bank queues. -/
def State.heads (s : State) (ch : Nat) : List ChanReq :=
  match (s.chan ch).requests.filter (fun r => !s.writeHeld r) with
  | [r] => [r]
  | l => bankHeads l

/-- The first of them that can be taken up, whose bank is not under refresh, and that meets a test. -/
def State.nextReq (s : State) (ch : Nat) (test : ChanReq → Bool) : Option ChanReq :=
  let c := s.chan ch
  (s.heads ch).find? (fun r => c.ready r && test r && (c.refresh.isEmpty || !c.refreshing s.clock r.bank))

/-- A request answered and gone. -/
def Channel.drop (c : Channel) (r : ChanReq) : Channel := { c with requests := c.requests.filter (fun q => q.id != r.id) }

/-- Granules a channel returned put into the MSC line that waits for them (R72). -/
def State.mscFill (s : State) (r : ChanReq) (mask : BitVec 128) : State :=
  match look s.msc (r.dpa / 2048) with
  | some m => { s with msc := put s.msc (r.dpa / 2048) { m with valid := m.valid ||| mask } }
  | none => s

/-- CLOCK ticks of one hour. -/
def hourTicks : Nat := 3600 * 2400000000

/-- A corrected error of a channel: RASCNT0, and at 4,096 within one hour a CE_THRESHOLD event (R465). -/
def State.corrected (s : State) (ch : Nat) : State :=
  let c := s.chan ch
  let fresh := c.hour + hourTicks ≤ s.clock
  let n := if fresh then 1 else c.corrected + 1
  let s1 := (s.countError 0 false).onChan ch (fun c => { c with corrected := n, hour := if fresh then s.clock else c.hour })
  if n = 4096 then s1.waybill 0x0003 (BitVec.ofNat 64 ch) (BitVec.ofNat 64 n) else s1

/-- DATA: a channel returns a read; whether it had to correct an error is a free value. -/
def execData (ch : Nat) (s : State) : Out :=
  match s.nextReq ch (fun r => !r.isWrite && (s.badOf r).isEmpty) with
  | none => .next s
  | some r =>
    let s1 := (s.onChan ch (fun c => c.drop r)).mscFill r r.fill
    .next (if Config.choice s.free then (s1.corrected ch).bump else s1.bump)

/-- ACK: a channel has performed a write; in the copy phase of its retirement none is issued (R98). -/
def execAck (ch : Nat) (s : State) : Out :=
  match s.nextReq ch (fun r => r.isWrite) with
  | none => .next s
  | some r => .next (s.onChan ch (fun c => c.drop r))

/-- Whether a RETRY with a hint can stand for a request: its bank under refresh for that long, its pseudo-channel's exit, or
the copy phase of a retirement (R77, R78, R98). -/
def State.mayRetry (s : State) (ch : Nat) (r : ChanReq) (hint : Nat) : Bool :=
  let c := s.chan ch
  r.notBefore == 0 &&
    ((!c.refresh.isEmpty && (s.heads ch).contains r && c.refreshing s.clock r.bank && decide (lookD c.refresh r.bank 0 = s.clock + hint)) ||
      (match lookD c.power (pseudoOf r.dpa) .awake with | .exiting t => decide (s.clock < t ∧ t = s.clock + hint) | _ => false) ||
      (s.retiring r.dpa && r.isWrite && decide (hint < 65536)))

/-- RETRY: the slice keeps the request, to be reissued no earlier than the hint. -/
def execRetry (ch hint : Nat) (s : State) : Out :=
  match (s.chan ch).requests.find? (fun r => s.mayRetry ch r hint) with
  | none => .next s
  | some r => .next (s.onChan ch (fun c => { c with
      requests := c.requests.map (fun q => if q.id = r.id then { q with notBefore := s.clock + max hint 1 } else q) }))

/-- RETRY_REISSUE: a request whose hint has passed is issued again. -/
def execRetryReissue (ch : Nat) (s : State) : Out :=
  match (s.chan ch).requests.find? (fun r => decide (0 < r.notBefore ∧ r.notBefore ≤ s.clock)) with
  | none => .next s
  | some r => .next (s.onChan ch (fun c => { c with
      requests := c.requests.map (fun q => if q.id = r.id then { q with notBefore := 0 } else q) }))

/-- ERROR: a read that meets uncorrectable granules returns the others. Those outside the line that was asked for are
recorded here; an access that reads the asked line records its own (R81). -/
def execError (ch : Nat) (s : State) : Out :=
  match s.nextReq ch (fun r => !r.isWrite && !(s.badOf r).isEmpty) with
  | none => .next s
  | some r =>
    let bad := s.badOf r
    let mask : BitVec 128 := r.fill &&& ~~~(bad.foldl (fun m g => m ||| (1#128 <<< (g % 128))) 0)
    let s1 := (s.onChan ch (fun c => c.drop r)).mscFill r mask
    .next (s1.recordGranules (bad.filter (fun g => g / 8 != r.dpa / 128)) none 0)

/-- REFRESH: a bank is refreshed for at most 1,024 cycles (R78). -/
def execRefresh (ch bank cycles : Nat) (s : State) : Out :=
  if cycles ≤ 1024 ∧ ch < 384 then .next (s.onChan ch (fun c => { c with refresh := put c.refresh bank (s.clock + cycles) })) else .next s

/-! ### Power states (R79, R80) -/

/-- The idle times of a pseudo-channel: PDIDLE and SRIDLE. -/
def Channel.limit (c : Channel) (p : Nat) : Nat × Nat := lookD c.limits p (0x40, 0x100)

/-- Whether a pseudo-channel has had no request for so many cycles. -/
def Channel.idleFor (c : Channel) (clock p n : Nat) : Bool :=
  !c.requests.any (fun r => pseudoOf r.dpa == p) && decide (lookD c.lastUse p 0 + n ≤ clock)

/-- The pseudo-channels of a channel that a rule takes from one power state to the next. -/
def Channel.repower (c : Channel) (f : Nat → PowerState → PowerState) : Channel :=
  { c with power := [0, 1].foldl (fun t p =>
      let w := lookD t p .awake
      if f p w = w then t else put t p (f p w)) c.power }

/-- POWER_DOWN: the idle pseudo-channels of a channel enter power-down. -/
def execPowerDown (ch : Nat) (s : State) : Out :=
  .next (s.onChan ch (fun c => c.repower (fun p w =>
    let n := (c.limit p).1
    if w = .awake ∧ n ≠ 0 ∧ c.idleFor s.clock p (16 * n) then .powerDown else w)))

/-- SELF_REFRESH: pseudo-channels in power-down that have been idle longer enter self-refresh. -/
def execSelfRefresh (ch : Nat) (s : State) : Out :=
  .next (s.onChan ch (fun c => c.repower (fun p w =>
    let n := c.limit p
    if w = .powerDown ∧ n.1 ≠ 0 ∧ n.2 ≠ 0 ∧ c.idleFor s.clock p (1024 * n.2) then .selfRefresh else w)))

/-- POWER_STATE_EXIT: an exit completes, and the requests held for it can be issued. -/
def execPowerStateExit (ch : Nat) (s : State) : Out :=
  .next (s.onChan ch (fun c => c.repower (fun _ w =>
    match w with
    | .exiting t => if t ≤ s.clock then .awake else w
    | _ => w)))

/-! ### Retirement (R95 to R98) -/

/-- A GO for a channel (R96): a retirement starts, or STATUS says why not. -/
def State.retireGo (s : State) (chan : Nat) : State :=
  let r := { s.retire with field := chan }
  if r.busy then { s with retire := { s.retire with status := 3 } }
  else if 383 < chan then { s with retire := { r with status := 2 } }
  else if (look s.retired (chan / 32)).isSome then { s with retire := { r with status := 1 } }
  else { s with retire := { r with busy := true, phase := 1, chan := chan } }

/-- CHRETIRE_GO. -/
def execChretireGo (chan : Nat) (s : State) : Out := .next (s.retireGo chan)

/-- The requests still held for a channel issued under the new map (R98), where a sleeping pseudo-channel starts its exit (R80). -/
def State.reissueHeld (s : State) (chan : Nat) : State :=
  let rs := (s.chan chan).requests
  rs.foldl (fun t r => (t.chanUse r.dpa).onChan (t.backChannel r.dpa) (fun c => { c with requests := c.requests ++ [r] }))
    (s.onChan chan (fun c => { c with requests := [] }))

/-- RETIREMENT_SWITCH: after the last block, the new map applies and is recorded for every later cold reset (R97, R98). -/
def execRetirementSwitch (chan : Nat) (s : State) : Out :=
  if s.retire.busy ∧ s.retire.phase = 1 ∧ s.retire.chan = chan then
    .next ((({ s with retired := put s.retired (chan / 32) (chan % 32)
                      retire := { s.retire with busy := false, phase := 0, status := 0 } } : State).reissueHeld chan).waybill
                        0x0031 (BitVec.ofNat 64 chan) 0)
  else .next s

/-! ### Hot pages -/

/-- CLOCK ticks of an epoch: EPOCH × 1,024 (R100). -/
def HotRegs.length (r : HotRegs) : Nat := r.epoch * 1024

/-- EPOCH_END: once an epoch's length has passed since the last, an I/O die's counts are halved, HOT clears below HOTLO, COLLIDE
clears (R100, R101, R102). -/
def execEpochEnd (die : Fin 2) (s : State) : Out :=
  if s.hotRegs.en ∧ lookD s.hotRegs.ended die.val 0 + s.hotRegs.length ≤ s.clock then
    .next { s with
      hotRegs := { s.hotRegs with ended := put s.hotRegs.ended die.val s.clock }
      hot := s.hot.map (fun e =>
        if e.1 % 2 = die.val then
          let n := e.2.count / 2
          (e.1, { e.2 with count := n, hot := e.2.hot && decide (s.hotRegs.hotlo ≤ n), collide := false })
        else e) }
  else .next s

end Sys2Proof.Machine
end

