-- ==== Sys2Proof/Machine/HostLink.lean ====
section
/-! DEFINITION. The host over CXL (R91, R92, R109, R420): snoops of the host directory, the host's answers, CXL.mem reads and
writes of device memory, back-invalidation. -/

namespace Sys2Proof.Machine

/-! ### Host directory (R91) -/

/-- Whether the host directory is the home of a line, or a host-owned line's copies came over CXL.cache. -/
def State.fromHost (s : State) (line : Nat) : Bool := isHostLine line || s.isHostOwned line

/-- SNPDATA: the host wants to share: an owner's data goes back, and the device keeps the line shared. The answer, and with it the
loss of ownership, follows the last acknowledgement (R91). -/
def execSnpdata (line : Nat) (s : State) : Out :=
  if s.fromHost line then
    let s1 := s.snoop line false
    .next (if s1.copiesGone line false then
        (match look s1.halves line with | some h => { s1 with halves := put s1.halves line (h &&& 3) } | none => s1)
      else s1)
  else .next s

/-- SNPINV: the host wants to write: every copy of the whole line is invalidated, and once the last acknowledgement is there the device
holds neither half (R91). -/
def execSnpinv (line : Nat) (s : State) : Out :=
  if s.fromHost line then
    let s1 := s.snoop line true
    .next (if s1.copiesGone line true then { s1 with halves := del s1.halves line } else s1)
  else .next s

/-- SNPCUR: the host reads the current value. -/
def execSnpcur (line : Nat) (s : State) : Out := if s.fromHost line then .next (s.snoop line false) else .next s

/-- The request a home has not yet been able to grant. -/
def State.pendingOwn (s : State) (line : Nat) : Bool := match (s.entry line).waiting with | r :: _ => r.own | [] => false

/-- CXL_CACHE_RESPONSE: the host gives one half, with its bytes where the host has written them since; once both are held, the
home grants. -/
def execCxlCacheResponse (line : Nat) (half : Fin 2) (bytes : List Byte) (s : State) : Out :=
  match look s.halves line with
  | none => .next s
  | some h =>
    let bit : BitVec 4 := 1#4 <<< half.val
    let own : BitVec 4 := if s.pendingOwn line then bit <<< 2 else 0
    let s1 := { s with halves := put s.halves line (h ||| bit ||| own) }
    let s2 := if bytes.length = 64 then s1.perform none 0 (cellsAt (128 * line + 64 * half.val) bytes) else s1
    .next ((s2.pump line ((s2.entry line).waiting.length + 1)).deliverLine line lineFuel)

/-! ### CXL.mem (R92, R420) -/

/-- The functions of a partition: those whose record in the function array carries their number. -/
def State.functionsOf (s : State) (p : Nat) : List Nat :=
  if (s.part p).word 2 = 0 then []
  else (List.range 1025).filter (fun f => bits (s.readDWord 0 (s.fnRecord p f + 8)) 0 11 == f)

/-- The LOCAL leaf that maps a DPA, with its function. -/
def State.leafOf (s : State) (dpa : Nat) : Option (Nat × DWord) :=
  s.parts.findSome? (fun e => (s.functionsOf e.1).findSome? (fun f =>
    ((gpaPieces s (s.fnCtx e.1 f) 0 (2 ^ 52)).find? (fun p => p.kind == .dram && decide (p.out ≤ dpa ∧ dpa < p.out + p.size))).map
      (fun p => (f, if p.leaf < dramSize then s.readDWord 0 p.leaf else 0))))

/-- Whether a leaf's pages are host-owned (R92). -/
def leafHostOwned (e : DWord) : Bool := e.getLsbD 10 || e.getLsbD 11

/-- A collision report for a page, unless it has one in this epoch (R102). -/
def State.collide (s : State) (dpa fn : Nat) (ppin : Bool) : State :=
  let k := 2 * (dpa / 2 ^ 16) + hotDie dpa none
  let h := lookD s.hot k {}
  if s.hotRegs.en = false ∨ h.collide then s
  else
    let h1 := { h with collide := true, fn := fn, ppin := ppin }
    ({ s with hot := put s.hot k h1 } : State).hotReport (dpa / 2 ^ 16) h1 true

/-- Room for a line in the host snoop filter of an I/O die, which holds 32,768 (R92): in a full one the host is asked to give up another
line, which one is free. -/
def State.filterFits (s : State) (line : Nat) : Bool :=
  s.snoopFilter.contains line ||
    decide ((s.snoopFilter.filter (fun l => hotDie (128 * l) none == hotDie (128 * line) none)).length < 32768)

/-- The line that must leave the filter asked back from the host. -/
def State.filterRoom (s : State) (line : Nat) : State :=
  let here := s.snoopFilter.filter (fun l => hotDie (128 * l) none == hotDie (128 * line) none)
  if here.any s.bisnp.contains then s
  else match here[(Config.word (2 ^ 68 + s.free)).toNat % here.length]? with | some v => { s with bisnp := s.bisnp ++ [v] } | none => s

/-- A host request at the MSC-slice home: refused where no LOCAL leaf maps it; on a device-owned page the copies are taken, as by
a party outside the device, and the host recorded as a holder; then `act`. What the host itself holds does not stand in its way. -/
def State.hostRequest (s : State) (dpa : Nat) (own : Bool) (act : State → State) : State :=
  let line := dpa / 128
  let half : BitVec 8 := if dpa / 64 % 2 = 0 then 0x0F else 0xF0
  match (if dpa < dramSize then s.leafOf dpa else none) with
  | none => (s.waybill 0x0014 (Config.dword s.free) 0).bump
  | some (fn, e) =>
    let ppin := e.getLsbD 9
    if leafHostOwned e then act ((s.mscRead line half).countHot dpa (hotDie dpa none) fn ppin)
    else
      let s1 := s.snoop line own
      if s1.copiesGone line own = false ∨ s1.governed line ∧ own then s1
      else if s1.filterFits line = false then s1.filterRoom line
      else
        let s2 := ((s1.mscRead line half).countHot dpa (hotDie dpa none) fn ppin).collide dpa fn ppin
        act { s2 with snoopFilter := insertNat s2.snoopFilter line }

/-- CXL_MEM_READ: a host read of device memory; an uncorrectable granule is returned as poison and recorded (R420). -/
def execCxlMemRead (dpa : Nat) (s : State) : Out :=
  .next (s.hostRequest dpa false (fun t =>
    if t.isBad (dpa / 64 * 64) 64 then t.recordBad (dpa / 64 * 64) 64 none 0 else t))

/-- CXL_MEM_WRITE: a host write of device memory: stored as it is, tags cleared (R39, R90). -/
def execCxlMemWrite (dpa : Nat) (bytes : List Byte) (s : State) : Out :=
  .next (s.hostRequest dpa true (fun t =>
    (t.perform none 0 (cellsAt (dpa / 64 * 64) (bytes.take 64))).mscWrite (dpa / 128) (if dpa / 64 % 2 = 0 then 0x0F else 0xF0)))

/-- BISNP_ANSWER: the host has given up a line (R92); a flip that waited for it has one fewer to wait for (R93). -/
def execBisnpAnswer (line : Nat) (s : State) : Out :=
  if s.bisnp.contains line then
    let s1 := { s with
      bisnp := removeNat s.bisnp line, snoopFilter := removeNat s.snoopFilter line
      parts := mapAll s.parts (fun p => { p with waiting := p.waiting.map (fun (w : Pending) =>
        match w.what with
        | .flipHost fn gpa b ho ps ls => { w with what := .flipHost fn gpa b ho ps (removeNat ls line) }
        | _ => w) }) }
    .next ((s1.pump line ((s1.entry line).waiting.length + 1)).deliverLine line lineFuel)
  else .next s

end Sys2Proof.Machine
end

