-- ==== Sys2Proof/Machine/Invalidation.lean ====
section
/-! DEFINITION. Invalidations (R31 to R34): what each covers, its acceptance with the rollbacks it causes (R118), when it can
complete and what it removes; and the sweep that clears RLS (R27). -/

namespace Sys2Proof.Machine

/-- Whether an invalidation covers a cached translation of its partition (R32): kinds 0 to 4 in the order of the table. -/
def Inval.covers (v : Inval) (t : TlbEntry) : Bool :=
  match v.kind with
  | 0 => t.fn == v.fn && (t.global || t.asid == v.asid) && overlap t.gva t.size v.base v.len
  | 1 => t.fn == v.fn && !t.global && t.asid == v.asid
  | 2 => t.fn == v.fn && overlap t.gpa t.size v.base v.len
  | 3 => t.fn == v.fn
  | _ => true

/-- Whether an invalidation covers the translation of an access (R32). -/
def Inval.coversAccess (v : Inval) (c : Ctx) (gva size : Nat) (x : Xlat) : Bool :=
  match v.kind with
  | 0 => c.fn == v.fn && (x.global || c.asid == v.asid) && overlap gva size v.base v.len
  | 1 => c.fn == v.fn && !x.global && c.asid == v.asid
  | 2 => c.fn == v.fn && overlap x.gpa size v.base v.len
  | 3 => c.fn == v.fn
  | _ => true

/-- Whether a walk in flight could come to a result that an invalidation covers (R33, condition 2). -/
def Inval.stops (v : Inval) (w : Walk) : Bool :=
  match v.kind with
  | 0 => w.fn == v.fn && overlap w.gva 4096 v.base v.len
  | 1 => w.fn == v.fn && w.asid == v.asid
  | 2 | 3 => w.fn == v.fn
  | _ => true

/-- Whether an invalidation removes a walk-cache entry (R32): the leaves that map stage-1 tables of its range unless it is
leaf-only; those of its GPAs. -/
def Inval.drops (v : Inval) (e : WalkEntry) : Bool :=
  match v.kind with
  | 0 => !v.leafOnly && e.fn == v.fn && e.asid == v.asid && e.visit.table.any (fun g => overlap g.1 g.2 v.base v.len)
  | 1 => false
  | 2 => e.fn == v.fn && overlap e.visit.gpa e.visit.size v.base v.len
  | 3 => e.fn == v.fn
  | _ => true

/-- The cached translations of a partition that an invalidation covers. -/
def State.covered (s : State) (p : Nat) (v : Inval) : List TlbEntry := s.tlb.filter (fun t => t.part == p && v.covers t)

/-- Whether an epoch of a context holds an access that an invalidation of a partition covers. -/
def Epoch.uses (e : Epoch) (c : Ctx) (p : Nat) (v : Inval) : Bool :=
  c.part == p && (e.loads ++ e.writes).any (fun w => w.2.2.any (v.coversAccess c w.1 w.2.1))

/-- The groups in outrider mode that hold an uncommitted access that an invalidation covers roll back, counted (R33, R118). -/
def State.rollThrough (s : State) (p : Nat) (v : Inval) : State :=
  let hit := (s.groups.filter (fun e =>
    match e.2.epoch with
    | some ep => ep.uses (s.teamOf e.2).ctx p v
    | none => false)).map (·.1)
  hit.foldl (fun t g => t.rollbackGroup g true) s

/-- The walks in flight of a partition that an invalidation covers are stale and start again from the root, and no walk from now on
uses an entry of a walk cache that it removes (R33, R34). -/
def State.stopWalks (s : State) (p : Nat) (v : Inval) : State :=
  { s with
    walks := s.walks.filter (fun w => !(w.part == p && v.stops w))
    walkCache := s.walkCache.filter (fun e => !(e.part == p && v.drops e)) }

/-- The CP accepts an invalidation of a partition: its number, the stale walks, and the rollbacks. -/
def State.acceptInval (s : State) (p kind fn asid base len : Nat) (leafOnly : Bool := false) : State × Nat :=
  let id := (s.part p).nextInval
  let v : Inval := { id := id, kind := kind, fn := fn, asid := asid, base := base, len := len, leafOnly := leafOnly }
  let s1 := s.onPart p (fun q => { q with nextInval := id + 1, invals := q.invals ++ [v] })
  ((s1.stopWalks p v).rollThrough p v, id)

/-- Whether a request of a context of a partition was translated through an entry that an invalidation covers. -/
def Req.through (r : Req) (c : Ctx) (p : Nat) (v : Inval) : Bool := c.part == p && r.x.any (v.coversAccess c r.gva r.size)

/-- Whether an access that an invalidation covers is still in flight (R33, conditions 3 and 4): one of a drained instruction, an indexed
reduce or an engine operation. A peer access is in flight until its response is there: the device knows by nothing else that it
has performed. -/
def State.inFlight (s : State) (p : Nat) (v : Inval) : Bool :=
  let ctx (gid : Nat) : Ctx := (s.teamOf (lookD s.groups gid {})).ctx
  s.drains.any (fun e => e.2.todo.any (fun r => r.through (ctx e.2.gid) p v)) ||
    s.reduces.any (fun e => (e.2.base.todo ++ e.2.lines).any (fun r => r.through (ctx e.2.base.gid) p v)) ||
    s.outbound.any (fun e =>
      match e.2.owner, e.2.req with
      | .op id, some r => (match look s.ops id with | some o => r.through o.ctx p v | none => false)
      | _, _ => false)

/-- INVALIDATION_COMPLETION: every access through a covered entry has performed or been discarded, and the entries go (R33). -/
def execInvalidationCompletion (p id : Nat) (s : State) : Out :=
  match (s.part p).invals.find? (fun v => v.id == id) with
  | none => .next s
  | some v =>
    if s.inFlight p v then .next s
    else
      let s1 := s.rollThrough p v
      .next (({ s1 with tlb := s1.tlb.filter (fun t => !(t.part == p && v.covers t)) } : State).onPart p (fun q =>
        { q with invals := q.invals.filter (fun w => w.id != id) }))

/-- Whether an invalidation is complete. -/
def State.invalDone (s : State) (p id : Nat) : Bool := !(s.part p).invals.any (fun v => v.id == id)

/-! ### RLS (R27) -/

/-- Whether an RLT or parked lock of the device holds a range touching output pages (R27, R93, R103). -/
def State.pageLocked (s : State) (k : OutKind) (out size : Nat) : Bool :=
  s.lockers.any (fun e => (e.2.srcs ++ e.2.dsts).any (fun r =>
    !r.scratch && (gvaPieces s e.2.ctx r.base (r.base + r.len)).any (fun p => p.sharesPage k out size)))

/-- The stage-2 leaf at a DPA: its partition, function and the GPAs and outputs it maps. -/
def State.leafAt (s : State) (leaf : Nat) : Option (Nat × Nat × Piece) :=
  s.parts.findSome? (fun e => (s.functionsOf e.1).findSome? (fun f =>
    ((gpaPieces s (s.fnCtx e.1 f) 0 (2 ^ 52)).find? (fun p => p.leaf == leaf)).map (fun p => (e.1, f, p))))

/-- BACKGROUND_SWEEP: RLS cleared in a leaf whose pages no range touches, with the invalidation that follows it (R27, R31). -/
def execBackgroundSweep (leaf : Nat) (s : State) : Out :=
  match s.leafAt leaf with
  | none => .next s
  | some (p, f, k) =>
    let e := s.readDWord 0 leaf
    if e.getLsbD 8 = false ∨ dramSize ≤ leaf ∨ s.pageLocked k.kind k.out k.size then .next s
    else
      let s1 := (s.takeRange leaf 8 true).perform none 0 (cellsAt leaf (toBytes 8 (e &&& ~~~0x100#64).toNat))
      .next (s1.acceptInval p 2 f 0 k.base k.size).1

end Sys2Proof.Machine
end

