-- ==== Sys2Proof/Machine/Command.lean ====
section
/-! DEFINITION. Queue commands (R371 to R376): process contexts (R14, R362), the CP's accesses, packets, completion words, and
the commands that move no page and launch nothing. -/

namespace Sys2Proof.Machine

/-! ### Processes (R14, R362) -/

/-- Where the CP finds a GPA of a function: a LOCAL or HOST page granting R. -/
def State.gpaLoc (s : State) (p fn gpa : Nat) : Option (Nat × Nat) :=
  match stage2 s (s.fnCtx p fn) gpa with
  | .error _ => none
  | .ok l =>
    let x := xlatOf l gpa false
    if (x.kind = .dram ∨ x.kind = .host) ∧ entryR l.word ∧ s.keyOk p fn x then some (outLoc x.kind x.out, s.serialOf x.key) else none

/-- Where a process's record stands: where the PROCESS command that made the process found it. -/
def State.procRecord (s : State) (p fn proc : Nat) : Option (Nat × Nat) :=
  (look (s.part p).procs (fn * 65536 + proc)).bind (s.gpaLoc p fn)

/-- A process's translation context; one that maps nothing where it has no record. -/
def State.procCtx (s : State) (p fn proc : Nat) : Ctx :=
  match s.procRecord p fn proc with
  | none => { s.fnCtx p fn with proc := proc, s2root := 2 ^ 52, s2en := true }
  | some (loc, j) =>
    let w (n : Nat) : DWord := s.readDWord j (loc + 8 * n)
    { s.fnCtx p fn with
      proc := proc, asid := bits (w 1) 0 16, s1root := bits (w 0) 12 40 * 2 ^ 12, s1en := (w 0).getLsbD 0
      keyId := bits (w 3) 0 12, prot := (w 3).getLsbD 24, handler := bits (w 2) 1 56 * 2 }

/-- A process's WEIGHT. -/
def State.weight (s : State) (p fn proc : Nat) : Nat :=
  match s.procRecord p fn proc with
  | none => 1
  | some (loc, j) => max (ofBytes (s.mem.getsUnder j (loc + 26) 1)) 1

/-! ### The CP's accesses (R371) -/

/-- The context of a queue. -/
def QueueEntry.ctx (e : QueueEntry) (s : State) (p : Nat) : Ctx := s.procCtx p e.fn e.proc

/-- Whether a queue is an admin queue, whose addresses are DPAs. -/
def QueueEntry.admin (e : QueueEntry) : Bool := e.kind == 2

/-- What a CP address reaches, with the translation's own effects: none on a walk fault or outside DRAM. -/
def State.reach (s : State) (c : Ctx) (admin : Bool) (a : Nat) (w : Bool) : Option (State × Xlat) :=
  if admin then (if a < dramSize then some (s, { kind := .dram, out := a }) else none)
  else
    match translate s c (if w then .write else .read) a 0 with
    | .ok f => some (s.install f, f.x)
    | .error _ => none

/-- What a CP address reaches on a LOCAL or HOST page: its location and serial. -/
def State.reachMem (s : State) (c : Ctx) (admin : Bool) (a : Nat) (w : Bool) : Option (State × Nat × Nat) :=
  match s.reach c admin a w with
  | some (t, x) => if (x.kind = .dram ∨ x.kind = .host) ∧ (admin ∨ s.keyOk c.part c.fn x) then some (t, outLoc x.kind x.out, s.serialOf x.key) else none
  | none => none

/-- n bytes the CP reads at an address: none where it cannot reach them, or where they are uncorrectable, which the waybill
then records. -/
def State.cpLoad (s : State) (c : Ctx) (admin : Bool) (a n : Nat) : State × Option (List Byte) :=
  match s.reachMem c admin a false with
  | none => (s, none)
  | some (t, loc, j) =>
    let u := (t.takeRange loc n false).below loc n j false false
    if u.isBad loc n then (u.recordBad loc n (some c.part) c.fn, none) else (u, some (u.mem.getsUnder j loc n))

/-! ### Completion words (R372) -/

/-- Whether a word can be written yet: what it stands after has ended (R309, R375). -/
def State.wordReady (s : State) (w : CpWrite) : Bool :=
  match w.after with
  | some k => !s.ops.any (fun e => (lookD s.teams e.2.team {}).launch == k && e.2.state == .cancelled)
  | none => true

/-- The next word the CP owes that can be written yet is written, once the home has given its line, or its event recorded. -/
def State.report (s : State) : State :=
  match s.cpWrites.find? s.wordReady with
  | none => s
  | some w =>
    let s1 := { s with cpWrites := s.cpWrites.erase w }
    match (if w.addr % 8 = 0 then s1.reachMem w.ctx w.admin w.addr true else none) with
    | some (t, loc, j) =>
      let u := t.takeRange loc w.bytes.length true
      if u.rangeFree loc w.bytes.length true then u.cpStore loc j w.bytes else { u with cpWrites := s.cpWrites }
    | none => s1.waybill 0x0016 (BitVec.ofNat 64 w.addr) (BitVec.ofNat 64 w.status) (some w.ctx.part) w.ctx.fn

/-- A command's completion word is owed, after the end of a launch's operations where one is named. -/
def State.owe (s : State) (h : CmdHead) (e : QueueEntry) (status : Nat) (after : Option Nat := none) : State :=
  if h.cw = 0 then s
  else
    { s with cpWrites := s.cpWrites ++
        [{ ctx := e.ctx s h.part, admin := e.admin, addr := h.cw, status := status, after := after
           bytes := toBytes 4 status ++ toBytes 4 (s.partClock h.part / 2 ^ 10) }] }

/-! ### Packets (R371, R376) -/

/-- The command a queue waits in. -/
def State.waitingOn (s : State) (h : CmdHead) : Option Pending := (s.part h.part).waiting.find? (fun w => w.queue == h.queue)

/-- A command waits part-way. -/
def State.wait (s : State) (h : CmdHead) (w : Waiting) : State :=
  s.onPart h.part (fun p => { p with
    partway := insertNat p.partway h.queue
    waiting := p.waiting.filter (fun x => x.queue != h.queue) ++ [{ queue := h.queue, cw := h.cw, what := w }] })

/-- A command whose condition does not hold yet. -/
def State.hold (s : State) (h : CmdHead) : State := s.onPart h.part (fun p => { p with partway := insertNat p.partway h.queue })

/-- A queue has done its packet: RPTR moves on, and nothing is part-way. -/
def State.pass (s : State) (h : CmdHead) (next : Queue → Queue) : State :=
  ((s.onQueue h.part h.queue next).onPart h.part (fun p => { p with
    partway := removeNat p.partway h.queue, waiting := p.waiting.filter (fun x => x.queue != h.queue) })).noteWork h.part h.queue

/-- The queue at its next packet. -/
def Queue.step (k : Queue) : Queue := { k with rptr := k.rptr + 1, ahead := del k.ahead k.rptr.toNat }

/-- The queue at a packet it jumps to; what its slot has prefetched is dropped. -/
def Queue.jump (k : Queue) (target : Word) : Queue := { k with rptr := target, ahead := [] }

/-- A packet is done, with the status of its completion word. -/
def State.endPacket (s : State) (h : CmdHead) (e : QueueEntry) (status : Nat) (after : Option Nat := none) : State :=
  (s.pass h Queue.step).owe h e status after

/-- Whether a queue still has the packet of a command before it: mapped, not empty, and READY or with that command begun (R376). -/
def State.atCommand (s : State) (h : CmdHead) : Option (QueueEntry × Queue) :=
  match look (s.part h.part).mapped h.queue, s.queueEntry h.part h.queue with
  | some k, some e =>
    if k.rptr ≠ k.wptr ∧ (k.state = 1 ∨ (k.state = 2 ∧ (s.part h.part).partway.contains h.queue)) then some (e, k) else none
  | _, _ => none

/-- A packet stops its queue (R376): NOT_PERMITTED for ERR 3, BAD_COMMAND for the other reasons. -/
def State.stopPacket (s : State) (h : CmdHead) (e : QueueEntry) (err : Nat) : State :=
  ((s.onPart h.part (fun p => { p with waiting := p.waiting.filter (fun x => x.queue != h.queue) })).stopQueue h.part h.queue
    err).owe h e (if err = 3 then 7 else 8)

/-- The queue kinds that may hold a packet of an OP; none for an OP that is not defined. -/
def kindsOf (op : Nat) : Option (List Nat) :=
  match op with
  | 0x00 => some [0, 1, 2]
  | 0x01 | 0x02 | 0x03 | 0x04 | 0x05 | 0x06 | 0x07 => some [0, 1]
  | 0x08 => some [1]
  | 0x09 | 0x10 => some [1, 2]
  | 0x11 | 0x12 | 0x13 => some [2]
  | _ => none

/-- A command of a queue: nothing where the queue does not stand before it; stopped where its kind does not permit it. -/
def command (h : CmdHead) (op : Nat) (body : QueueEntry → Queue → State) (s : State) : Out :=
  match s.atCommand h with
  | none => .next s
  | some (e, k) => .next (if ((kindsOf op).getD []).contains e.kind then body e k else s.stopPacket h e 3)

/-! ### NOP, WAITMEM, WRITE -/

/-- NOP. -/
def execNopCommand (h : CmdHead) (s : State) : Out := command h 0x00 (fun e _ => s.endPacket h e 1) s

/-- The conditions of WAITC and of commands (R298): EQ, NE, GEU, LTU. -/
def holds (c : Fin 4) (x v : Word) : Bool :=
  match c.val with
  | 0 => x == v
  | 1 => x != v
  | 2 => decide (v.toNat ≤ x.toNat)
  | _ => decide (x.toNat < v.toNat)

/-- WAITMEM: waits for a word of a LOCAL page. -/
def execWaitmem (h : CmdHead) (gva : Nat) (value : Word) (cond : Fin 4) (s : State) : Out :=
  command h 0x03 (fun e _ =>
    match (if gva % 4 = 0 then s.reach (e.ctx s h.part) e.admin gva false else none) with
    | none => s.stopPacket h e 4
    | some (_, x) =>
      if x.kind ≠ .dram then s.stopPacket h e 4
      else
        match s.cpLoad (e.ctx s h.part) e.admin gva 4 with
        | (t, none) => t.stopPacket h e 4
        | (t, some l) => if holds cond (BitVec.ofNat 32 (ofBytes l)) value then t.endPacket h e 1 else t.hold h) s

/-- Whether every earlier launch of a queue has completed and its words are written. -/
def State.launchesDone (s : State) (p q : Nat) : Bool := (s.launchesOf p q).isEmpty && s.cpWrites.isEmpty

/-- WRITE: one 32-bit store after every earlier launch, or a notify store. -/
def execWrite (h : CmdHead) (gva : Nat) (value : Word) (s : State) : Out :=
  command h 0x04 (fun e _ =>
    if s.launchesDone h.part h.queue = false then s.hold h
    else
      match (if gva % 4 = 0 then s.reach (e.ctx s h.part) e.admin gva true else none) with
      | none => s.stopPacket h e 4
      | some (t, x) =>
        match x.kind with
        | .peer => s.stopPacket h e 4
        | .notify =>
          if gva % 4096 = 0 then (t.endPacket h e 1).acceptNotify h.part e.fn x.out (value.zeroExtend 64) else s.stopPacket h e 4
        | _ => (t.cpStore (outLoc x.kind x.out) (s.serialOf x.key) (toBytes 4 value.toNat)).endPacket h e 1) s

/-! ### BRANCH, LOOP, QPRIO (R373, R379) -/

/-- BRANCH on the result word of the queue's latest launch. -/
def execBranch (h : CmdHead) (cond : Fin 4) (value : Word) (target : Nat) (s : State) : Out :=
  command h 0x05 (fun e k =>
    match look (s.part h.part).lastLaunch h.queue with
    | none => s.stopPacket h e 6
    | some n =>
      if k.wptr.toNat ≤ target then s.stopPacket h e 6
      else if n = 0 then s.stopPacket h e 5
      else
        let l := lookD s.launches (n - 1) {}
        if l.status = 0x10 ∨ !s.cpWrites.isEmpty then s.hold h
        else
          match s.cpLoad (e.ctx s h.part) e.admin l.result 8 with
          | (t, none) => t.stopPacket h e 4
          | (t, some b) =>
            if ofBytes (b.take 4) ≠ 0x11 then t.stopPacket h e 5
            else if holds cond (BitVec.ofNat 32 (ofBytes (b.drop 4))) value then
              (t.pass h (fun k => k.jump (BitVec.ofNat 32 target))).owe h e 1
            else t.endPacket h e 1) s

/-- LOOP on the queue's loop counter. -/
def execLoop (h : CmdHead) (count target : Nat) (s : State) : Out :=
  command h 0x06 (fun e k =>
    if k.wptr.toNat ≤ target then s.stopPacket h e 6
    else
      let n := if k.lcnt = 0 then BitVec.ofNat 32 count else k.lcnt
      if 1 < n.toNat then (s.pass h (fun k => { k.jump (BitVec.ofNat 32 target) with lcnt := n - 1 })).owe h e 1
      else (s.pass h (fun k => { k.step with lcnt := 0 })).owe h e 1) s

/-- QPRIO: the priority of a queue of the same process. -/
def execQprio (h : CmdHead) (queue prio : Nat) (s : State) : Out :=
  command h 0x07 (fun e _ =>
    match s.queueEntry h.part queue with
    | none => s.stopPacket h e 4
    | some t =>
      if t.fn ≠ e.fn ∨ t.proc ≠ e.proc then s.stopPacket h e 4
      else (s.onQueue h.part queue (fun k => { k with prio := prio })).endPacket h e 1) s

/-! ### PROCESS (R41) -/

/-- The granule of a process root: a LOCAL capability page of the function that grants W. -/
def State.rootGranule (s : State) (p fn proc : Nat) : Option (Nat × Nat) :=
  let gpa := (s.readDWord 0 (s.fnRecord p fn + 40)).toNat + 16 * proc
  match stage2 s (s.fnCtx p fn) gpa with
  | .error _ => none
  | .ok l =>
    let x := xlatOf l gpa false
    if x.kind = .dram ∧ x.cappg ∧ entryW l.word ∧ x.out % 16 = 0 then some (x.out, s.serialOf x.key) else none

/-- A capability stored in a granule with its tag. -/
def State.putCap (s : State) (loc j : Nat) (c : Cap) : State :=
  let t := s.cpStore loc j (toBytes 16 c.bits.toNat)
  { t with mem := t.mem.setTag (granule loc) c.tag }

/-- PROCESS: the process root minted with OWNER the record's KEYID. -/
def execProcess (h : CmdHead) (gpa proc : Nat) (s : State) : Out :=
  command h 0x08 (fun e _ =>
    if gpa % 64 ≠ 0 ∨ 65536 ≤ proc then s.stopPacket h e 4
    else
      let f (n : Nat) : DWord := s.readDWord 0 (s.fnRecord h.part e.fn + 8 * n)
      let perm := bits (f 2) 32 32
      let key (loc j : Nat) : Nat := bits (s.readDWord j (loc + 24)) 0 12
      match s.gpaLoc h.part e.fn gpa with
      | none => s.stopPacket h e 4
      | some (loc, j) =>
        match mintRoot (f 3).toNat (f 4).toNat perm (key loc j) with
        | none => s.endPacket h e 8
        | some c =>
          match s.rootGranule h.part e.fn proc with
          | none => s.stopPacket h e 4
          | some (at_, i) =>
            ((s.putCap at_ i c).onPart h.part (fun q => { q with procs := put q.procs (e.fn * 65536 + proc) gpa })).endPacket h e 1) s

/-! ### KILL (R375) -/

/-- The oldest launch of a function with a RESULT that has not completed. -/
def State.launchAt (s : State) (p fn result : Nat) : Option Nat :=
  (s.launches.find? (fun e => e.2.part == p && e.2.fn == fn && e.2.result == result && e.2.status == 0x10)).map (·.1)

/-- KILL. -/
def execKill (h : CmdHead) (fn result : Nat) (s : State) : Out :=
  command h 0x09 (fun e _ =>
    if e.kind = 1 ∧ fn ≠ e.fn then s.endPacket h e 7
    else
      match s.launchAt h.part fn result with
      | some l => ((s.endLaunch l 0x31).noteWork h.part (lookD s.launches l {}).queue).endPacket h e 1 (some l)
      | none => s.endPacket h e 1) s

/-! ### INVAL (R32, R33) -/

/-- An invalidation command: accepted, then done once the invalidation has completed. -/
def State.invalidate (s : State) (h : CmdHead) (e : QueueEntry) (kind fn asid base len : Nat) (leafOnly : Bool := false) : State :=
  match s.waitingOn h with
  | some w =>
    (match w.what with
     | .invalidation id => if s.invalDone h.part id then s.endPacket h e 1 else s
     | _ => s)
  | none =>
    if e.kind = 1 ∧ (2 ≤ kind ∨ fn ≠ e.fn) then s.stopPacket h e 3
    else
      let a := s.acceptInval h.part kind fn asid base len leafOnly
      a.1.wait h (.invalidation a.2)

/-- INV_S1_VA: leaf-only leaves the walk caches' leaves that map stage-1 tables of the range. -/
def execInvS1Va (h : CmdHead) (fn asid base len : Nat) (leafOnly : Bool) (s : State) : Out :=
  command h 0x10 (fun e _ => s.invalidate h e 0 fn asid base len leafOnly) s

/-- INV_S1_ASID. -/
def execInvS1Asid (h : CmdHead) (fn asid : Nat) (s : State) : Out :=
  command h 0x10 (fun e _ => s.invalidate h e 1 fn asid 0 0) s

/-- INV_S2_GPA. -/
def execInvS2Gpa (h : CmdHead) (fn base len : Nat) (s : State) : Out :=
  command h 0x10 (fun e _ => s.invalidate h e 2 fn 0 base len) s

/-- INV_FN. -/
def execInvFn (h : CmdHead) (fn : Nat) (s : State) : Out := command h 0x10 (fun e _ => s.invalidate h e 3 fn 0 0 0) s

/-- INV_PART. -/
def execInvPart (h : CmdHead) (s : State) : Out := command h 0x10 (fun e _ => s.invalidate h e 4 0 0 0 0) s

end Sys2Proof.Machine
end

