-- ==== Sys2Proof/Machine/Launch.lean ====
section
/-! DEFINITION. Launch acceptance (R374): the record (R177 to R180), the root and code capabilities (R40), the meld table
(R162, R163) and the preload list (R178, R179); LAUNCH and LAUNCHI. -/

namespace Sys2Proof.Machine

/-! ### Reading launch structures -/

/-- What the CP reads of a structure: its bytes, its translations with their GVAs, an uncorrectable granule met, whether all of
it was readable. -/
structure Text where
  bytes : List Byte := []
  founds : List (Nat × Found) := []
  bad : Option (Nat × Nat) := none
  ok : Bool := true

/-- n bytes at a GVA of a process, on LOCAL or HOST pages granting R. -/
def State.text (s : State) (c : Ctx) (gva n : Nat) : Text :=
  (lineParts gva n).foldl (fun (t : Text) p =>
    if t.ok = false then t
    else
      match translate s c .read p.1 (p.1 / 4096 % 2 ^ 16) with
      | .error _ => { t with ok := false }
      | .ok f =>
        let loc := outLoc f.x.kind f.x.out
        if f.x.kind = .peer ∨ f.x.kind = .notify then { t with ok := false }
        else if s.isBad loc p.2 then { t with ok := false, bad := some (loc, p.2) }
        else { t with bytes := t.bytes ++ s.mem.getsUnder (s.serialOf f.x.key) loc p.2, founds := t.founds ++ [(p.1, f)] }) {}

/-- Whether a structure is readable through c0: bounds, R, and what R45 asks of each page. -/
def State.throughC0 (s : State) (c : Ctx) (c0 : Cap) (gva n : Nat) (t : Text) : Bool :=
  c0.has permR && decide (c0.base ≤ gva ∧ gva + n ≤ c0.limit) &&
    t.founds.all (fun f => (s.checkXlat { ctx := c } c0 f.1 f.2.x).isNone)

/-- A field of n bytes. -/
def Text.at (t : Text) (off n : Nat) : Nat := ofBytes ((t.bytes.drop off).take n)

/-! ### The record's own fields (R177, R178, R180) -/

/-- Role descriptor n. -/
def Text.role (t : Text) (n : Nat) : Role :=
  { lanes := t.at (32 + 8 * n) 2, regs := 8 * t.at (34 + 8 * n) 1, entry := t.at (36 + 8 * n) 4 }

/-- A launch as its record gives it, with the three words of DIMS where they replace the record's. -/
def Text.launch (t : Text) (dims : Option Text) : Launch :=
  let b := t.at 3 1
  { width := 16 * 2 ^ t.at 2 1, setLog := b / 4 % 4, hasGuide := b / 2 % 2 == 1, fuse := b % 2 == 1, scratch := t.at 4 4
    codebase := t.at 8 8, codelen := t.at 16 4, guideEntry := t.at 20 4
    dimX := match dims with | some d => d.at 0 4 | none => t.at 24 4
    dimY := match dims with | some d => d.at 4 2 | none => t.at 28 2
    dimZ := match dims with | some d => d.at 6 2 | none => t.at 30 2
    roles := (List.range 4).map t.role, result := t.at 96 8 }

/-- Lanes of a team. -/
def Launch.teamLanes (l : Launch) : Nat := l.roles.foldl (fun n r => n + r.lanes) 0

/-- Register-file words of a team. -/
def Launch.teamWords (l : Launch) : Nat := l.roles.foldl (fun n r => n + r.lanes * r.regs) 0

/-- Groups of a team. -/
def Launch.teamGroups (l : Launch) : Nat := l.teamLanes / l.width

/-- Members of a team set. -/
def Launch.setSize (l : Launch) : Nat := 2 ^ l.setLog

/-- Whether an offset is a good entry. -/
def Launch.entryOk (l : Launch) (e : Nat) : Bool := decide (e % 2 = 0 ∧ e < l.codelen)

/-- Whether the roles are as R178 and R180 ask: ROLE0 present, no gap, whole groups, budgets 32 to 224. -/
def Launch.rolesOk (l : Launch) : Bool :=
  (l.roles.zip (l.roles.drop 1)).all (fun p => decide (p.1.lanes ≠ 0 ∨ p.2.lanes = 0)) &&
    l.roles.all (fun r =>
      if r.lanes = 0 then r.regs == 0
      else decide (r.lanes % l.width = 0 ∧ 32 ≤ r.regs ∧ r.regs ≤ 224) && l.entryOk r.entry) &&
    (match l.roles with | r :: _ => r.lanes != 0 | [] => false)

/-- Whether the record's fields other than SCRATCH and ROOT pass R180. -/
def Text.fieldsOk (t : Text) (l : Launch) : Bool :=
  let zero (off n : Nat) : Bool := t.at off n == 0
  t.at 0 2 == 0x0100 && decide (t.at 2 1 ≤ 2) && t.at 3 1 / 16 == 0 && zero 81 1 && zero 84 4 && zero 104 24 &&
    (List.range 4).all (fun n => zero (35 + 8 * n) 1) && l.rolesOk &&
    decide (l.teamLanes ≤ 1024 ∧ l.teamWords ≤ 65536) &&
    decide (l.teams ≠ 0 ∧ l.teams ≤ 2 ^ 32 - 1 ∧ l.teams % l.setSize = 0) &&
    (!l.hasGuide || l.entryOk l.guideEntry) && decide (t.at 80 1 ≤ 64 ∧ t.at 82 2 ≤ 256)

/-! ### Meld table and preload list (R162, R163, R178) -/

/-- A list of rename pairs: LOG and PHYS of those in use; none where it breaks R163. -/
def renameList (ws : List Nat) : Option (List (Nat × Nat)) :=
  let used := (ws.filter (fun w => w / 2 ^ 15 == 1)).map (fun w => (w % 32, w / 2 ^ 8 % 32))
  let good := ws.all (fun w => if w / 2 ^ 15 = 1 then w / 2 ^ 13 % 4 == 0 && w / 2 ^ 5 % 8 == 0 else w == 0) &&
    used.all (fun p => decide (8 ≤ p.1 ∧ 8 ≤ p.2)) && decide (used.map (·.1)).Nodup && decide (used.map (·.2)).Nodup
  if good then some used else none

/-- A region descriptor; none where it breaks R163. -/
def Text.region (t : Text) (codelen n : Nat) : Option Region :=
  let at_ (off k : Nat) : Nat := t.at (64 * n + off) k
  let count := at_ 4 4
  let pairs (off : Nat) : List Nat := (List.range 8).map (fun j => at_ (off + 2 * j) 2)
  match renameList (pairs 16), renameList (pairs 32) with
  | some a, some b =>
    if count ≤ 32 ∧ at_ 0 4 % 2 = 0 ∧ at_ 0 4 < codelen ∧ at_ 48 16 = 0 then
      some { count := count, start := at_ 0 4, apply := BitVec.ofNat 64 (at_ 8 8), list0 := a, list1 := b }
    else none
  | _, _ => none

/-- A preload entry; none where R180 refuses it. -/
def Text.preload (t : Text) (n : Nat) : Option Preload :=
  let w := t.at (8 * n) 4
  if w / 2 ^ 24 = 0 ∧ w / 2 ^ 10 % 64 = 0 ∧ w / 2 ^ 8 % 4 ≠ 0 ∧ w / 2 ^ 16 % 256 ≤ 9 then
    some { value := BitVec.ofNat 32 (t.at (8 * n + 4) 4), kind := w / 2 ^ 16 % 256, target := w / 2 ^ 8 % 4, sreg := w % 256 }
  else none

/-- Every entry of a list, or none where one is missing. -/
def allSome {α : Type} (l : List (Option α)) : Option (List α) :=
  match l with
  | [] => some []
  | none :: _ => none
  | some a :: r => (allSome r).map (fun t => a :: t)

/-! ### The root (R40) -/

/-- The capability a granule holds. -/
def State.granuleCap (s : State) (loc j : Nat) : Cap :=
  { bits := BitVec.ofNat 128 (ofBytes (s.mem.getsUnder j loc 16)), tag := s.mem.tag (granule loc) }

/-- The process root the CP minted. -/
def State.processRoot (s : State) (c : Ctx) : Cap :=
  match s.rootGranule c.part c.fn c.proc with
  | some (loc, j) => s.granuleCap loc j
  | none => {}

/-- The root a record names with its translation, or the status that refuses the launch and an uncorrectable granule met. -/
def State.rootOf (s : State) (c : Ctx) (gva : Nat) : Except (Nat × Option (Nat × Nat)) (Cap × Found) :=
  if gva % 16 ≠ 0 then .error (0x21, none)
  else
    match translate s c .capLoad gva 0 with
    | .error f => .error (if f.reason = rPermission then 0x21 else 0x24, none)
    | .ok f =>
      if f.x.kind ≠ .dram ∨ f.x.cappg = false then .error (0x21, none)
      else if s.keyOk c.part c.fn f.x = false then .error (0x24, none)
      else if s.isBad f.x.out 16 then .error (0x24, some (f.x.out, 16))
      else
        let k := s.granuleCap f.x.out (s.serialOf f.x.key)
        if k.tag ∧ k.otype = 0 ∧ k.owner = c.keyId ∧ k.subset (s.processRoot c) ∧ k.has (permDERIVE + permR + permX) then .ok (k, f)
        else .error (0x21, none)

/-! ### The checks (R374) -/

/-- What acceptance comes to: the status that refuses (none where the launch is accepted), the launch, the result word's place
once it may be written, the translations used, an uncorrectable granule met. -/
structure Verdict where
  status : Option Nat
  launch : Launch := {}
  result : Option (Nat × Nat) := none
  founds : List Found := []
  bad : Option (Nat × Nat) := none

/-- Checks 6 to 8 for a launch whose root is known. -/
def State.checkCode (s : State) (c : Ctx) (record : Nat) (t : Text) (l : Launch) (v : Verdict) : Verdict :=
  match narrow l.root l.codebase l.codelen with
  | .error _ => { v with status := some 0x20 }
  | .ok _ =>
    if s.throughC0 c l.root record 128 t = false then { v with status := some 0x24 }
    else
      let nreg := t.at 80 1
      let npre := t.at 82 2
      let tab := t.at 72 8
      let pre := t.at 88 8
      let m : Text := if nreg = 0 then {} else s.text c tab (64 * nreg)
      let q : Text := if npre = 0 then {} else s.text c pre (8 * npre)
      let regions := allSome ((List.range nreg).map (m.region l.codelen))
      let entries := allSome ((List.range npre).map q.preload)
      let v1 := { v with founds := v.founds ++ m.founds.map (fun (e : Nat × Found) => e.2) }
      let v2 := { v1 with founds := v1.founds ++ q.founds.map (fun (e : Nat × Found) => e.2) }
      if nreg ≠ 0 ∧ tab % 64 ≠ 0 then { v with status := some 0x20 }
      else if nreg ≠ 0 ∧ (m.ok = false ∨ s.throughC0 c l.root tab (64 * nreg) m = false) then { v1 with status := some 0x24, bad := m.bad }
      else
        match regions with
        | none => { v1 with status := some 0x22 }
        | some rs =>
          if npre ≠ 0 ∧ pre % 8 ≠ 0 then { v1 with status := some 0x20 }
          else if npre ≠ 0 ∧ (q.ok = false ∨ s.throughC0 c l.root pre (8 * npre) q = false) then { v2 with status := some 0x24, bad := q.bad }
          else
            match entries with
            | none => { v2 with status := some 0x20 }
            | some es =>
              { v2 with
                status := none
                launch := { l with melds := rs, preloads := es, code := codeCap l.root l.codebase l.codelen } }

/-- The checks of R374, in order. -/
def State.checkLaunch (s : State) (c : Ctx) (record : Nat) (dims : Option Nat) : Verdict :=
  if record % 128 ≠ 0 then { status := some 0x20 }
  else
    let t := s.text c record 128
    let d := dims.map (fun a => s.text c a 8)
    if t.ok = false then { status := some 0x24, bad := t.bad }
    else if (match d with | some x => !x.ok | none => false) then { status := some 0x24, bad := d.bind (·.bad) }
    else
      let l := t.launch d
      let fs := t.founds.map (·.2) ++ (match d with | some x => x.founds.map (·.2) | none => [])
      if l.result % 8 ≠ 0 then { status := some 0x20, founds := fs }
      else
        match translate s c .write l.result 1 with
        | .error _ => { status := some 0x24, founds := fs }
        | .ok f =>
          if f.x.kind = .peer ∨ f.x.kind = .notify then { status := some 0x24, founds := fs }
          else
            let v : Verdict := { status := none, launch := l, result := some (outLoc f.x.kind f.x.out, s.serialOf f.x.key), founds := fs ++ [f] }
            if t.fieldsOk l = false then { v with status := some 0x20 }
            else if 2 ^ 18 < l.scratch then { v with status := some 0x23 }
            else
              match s.rootOf c (t.at 64 8) with
              | .error (st, bad) => { v with status := some st, bad := bad }
              | .ok (k, g) => s.checkCode c record t { l with root := k } { v with founds := v.founds ++ [g] }

/-- The effects of a verdict on memory: translations, an uncorrectable granule recorded, the result word. -/
def State.applyVerdict (s : State) (c : Ctx) (v : Verdict) : State :=
  let s1 := s.installAll v.founds
  let s2 := match v.bad with | some b => s1.recordBad b.1 b.2 (some c.part) c.fn | none => s1
  match v.result with
  | some (loc, j) => s2.cpStore loc j (toBytes 8 (v.status.getD 0x10))
  | none => s2

/-- A launch packet is done: its queue's latest launch is this one (one more than its number), or a refused one (0). -/
def State.noteLaunch (s : State) (p q n : Nat) : State :=
  s.onPart p (fun t => { t with lastLaunch := put t.lastLaunch q n })

/-- A launch accepted or refused (R374). -/
def State.launchCmd (s : State) (h : CmdHead) (e : QueueEntry) (record : Nat) (ordered : Bool) (dims : Option Nat) : State :=
  let c := e.ctx s h.part
  let v := s.checkLaunch c record dims
  let s1 := s.applyVerdict c v
  match v.status with
  | some st => (s1.noteLaunch h.part h.queue 0).endPacket h e st
  | none =>
    let id := s1.nextId
    let l := { v.launch with
      part := h.part, fn := e.fn, queue := h.queue, ctx := c, completion := h.cw, ordered := ordered, nextTeam := 0, status := 0x10 }
    let s2 := { s1 with nextId := id + 1, launches := put s1.launches id l }
    let s3 := (s2.noteLaunch h.part h.queue (id + 1)).onPart h.part (fun t =>
      { t with launches := put t.launches h.queue (lookD t.launches h.queue [] ++ [id]) })
    s3.pass h Queue.step

/-- LAUNCH. -/
def execLaunch (h : CmdHead) (record : Nat) (ordered : Bool) (s : State) : Out :=
  command h 0x01 (fun e _ => s.launchCmd h e record ordered none) s

/-- LAUNCHI: after every earlier launch of the queue, with the grid read from DIMS (R371). -/
def execLaunchi (h : CmdHead) (record : Nat) (ordered : Bool) (dims : Nat) (s : State) : Out :=
  command h 0x02 (fun e _ =>
    if s.launchesDone h.part h.queue = false then s.hold h
    else if dims % 8 ≠ 0 then s.stopPacket h e 4
    else s.launchCmd h e record ordered (some dims)) s

end Sys2Proof.Machine
end

