-- ==== Sys2Proof/Machine/PageMove.lean ====
section
/-! DEFINITION. The admin commands that change a 64 KiB page: BIASFLIP with its CANCEL and its DEFERRED word (R93), and
MIGRATE64K (R103). -/

namespace Sys2Proof.Machine

/-! ### The 16 leaves of a page -/

/-- The place of the first of the 16 level-0 leaves of a 64 KiB page of a function, with their words; none unless all are valid
leaves. -/
def State.leaves16 (s : State) (p fn gpa : Nat) : Option (Nat × List DWord) :=
  let c := s.fnCtx p fn
  let one (i : Nat) : Option (Nat × DWord) :=
    match walk2 s 4 c.s2root (gpa + 4096 * i) with
    | .ok l => if l.size = 4096 then some (l.loc, l.word) else none
    | .error _ => none
  if c.s2en then
    match allSome ((List.range 16).map one) with
    | some ((loc, w) :: r) => some (loc, w :: r.map (fun (e : Nat × DWord) => e.2))
    | _ => none
  else none

/-- The 16 leaves written as one write of their 128-byte line. -/
def State.writeLeaves (s : State) (place : Nat) (ws : List DWord) : State :=
  s.cpStore place 0 (ws.flatMap (fun w => toBytes 8 w.toNat))

/-- Whether a range lock touches any page of these leaves. -/
def State.anyLocked (s : State) (ws : List DWord) : Bool :=
  ws.any (fun w => s.pageLocked (kindOf w) (entryOut w) 4096)

/-! ### BIASFLIP (R92, R93) -/

/-- Leaf i after a flip. -/
def flipped (w : DWord) (bias : Bool) (ho : BitVec 16) (i : Nat) : DWord :=
  (w &&& ~~~0xC00#64) ||| (if bias then 0x400#64 else 0) ||| (if ho.getLsbD i then 0x800#64 else 0)

/-- The output pages whose ownership a flip changes: those that become host-owned, and those that become device-owned. -/
def flipPages (ws : List DWord) (bias : Bool) (ho : BitVec 16) : List Nat × List Nat :=
  let es := ws.zipIdx.map (fun (e : DWord × Nat) => (entryOut e.1 / 4096, leafHostOwned e.1, leafHostOwned (flipped e.1 bias ho e.2)))
  ((es.filter (fun e => !e.2.1 && e.2.2)).map (·.1), (es.filter (fun e => e.2.1 && !e.2.2)).map (·.1))

/-- The lines of 4 KiB pages. -/
def linesOfPages (ps : List Nat) : List Nat := ps.flatMap (fun n => span (32 * n) 32)

/-- A flip that has passed its wait for locks: from now on homes hold the requests for the pages that change (R93). -/
def State.flipStart (s : State) (h : CmdHead) (fn gpa : Nat) (bias : Bool) (ho : BitVec 16) (ws : List DWord) : State :=
  let ps := flipPages ws bias ho
  s.wait h (.flipHost fn gpa bias ho (ps.1 ++ ps.2) (linesOfPages ps.2))

/-- Every copy of some lines taken from the cores, whatever the host holds. -/
def State.snoopAll (s : State) (lines : List Nat) : State := lines.foldl (fun t l => if t.copiesGone l true then t else t.snoop l true) s

/-- The pages that become host-owned, taken from the cores and then from the MSC, whose dirty granules go to DRAM; after that the host
asked for the lines that it still has to give up. The machine as it then stands, and whether the pages have been taken. -/
def State.flipTake (s : State) (bias : Bool) (ho : BitVec 16) (ws : List DWord) (back : List Nat) : State × Bool :=
  let lines := linesOfPages (flipPages ws bias ho).1
  let s1 := s.snoopAll lines
  if lines.all (fun l => s1.copiesGone l true && s1.mscFree l) then
    let s2 := lines.foldl State.mscDrop s1
    ({ s2 with bisnp := back.foldl (fun b l => if b.contains l then b else b ++ [l]) s2.bisnp }, true)
  else (s1, false)

/-- The copies of the pages that become device-owned, which came over CXL.cache, invalidated once the host has answered for every
line; whether none is left. -/
def State.flipBack (s : State) (bias : Bool) (ho : BitVec 16) (ws : List DWord) : State × Bool :=
  let lines := linesOfPages (flipPages ws bias ho).2
  let s1 := s.snoopAll lines
  (s1, lines.all (fun l => s1.copiesGone l true))

/-- What the host filter and the halves still say of the pages that change, forgotten: their ownership is another. -/
def State.flipForget (s : State) (pages : List Nat) : State :=
  let lines := linesOfPages pages
  { s with
    snoopFilter := s.snoopFilter.filter (fun l => !lines.contains l)
    halves := s.halves.filter (fun e => !lines.contains e.1) }

/-- The requests that homes held for a flip go back to their cores. -/
def State.returnRequests (s : State) (pages : List Nat) : State :=
  { s with dir := s.dir.map (fun e => if pages.contains (e.1 / 32) then (e.1, { e.2 with waiting := [] }) else e) }

/-- Whether a function's partition is being migrated away: the CP answers its page commands with NOT_PERMITTED (R428). -/
def State.migrating (s : State) (fn : Nat) : Bool :=
  match s.partOf fn with
  | some p => (s.part p).migPhase == 1 || (s.part p).migPhase == 2 || (s.part p).migPhase == 3
  | none => false

/-- BIASFLIP at the step it has come to. -/
def State.flip (s : State) (h : CmdHead) (e : QueueEntry) (fn gpa : Nat) (bias : Bool) (ho : BitVec 16) : State :=
  match s.waitingOn h with
  | none =>
    if s.migrating fn then s.endPacket h e 7
    else
    (match s.leaves16 h.part fn gpa with
     | some (_, ws) =>
       if ws.all (fun w => kindOf w == .dram) then s.wait h (.flipLocks fn gpa bias ho false s.clock) else s.endPacket h e 4
     | none => s.endPacket h e 4)
  | some w =>
    match w.what with
    | .flipLocks _ _ _ _ _ _ =>
      (match s.leaves16 h.part fn gpa with
       | some (_, ws) => if s.anyLocked ws then s else s.flipStart h fn gpa bias ho ws
       | none => s.endPacket h e 4)
    | .flipHost _ _ _ _ pages back =>
      (match s.leaves16 h.part fn gpa with
       | some (place, ws) =>
         let taken := s.flipTake bias ho ws back
         if taken.2 = false ∨ !back.isEmpty then taken.1
         else
           let freed := taken.1.flipBack bias ho ws
           if freed.2 then
             let s1 := (freed.1.flipForget pages).writeLeaves place (ws.zipIdx.map (fun (x : DWord × Nat) => flipped x.1 bias ho x.2))
             let a := s1.acceptInval h.part 2 fn 0 gpa (2 ^ 16)
             a.1.wait h (.flipInval a.2 fn gpa pages)
           else freed.1
       | none => s.endPacket h e 4)
    | .flipInval id _ _ pages => if s.invalDone h.part id then (s.returnRequests pages).endPacket h e 1 else s
    | _ => s

/-- Whether a GPA is that of a 64 KiB page. -/
def isPage64 (gpa : Nat) : Bool := decide (gpa % 2 ^ 16 = 0 ∧ gpa < 2 ^ 52)

/-- BIASFLIP. -/
def execBiasflip (h : CmdHead) (fn gpa : Nat) (bias : Bool) (ho : BitVec 16) (s : State) : Out :=
  command h 0x11 (fun e _ => if isPage64 gpa then s.flip h e fn gpa bias ho else s.stopPacket h e 4) s

/-- CANCEL: a BIASFLIP that still waits for locks ends CANCELLED. -/
def execCancel (h : CmdHead) (target : Nat) (s : State) : Out :=
  command h 0x13 (fun e _ =>
    let hit (w : Pending) : Bool := w.cw == target && (match w.what with | .flipLocks _ _ _ _ _ _ => true | _ => false)
    match (s.part h.part).waiting.find? hit with
    | none => s.endPacket h e 1
    | some w =>
      match s.queueEntry h.part w.queue with
      | none => s.endPacket h e 1
      | some f => (s.endPacket { part := h.part, queue := w.queue, cw := w.cw } f 3).endPacket h e 1) s

/-- DEFERRED: a flip has waited for locks for 100 microseconds; its completion word says so, once (R93). -/
def execDeferred (p q : Nat) (s : State) : Out :=
  match (s.part p).waiting.find? (fun w => w.queue == q), s.queueEntry p q with
  | some w, some e =>
    (match w.what with
     | .flipLocks fn gpa b ho false since =>
       if since + 240000 ≤ s.clock then
         let h : CmdHead := { part := p, queue := q, cw := w.cw }
         .next ((s.wait h (.flipLocks fn gpa b ho true since)).owe h e 2)
       else .next s
     | _ => .next s)
  | _, _ => .next s

/-! ### MIGRATE64K (R103) -/

/-- Whether a flip of a page is under way. -/
def State.flipUnderWay (s : State) (fn gpa : Nat) : Bool :=
  s.parts.any (fun e => e.2.waiting.any (fun w =>
    match w.what with
    | .flipLocks f g _ _ _ _ => f == fn && g == gpa
    | .flipHost f g _ _ _ _ => f == fn && g == gpa
    | .flipInval _ f g _ => f == fn && g == gpa
    | _ => false))

/-- Whether a move would give a page of a sealed partition another key (R456). -/
def State.rekeysSealed (s : State) (fn key : Nat) (ws : List DWord) : Bool :=
  (match s.partOf fn with | some p => s.sec.sealedParts.contains p | none => false) && ws.any (fun w => bits w 52 12 != key)

/-- The status of the first check that fails, if any. -/
def State.moveRefused (s : State) (fn gpa kind key : Nat) (ws : List DWord) : Option Nat :=
  if ws.any (fun w => kindOf w != .dram && kindOf w != .host) then some 4
  else if ws.any (fun w => w.getLsbD 9) then some 5
  else if s.anyLocked ws || s.flipUnderWay fn gpa then some 6
  else if ws.any (fun w => w.getLsbD 4) ∧ kind ≠ 0 then some 4
  else if ws.any (fun w => kindOf w == .dram && leafHostOwned w) then some 4
  else if s.rekeysSealed fn key ws then some 7
  else none

/-- One 4 KiB page copied with its tags and its uncorrectable granules, read under one key and written under another. -/
def State.copyPage (s : State) (src js dst jd : Nat) : State :=
  let s1 := (((s.takeRange src 4096 false).takeRange dst 4096 true).below src 4096 js false false).below dst 4096 jd false true
  let s2 := s1.perform none jd (cellsAt dst (s1.mem.getsUnder js src 4096))
  { s2 with mem := (List.range 256).foldl (fun (m : Memory) g =>
      let m1 := m.setTag (granule dst + g) (s1.mem.tag (granule src + g))
      if s1.mem.bad.contains (granule src + g) then { m1 with bad := insertNat m1.bad (granule dst + g) } else m1) s2.mem }

/-- A leaf with a new output, kind and key, RLS 0 and V 1. -/
def movedLeaf (w : DWord) (out kind key : Nat) : DWord :=
  BitVec.ofNat 64 (bits w 0 5 + kind * 2 ^ 5 + bits w 7 1 * 2 ^ 7 + bits w 9 3 * 2 ^ 9 + out / 4096 % 2 ^ 40 * 2 ^ 12 + key % 2 ^ 12 * 2 ^ 52) ||| 1

/-- The parks on a page that has moved resume (R103 step 5). -/
def State.resumePage (s : State) (p fn gpa : Nat) : State :=
  (s.onPart p (fun q => { q with faults := q.faults.map (fun (r : FaultRec) =>
    if r.hidden ∧ r.fn = fn ∧ r.fault.gpa.getD 0 / 2 ^ 16 = gpa / 2 ^ 16 ∧ r.answer.isNone then { r with answer := some true } else r) })).settleAnswers p

/-- The copy and the new leaves. -/
def State.finishMove (s : State) (fn gpa newOut kind key place : Nat) (ws : List DWord) (p : Nat) : State :=
  let s1 := ws.zipIdx.foldl (fun t (e : DWord × Nat) =>
    t.copyPage (outLoc (kindOf e.1) (entryOut e.1)) (t.serialOf (bits e.1 52 12))
      (outLoc (if kind = 1 then .host else .dram) (newOut + 4096 * e.2)) (t.serialOf key)) s
  (s1.writeLeaves place (ws.zipIdx.map (fun (e : DWord × Nat) => movedLeaf e.1 (newOut + 4096 * e.2) kind key))).resumePage p fn gpa

/-- MIGRATE64K at the step it has come to. -/
def State.move (s : State) (h : CmdHead) (e : QueueEntry) (fn gpa newOut kind key : Nat) : State :=
  match s.waitingOn h with
  | none =>
    if s.migrating fn then s.endPacket h e 7
    else
    (match s.leaves16 h.part fn gpa with
     | none => s.endPacket h e 4
     | some (place, ws) =>
       match s.moveRefused fn gpa kind key ws with
       | some st => s.endPacket h e st
       | none =>
         let a := (s.writeLeaves place (ws.map (fun w => w &&& ~~~1#64))).acceptInval h.part 2 fn 0 gpa (2 ^ 16)
         a.1.wait h (.migrateInval a.2 fn gpa newOut kind key place ws))
  | some w =>
    match w.what with
    | .migrateInval id f g o k j place ws =>
      if s.invalDone h.part id then (s.finishMove f g o k j place ws h.part).endPacket h e 1 else s
    | _ => s

/-- MIGRATE64K. -/
def execMigrate64k (h : CmdHead) (fn gpa newOut kind key : Nat) (s : State) : Out :=
  command h 0x12 (fun e _ =>
    if isPage64 gpa ∧ newOut % 4096 = 0 ∧ newOut < 2 ^ 52 ∧ kind ≤ 1 ∧ key < 4096 ∧ (kind = 1 ∨ newOut + 2 ^ 16 ≤ dramSize) then
      s.move h e fn gpa newOut kind key
    else s.stopPacket h e 4) s

end Sys2Proof.Machine
end

