-- ==== Sys2Proof/Machine/Admission.lean ====
section
/-! DEFINITION. Admission (R175, R378 to R381): arbitration over functions, processes and queues, placement of team sets, a
team as it starts (R40, R51, R144, R145, R151, R152, R179), and eviction with readmission (R56, R353, R381, R382). -/

namespace Sys2Proof.Machine

/-! ### Arbitration over functions (R378) -/

/-- The queues the CP knows of: mapped or pending. -/
def Part.queues (q : Part) : List Nat := q.pendingBits.foldl insertNat (q.mapped.map (·.1))

/-- Whether a function has work: a queue of it with work, or a launch of it that has not completed. -/
def State.fnHasWork (s : State) (p fn : Nat) : Bool :=
  (s.part p).queues.any (fun q => s.hasWork p q && (match s.queueEntry p q with | some e => e.fn == fn | none => false)) ||
    s.launches.any (fun e => e.2.part == p && e.2.fn == fn && e.2.status == 0x10)

/-- A function's SLICE. -/
def State.sliceOf (s : State) (p fn : Nat) : Nat := bits (s.readDWord 0 (s.fnRecord p fn + 16)) 0 8

/-- Functions of a partition that have work and a slice, rising. -/
def State.workers (s : State) (p : Nat) : List Nat :=
  let fs := (s.part p).queues.filterMap (fun q => (s.queueEntry p q).map (·.fn)) ++
    (s.launches.filter (fun e => e.2.part == p)).map (·.2.fn)
  (fs.foldl insertNat []).filter (fun f => s.fnHasWork p f && s.sliceOf p f != 0)

/-- The function whose turn comes after one, round robin. -/
def State.nextFunction (s : State) (p : Nat) (after : Option Nat) : Option Nat :=
  let ws := s.workers p
  match after with
  | none => ws.head?
  | some f => match ws.find? (fun g => decide (f < g)) with | some g => some g | none => ws.head?

/-- CLOCK cycles of 100 microseconds. -/
def sliceUnit : Nat := 240000

/-- A function takes the partition, for its slice. -/
def State.runFunction (s : State) (p fn : Nat) : State :=
  s.onPart p (fun q => { q with running := some fn, sliceEnd := s.clock + s.sliceOf p fn * sliceUnit })

/-! ### Candidates (R378, R380) -/

/-- A launch that may have a team set admitted, with its queue, process and effective priority. -/
structure Candidate where
  lid : Nat
  launch : Launch
  queue : Nat
  prio : Nat
  deriving DecidableEq, Repr

/-- The key of a launch's process. -/
def Launch.proc (l : Launch) : Nat := l.fn * 65536 + l.ctx.proc

/-- A queue's candidate: its oldest accepted launch with unadmitted sets, unless ORDERED holds it back (R380). -/
def State.candidateOf (s : State) (p q : Nat) : Option (Nat × Launch) :=
  let ls := s.launchesOf p q
  match ls.find? (fun e => decide (e.2.nextTeam < e.2.teams)) with
  | none => none
  | some e =>
    let earlier := ls.takeWhile (fun x => x.1 != e.1)
    if !earlier.isEmpty && (e.2.ordered || earlier.any (fun x => x.2.ordered)) then none else some e

/-- The candidates of the running function, queue by queue. -/
def State.candidates (s : State) (p : Nat) : List Candidate :=
  (s.part p).mapped.filterMap (fun m =>
    match s.candidateOf p m.1 with
    | some e => if (s.part p).running = some e.2.fn then some { lid := e.1, launch := e.2, queue := m.1, prio := m.2.effective } else none
    | none => none)

/-- What the CP keeps of the work of the queues it knows, kept in step (R378, R379). -/
def State.noteProcs (s : State) (p : Nat) : State := (s.part p).queues.foldl (fun t q => t.noteWork p q) s

/-- Whether one candidate comes before another: least virtual time, lowest process, highest priority, round robin. -/
def State.before (s : State) (p : Nat) (a b : Candidate) : Bool :=
  let q := s.part p
  let key (c : Candidate) : List Nat :=
    [lookD q.vtime c.launch.proc 0, c.launch.ctx.proc, 15 - c.prio, (c.queue + 65536 - (q.rr + 1) % 65536) % 65536]
  decide (key a < key b)

/-- A list with an element put where it belongs. -/
def insertBy {α : Type} (lt : α → α → Bool) (l : List α) (a : α) : List α :=
  match l with
  | [] => [a]
  | b :: r => if lt a b then a :: b :: r else b :: insertBy lt r a

/-- The candidates in arbitration order. -/
def State.arbitrated (s : State) (p : Nat) : List Candidate :=
  (s.candidates p).foldl (insertBy (fun a b => s.before p a b)) []

/-! ### Placement (R51, R52, R62, R175, R380) -/

/-- The resident teams of a core. -/
def State.teamsOn (s : State) (core : Nat) : List Team := (s.teams.filter (fun e => e.2.state == .resident && e.2.core == core)).map (·.2)

/-- Scratch bytes of a team of a launch. -/
def Launch.ssize (l : Launch) : Nat := ceilDiv l.scratch 1024 * 1024

/-- Where a team of a launch fits on a core: the lowest free SBASE, a multiple of 1 KiB within the core's slice. -/
def State.fits (s : State) (core : Nat) (l : Launch) : Option Nat :=
  let ts := s.teamsOn core
  let sum (f : Launch → Nat) : Nat := ts.foldl (fun n t => n + f (lookD s.launches t.launch {})) 0
  let base := core % 8 * 2 ^ 18
  let free (a : Nat) : Bool :=
    decide (base ≤ a ∧ a + l.ssize ≤ base + 2 ^ 18) && ts.all (fun t => !overlap a l.ssize t.sbase t.ssize)
  if sum Launch.teamLanes + l.teamLanes ≤ 2048 ∧ sum Launch.teamWords + l.teamWords ≤ 65536 ∧
      sum Launch.teamGroups + l.teamGroups ≤ 64 ∧ ts.length < 16 then
    ((base :: ts.map (fun t => t.sbase + t.ssize)).filter free).foldl
      (fun (b : Option Nat) a => match b with | none => some a | some x => some (min x a)) none
  else none

/-- How many clusters a partition has. -/
def State.clusterCount (s : State) (p : Nat) : Nat := ((List.range 64).filter (fun i => (s.part p).clusters.getLsbD i)).length

/-- Whether no team is resident on a logical cluster. -/
def State.clusterEmpty (s : State) (p n : Nat) : Bool :=
  (span (8 * s.deviceCluster p n) 8).all (fun c => (s.teamsOn c).isEmpty)

/-- Where so many members of a set go: the first logical cluster that suits, its lowest cores. -/
def State.place (s : State) (p : Nat) (l : Launch) (count : Nat) (ok : Nat → Nat → Bool) : Option (Nat × List (Nat × Nat)) :=
  (List.range (s.clusterCount p)).findSome? (fun n =>
    if (s.part p).fused.getLsbD n == l.fuse || s.clusterEmpty p n then
      let picks := (span (8 * s.deviceCluster p n) 8).foldl (fun (a : List (Nat × Nat)) c =>
        if a.length < count ∧ ok a.length c then (match s.fits c l with | some b => a ++ [(c, b)] | none => a) else a) []
      if picks.length = count then some (n, picks) else none
    else none)

/-- The L1s of a device cluster written back and invalidated, with their notices (R62). -/
def State.flushL1 (s : State) (cluster : Nat) : State :=
  (s.l1.filter (fun c => clusterOf c.core == cluster)).foldl (fun t (c : L1Line) =>
    let t1 := (t.loseOwner c.core c.line).dropCopy c.core c.line
    if c.dirty = 0 then t1.onNotice c.core c.line else t1.onWriteBack c.core c.line c.dirty) s

/-- A logical cluster takes an L1 mode. -/
def State.setMode (s : State) (p n : Nat) (fuse : Bool) : State :=
  if (s.part p).fused.getLsbD n == fuse then s
  else (s.flushL1 (s.deviceCluster p n)).onPart p (fun q =>
    { q with fused := if fuse then q.fused ||| (1#64 <<< n) else q.fused &&& ~~~(1#64 <<< n) })

/-! ### A team as it starts -/

/-- The bytes of a scratch range set to zero, with their uncorrectable marks removed. -/
def Memory.clear (m : Memory) (loc n : Nat) : Memory :=
  { m with
    bytes := m.bytes.filter (fun c => !decide (loc ≤ c.1 ∧ c.1 < loc + n))
    badWords := m.badWords.filter (fun w => !decide (loc ≤ wordLoc w ∧ wordLoc w < loc + n)) }

/-- The capability registers at admission (R40). -/
def Launch.caps (l : Launch) : List Cap := (List.range 16).map (fun n => if n = 0 then l.root else if n = 15 then l.code else {})

/-- The lanes of a group at admission: at an entry, with a budget of registers (R147, R152). -/
def Launch.startLanes (l : Launch) (entry regs n : Nat) : List Lane :=
  List.replicate n { pc := BitVec.ofNat 57 (l.codebase + entry), scap := regs - 8 }

/-- What a preload entry of a KIND adds (R179). -/
def Preload.quantity (e : Preload) (t : Team) (g : Group) (n : Nat) : Nat :=
  match e.kind with
  | 1 => t.member
  | 2 => t.setSize
  | 3 => t.gridX
  | 4 => t.gridY
  | 5 => t.gridZ
  | 6 => t.teamId
  | 7 => g.role
  | 8 => g.roleIndex
  | 9 => n
  | _ => 0

/-- The s-registers at admission: zero, then the preload list in order (R179). -/
def Launch.startSregs (l : Launch) (t : Team) (g : Group) : Store Word :=
  l.preloads.foldl (fun r e =>
    if e.target / (if g.isGuide then 2 else 1) % 2 = 0 then r
    else if g.isGuide ∧ (e.kind = 7 ∨ e.kind = 8) then put r e.sreg 0xFFFFFFFF
    else put r e.sreg (e.value + BitVec.ofNat 32 (e.quantity t g l.teamGroups))) []

/-- A group or guide at admission. -/
def Launch.start (l : Launch) (t : Team) (tid : Nat) (guide : Bool) (index role roleIndex : Nat) : Group :=
  let r : Role := if guide then { entry := l.guideEntry, regs := 64, lanes := 1 } else (l.roles[role]?).getD {}
  let w := if guide then 1 else l.width
  let g : Group :=
    { team := tid, index := if guide then 2 ^ 32 - 1 else index, role := role, roleIndex := roleIndex, isGuide := guide, width := w
      caps := l.caps, tvec := BitVec.ofNat 57 l.ctx.handler, breakpoints := List.replicate 8 none
      arch := { lanes := l.startLanes r.entry r.regs w, slices := List.replicate (ceilDiv w 4) {} } }
  { g with arch := { g.arch with sregs := l.startSregs t g } }

/-- The groups of a team: role and index within it, role by role (R144). -/
def Launch.groupRoles (l : Launch) : List (Nat × Nat) :=
  l.roles.zipIdx.flatMap (fun (r : Role × Nat) => (List.range (r.1.lanes / l.width)).map (fun k => (r.2, k)))

/-- A core takes a team of a launch: the first of the launch there invalidates its instruction cache (R59). -/
def State.freshCode (s : State) (lid core : Nat) : State :=
  let l := lookD s.launches lid {}
  if l.cores.contains core then s
  else ({ s with launches := put s.launches lid { l with cores := core :: l.cores } } : State).onCore core (fun c => { c with icache := [] })

/-- One member of a set admitted to a core. -/
def State.addTeam (s : State) (lid teamId member n core sbase lprio : Nat) : State :=
  let l := lookD s.launches lid {}
  let tid := s.nextId
  let gs := l.groupRoles
  let t : Team :=
    { launch := lid, teamId := teamId, gridX := teamId % l.dimX, gridY := teamId / l.dimX % l.dimY, gridZ := teamId / (l.dimX * l.dimY)
      member := member, setSize := l.setSize, core := core, sbase := sbase, ssize := l.ssize, state := .resident, lprio := lprio
      ctx := l.ctx, cluster := n, codebase := l.codebase, groups := span (tid + 1) gs.length
      guide := if l.hasGuide then some (tid + 1 + gs.length) else none, seqs := [{}, {}, {}] }
  let groups := gs.zipIdx.foldl (fun g (e : (Nat × Nat) × Nat) => put g (tid + 1 + e.2) (l.start t tid false e.2 e.1.1 e.1.2)) s.groups
  let groups1 := if l.hasGuide then put groups (tid + 1 + gs.length) (l.start t tid true 0 0 0) else groups
  let s1 := { s with
    nextId := tid + gs.length + 2, teams := put s.teams tid t, groups := groups1
    mem := s.mem.clear (scratchLoc (core / 8) sbase) l.ssize }
  s1.freshCode lid core

/-- A set of a candidate admitted: its members, its queue's AGE, its process's virtual time (R378 to R380). -/
def State.admitSet (s : State) (p : Nat) (c : Candidate) (n : Nat) (picks : List (Nat × Nat)) : State :=
  let first := c.launch.nextTeam
  let s1 := s.setMode p n c.launch.fuse
  let s2 := picks.zipIdx.foldl (fun t (e : (Nat × Nat) × Nat) => t.addTeam c.lid (first + e.2) e.2 n e.1.1 e.1.2 c.prio) s1
  let s3 := { s2 with launches := alter s2.launches c.lid (fun l => { l with nextTeam := first + l.setSize }) }
  let w := 65536 / s.weight p c.launch.fn c.launch.ctx.proc
  ((s3.onQueue p c.queue (fun k => { k with age := 0 })).onPart p (fun q =>
    { q with
      rr := c.queue, ageSince := put q.ageSince c.queue s.clock
      vtime := put q.vtime c.launch.proc (lookD q.vtime c.launch.proc 0 + w) })).noteWork p c.queue

/-! ### Teams leaving and returning to a core (R56, R173, R353, R382) -/

/-- What a core holds for one team, and the core without it. -/
def Core.split (c : Core) (tid : Nat) : Core × Core :=
  let mine := match c.matrix with | some m => m.entry.team == tid | none => false
  let keep (l : List ForkEntry) (b : Bool) : List ForkEntry := l.filter (fun e => (e.team == tid) == b)
  ({ tiles := if mine then c.tiles else [], matrix := (c.matrix.filter (fun m => m.entry.team == tid)).map (fun m => { m with refill := true })
     chain := c.chain.filter (fun m => m.entry.team == tid), copy := c.copy.filter (fun m => m.entry.team == tid)
     matrixQ := keep c.matrixQ true, chainQ := keep c.chainQ true, copyQ := keep c.copyQ true
     slots := c.slots.filter (fun e => e.2.team == some tid) },
   { c with
     tiles := if mine then [] else c.tiles, matrix := c.matrix.filter (fun m => m.entry.team != tid)
     chain := c.chain.filter (fun m => m.entry.team != tid), copy := c.copy.filter (fun m => m.entry.team != tid)
     matrixQ := keep c.matrixQ false, chainQ := keep c.chainQ false, copyQ := keep c.copyQ false
     slots := c.slots.filter (fun e => e.2.team != some tid) })

/-- A core with a returning team's part. -/
def Core.join (c k : Core) : Core :=
  { c with
    tiles := if k.matrix.isSome then k.tiles else c.tiles, matrix := k.matrix.or c.matrix, chain := k.chain.or c.chain
    copy := k.copy.or c.copy, matrixQ := k.matrixQ ++ c.matrixQ, chainQ := k.chainQ ++ c.chainQ, copyQ := k.copyQ ++ c.copyQ
    slots := k.slots.foldl (fun t e => put t e.1 e.2) c.slots }

/-- Whether the engines of the resident teams of a test stand where a halt may find them (R173, R352). -/
def State.enginesStopped (s : State) (test : Team → Bool) : Bool :=
  s.ops.all (fun e => !e.2.midway || (match look s.teams e.2.team with | some t => t.state != .resident || !test t | none => true))

/-- Whether a core's RLT can take a returning team's live locks (R128, R353). -/
def State.rltTakes (s : State) (tid core : Nat) : Bool :=
  let n (copy : Bool) : Nat := (s.ops.filter (fun e => e.2.isCopy == copy && e.2.locked && decide (e.2.core < 512) &&
    (e.2.team == tid || (e.2.core == core && !s.parkedLock e.2)))).length
  decide (n true ≤ 64 ∧ n false ≤ 16)

/-- Whether a core's sequencers can take a returning team's programs. -/
def Core.canJoin (c k : Core) : Bool :=
  (k.matrix.isNone || c.matrix.isNone) && (k.chain.isNone || c.chain.isNone) && (k.copy.isNone || c.copy.isNone)

/-- The bytes of a team's allocation, by offset. -/
def State.scratchOf (s : State) (t : Team) : List (Nat × Byte) :=
  let loc := scratchLoc (t.core / 8) t.sbase
  (s.mem.bytes.filter (fun c => decide (loc ≤ c.1 ∧ c.1 < loc + t.ssize))).map (fun c => (c.1 - loc, c.2))

/-- A team's scratch bytes put away with it. -/
def State.stowScratch (s : State) (tid : Nat) : State :=
  let t := lookD s.teams tid {}
  { s with
    teams := alter s.teams tid (fun t => { t with saved := s.scratchOf t })
    mem := s.mem.clear (scratchLoc (t.core / 8) t.sbase) t.ssize }

/-- A team's scratch bytes put back. -/
def State.unstowScratch (s : State) (tid : Nat) : State :=
  let t := lookD s.teams tid {}
  let loc := scratchLoc (t.core / 8) t.sbase
  { s with
    teams := alter s.teams tid (fun t => { t with saved := [] })
    mem := (s.mem.clear loc t.ssize).setCells (t.saved.map (fun c => (loc + c.1, c.2))) }

/-- The members of the set a team belongs to. -/
def State.membersOf (s : State) (tid : Nat) : List (Nat × Team) :=
  let t := lookD s.teams tid {}
  s.teams.filter (fun e => e.2.launch == t.launch && e.2.teamId - e.2.member == t.teamId - t.member)

/-- Whether every unexited lane and guide of a team is parked on WAITC, with a monitor, and nothing of it is in flight. -/
def State.allOnWaitc (s : State) (t : Team) : Bool :=
  (t.groups ++ t.guide.toList).all (fun k =>
    match look s.groups k with
    | none => true
    | some g => g.unexited.all (fun i =>
        (g.lane i).park == some .waitc && s.monitors.any (fun m => m.gid == k && m.lane == i)))

/-- Whether the MSC slice of a line has a remote monitor for it, beside those of some lines: one it has, or one of its 256 free (R382). -/
def slotFree (lines : List Nat) (line : Nat) : Bool :=
  lines.contains line || decide ((lines.filter (fun k => channelOf (128 * k) == channelOf (128 * line))).length < 256)

/-- The lines of the remote monitors among some. -/
def remoteLines (ms : List Monitor) : List Nat := (ms.filter (·.remote)).foldl (fun l m => insertNat l m.line) []

/-- Monitors with those of some groups made remote, one after another, where their slices have room; the others are dropped. -/
def remoted (ms : List Monitor) (gids : List Nat) : List Monitor :=
  (ms.foldl (fun (a : List Monitor × List Nat) m =>
    if gids.contains m.gid then
      if slotFree a.2 m.line then (a.1 ++ [{ m with remote := true }], insertNat a.2 m.line) else a
    else (a.1 ++ [m], a.2)) ([], remoteLines ms)).1

/-- Whether every monitor of a set's lines finds a remote monitor (R382). -/
def State.monitorsFit (s : State) (gids : List Nat) : Bool := (remoted s.monitors gids).length == s.monitors.length

/-- Whether a waiting set of higher priority than a level finds no room (R381). -/
def State.needsRoom (s : State) (p lprio : Nat) : Bool :=
  (s.candidates p).any (fun c => decide (lprio < c.prio) && (s.place p c.launch c.launch.setSize (fun _ _ => true)).isNone)

/-- A process's EVICTAREA and EVICTLEN. -/
def State.evictArea (s : State) (c : Ctx) : Nat × Nat :=
  match s.procRecord c.part c.fn c.proc with
  | none => (0, 0)
  | some (loc, j) => ((s.readDWord j (loc + 32)).toNat, (s.readDWord j (loc + 40)).toNat)

/-- The parts of a process's eviction area that hold sets. -/
def State.evicted (s : State) (c : Ctx) : List (Nat × Nat) :=
  (s.teams.filter (fun e => (e.2.state == .evicted || e.2.state == .ready) && e.2.ctx.part == c.part && e.2.ctx.fn == c.fn &&
    e.2.ctx.proc == c.proc)).map (·.2.area)

/-- The pages of a byte range: their addresses, with the bytes of each. -/
def pagesOf (gpa n : Nat) : List (Nat × Nat) := (List.range (ceilDiv n 4096)).map (fun i => (gpa + 4096 * i, min 4096 (n - 4096 * i)))

/-- Where n bytes fit in a process's eviction area: at the lowest offset free of other sets, on pages that the CP can write. -/
def State.evictAt (s : State) (c : Ctx) (n : Nat) : Option Nat :=
  let a := s.evictArea c
  let taken := s.evicted c
  let free (o : Nat) : Bool := decide (o + n ≤ a.2) && taken.all (fun t => !overlap o n t.1 t.2)
  (((0 :: taken.map (fun t => ceilDiv (t.1 + t.2) 4096 * 4096)).filter free).foldl
    (fun (b : Option Nat) o => match b with | none => some o | some x => some (min x o)) none).filter
      (fun o => (pagesOf (a.1 + o) n).all (fun q => (s.gpaStore c.part c.fn q.1).isSome))

/-- A set's records written to the eviction area: how many bytes and which is not stated, for the layout of a record is not (R435). -/
def State.writeEvicted (s : State) (c : Ctx) (o n : Nat) : State :=
  (pagesOf ((s.evictArea c).1 + o) n).foldl (fun t q =>
    match t.gpaStore c.part c.fn q.1 with | some (loc, j) => t.storeFree loc j q.2 | none => t) s

/-- A set leaves its cores, for a part of the eviction area. -/
def State.evict (s : State) (ms : List (Nat × Team)) (area : Nat × Nat) : State :=
  let gids := ms.flatMap (fun e => e.2.groups ++ e.2.guide.toList)
  let first : Option Nat := (ms.head?).map (fun e => e.1)
  let s1 := { s with monitors := remoted s.monitors gids }
  ms.foldl (fun u e =>
    let c := (u.core e.2.core).split e.1
    let u1 := u.stowScratch e.1
    { u1 with
      stowed := put u1.stowed e.1 c.1, cores := put u1.cores e.2.core c.2
      teams := alter u1.teams e.1 (fun t => { t with state := .evicted, area := if first == some e.1 then area else (0, 0) }) }) s1

/-- EVICTION: a set all of whose lanes wait on WAITC gives way to a candidate of higher priority, if it fits in EVICTAREA
and its monitors in their slices (R381, R382). -/
def execEviction (p set : Nat) (s : State) : Out :=
  match look s.teams set with
  | none => .next s
  | some t =>
    let ms := s.membersOf set
    let live := ms.filter (fun e => e.2.state == .resident)
    let gids := live.flatMap (fun e => e.2.groups ++ e.2.guide.toList)
    let n := (Config.evictSize s.free).toNat
    if t.ctx.part = p ∧ s.teamRuns set ∧ live.all (fun e => s.allOnWaitc e.2) ∧
        s.enginesStopped (fun u => u.launch == t.launch && u.teamId - u.member == t.teamId - t.member) ∧ s.monitorsFit gids ∧
        s.needsRoom p t.lprio then
      match s.evictAt t.ctx n with
      | some o => .next (({ s with free := s.free + 1 } : State).writeEvicted t.ctx o n |>.evict live (o, n))
      | none => .next s
    else .next s

/-- A range of scratch moved from one allocation to another. -/
def Range.relocate (r : Range) (mv : List (Nat × Nat × Nat)) : Range :=
  if r.scratch then
    match mv.find? (fun m => decide (m.1 ≤ r.base ∧ r.base < m.1 + max m.2.1 1)) with
    | some m => { r with base := r.base - m.1 + m.2.2 }
    | none => r
  else r

/-- A set that is READY returns: each member on its new core, its operations with it; its lanes re-execute their WAITC. -/
def State.readmit (s : State) (p : Nat) (ms : List (Nat × Team)) (n : Nat) (picks : List (Nat × Nat)) : State :=
  let l := lookD s.launches ((ms.head?).map (fun e => e.2.launch) |>.getD 0) {}
  let moves := (ms.zip picks).map (fun (e : (Nat × Team) × (Nat × Nat)) =>
    (scratchLoc (e.1.2.core / 8) e.1.2.sbase, e.1.2.ssize, scratchLoc (e.2.1 / 8) e.2.2))
  let gids := ms.flatMap (fun e => e.2.groups ++ e.2.guide.toList)
  let s1 := s.setMode p n l.fuse
  let s2 := { s1 with
    monitors := s1.monitors.filter (fun m => !gids.contains m.gid)
    groups := s1.groups.map (fun e => if gids.contains e.1 then
        (e.1, { e.2 with arch := e.2.arch.wake (fun _ l => if l.park = some .waitc then { l with park := none } else l) })
      else e) }
  (ms.zip picks).foldl (fun u (e : (Nat × Team) × (Nat × Nat)) =>
    let tid := e.1.1
    let u1 := { u with
      teams := alter u.teams tid (fun t => { t with state := .resident, core := e.2.1, sbase := e.2.2, cluster := n, area := (0, 0) })
      cores := put u.cores e.2.1 ((u.core e.2.1).join (lookD u.stowed tid {})), stowed := del u.stowed tid
      ops := mapAll u.ops (fun o => if o.team = tid then
          { o with core := if o.core < 512 then e.2.1 else o.core, srcs := o.srcs.map (fun (r : Range) => r.relocate moves),
                   dsts := o.dsts.map (fun (r : Range) => r.relocate moves) }
        else o) }
    (u1.unstowScratch tid).freshCode e.1.2.launch e.2.1) s2

/-! ### ADMISSION -/

/-- What the CP may place next: a READY set, or a set of a candidate. -/
inductive Placing where
  | ready (ms : List (Nat × Team))
  | fresh (c : Candidate)
  deriving DecidableEq, Repr

/-- The READY sets of the running function, each by its members, highest LPRIO first. -/
def State.readySets (s : State) (p : Nat) : List (Nat × List (Nat × Team)) :=
  let firsts := s.teams.filter (fun e =>
    e.2.state == .ready && e.2.ctx.part == p && (s.part p).running == some e.2.ctx.fn &&
      (((s.membersOf e.1).filter (fun m => m.2.state == .ready)).head?).map (fun m => m.1) == some e.1)
  firsts.foldl (fun l e =>
    insertBy (fun a b => decide (b.1 < a.1)) l
      (e.2.lprio, (s.membersOf e.1).filter (fun m => m.2.state != .retired))) []

/-- The order in which the CP tries to place sets: a READY set before the waiting sets of lower LPRIO (R381). -/
def placingOrder (ready : List (Nat × List (Nat × Team))) (cs : List Candidate) : List Placing :=
  match cs with
  | [] => ready.map (fun r => .ready r.2)
  | c :: rest =>
    (ready.filter (fun r => decide (c.prio < r.1))).map (fun r => Placing.ready r.2) ++
      [Placing.fresh c] ++ placingOrder (ready.filter (fun r => !decide (c.prio < r.1))) rest

/-- Whether a function's descriptor has S2EN = 0 with FN not 0, for which admission is refused (R15). -/
def State.fnRefused (s : State) (p fn : Nat) : Bool := fn != 0 && !(s.readDWord 0 (s.fnRecord p fn)).getLsbD 0

/-- A set placed, where it fits and its function may be admitted; one refused keeps its place (R15; DEDUCED). -/
def State.tryPlace (s : State) (p : Nat) (x : Placing) : Option State :=
  match x with
  | .fresh c => if s.fnRefused p c.launch.fn then none else (s.place p c.launch c.launch.setSize (fun _ _ => true)).map (fun r => s.admitSet p c r.1 r.2)
  | .ready ms =>
    let l := lookD s.launches ((ms.head?).map (fun e => e.2.launch) |>.getD 0) {}
    let ok (i c : Nat) : Bool := match ms[i]? with | some e => (s.core c).canJoin (lookD s.stowed e.1 {}) && s.rltTakes e.1 c | none => true
    (s.place p l ms.length ok).map (fun r => s.readmit p ms r.1 r.2)

/-- ADMISSION: the CP places one team set, the first in order that fits (R378, R380, R381). -/
def execAdmission (p : Nat) (s : State) : Out :=
  let s1 := match (s.part p).running with
    | some _ => s
    | none => match s.nextFunction p none with | some f => s.runFunction p f | none => s
  let q := s1.part p
  match q.running with
  | none => .next s1
  | some _ =>
    if q.switch = .halted ∨ q.switch = .exchanged ∨ q.migHeld then .next s1
    else
      let s2 := s1.noteProcs p
      .next (((placingOrder (s2.readySets p) (s2.arbitrated p)).findSome? (s2.tryPlace p)).getD s2)

end Sys2Proof.Machine
end

