-- ==== Sys2Proof/Machine/IntAlu.lean ====
section
/-! DEFINITION. Integer, move and packing instructions (R240 to R244, R252, R253). -/

namespace Sys2Proof.Machine

/-- The head of a form with latency and FSET. -/
def head (lat : Nat) (f : Fin 16) (w : Fin 8) : Head := { lat := lat, flag := f.val, stall := w.val }

/-- The head of a form without FSET. -/
def headU (lat : Nat) (w : Fin 8) : Head := { lat := lat, stall := w.val }

/-- The head of a 16-bit form (R212). -/
def head16 (lat : Nat) : Head := { lat := lat, short := true }

/-- The high word of the signed product (R240). -/
def mulHigh (x y : Word) : Word := ((x.signExtend 64 * y.signExtend 64) >>> 32).truncate 32

/-- The high word of the unsigned product. -/
def mulHighUns (x y : Word) : Word := ((x.zeroExtend 64 * y.zeroExtend 64) >>> 32).truncate 32

/-- The count of leading zero bits; 32 for 0. -/
def leadingZeros (x : Word) : Word := if x = 0 then 32 else BitVec.ofNat 32 (31 - Nat.log2 x.toNat)

/-- The count of one bits. -/
def oneBits (x : Word) : Word := BitVec.ofNat 32 ((List.range 32).filter (fun i => x.getLsbD i)).length

/-- Bit i to bit 31 - i. -/
def reverseBits (x : Word) : Word :=
  (List.range 32).foldl (fun r i => if x.getLsbD i then r ||| (1#32 <<< (31 - i)) else r) 0

/-- BFE and BFE.uns (R241): position b[4:0], length b[12:8]. -/
def extractField (x b : Word) (signed : Bool) : Word :=
  let pos := b.toNat % 32
  let len := b.toNat / 2 ^ 8 % 32
  if len = 0 then 0
  else
    let wide := if signed then x.signExtend 64 else x.zeroExtend 64
    let field := wide.toNat / 2 ^ pos % 2 ^ len
    if signed ∧ 2 ^ (len - 1) ≤ field then BitVec.ofNat 32 (2 ^ 32 - 2 ^ len + field) else BitVec.ofNat 32 field

/-- BFI (R241): the low bits of a into d; bits above bit 31 are dropped. -/
def insertField (x b z : Word) : Word :=
  let pos := b.toNat % 32
  let len := b.toNat / 2 ^ 8 % 32
  let m : Word := BitVec.ofNat 32 ((2 ^ len - 1) * 2 ^ pos)
  (z &&& ~~~m) ||| ((x <<< pos) &&& m)

/-- CMP's conditions (R242). -/
def compareInt (c : Nat) (x y : Word) : Bool :=
  match c with
  | 0 => x == y
  | 1 => x != y
  | 2 => x.slt y
  | 3 => x.sle y
  | 4 => y.slt x
  | 5 => y.sle x
  | 6 => x.ult y
  | _ => x.ule y

/-- UNPK's selection (R243): [4] sign-extend, [3] half, [2:0] element. -/
def unpack (e : Nat) (x : Word) : Word :=
  let n := if e / 8 % 2 = 1 then 16 else 8
  let field := x.toNat / 2 ^ (n * (e % 8)) % 2 ^ n
  if e / 16 = 1 ∧ 2 ^ (n - 1) ≤ field then BitVec.ofNat 32 (2 ^ 32 - 2 ^ n + field) else BitVec.ofNat 32 field

/-- A BF16 immediate widened exactly to FP32 (R219). -/
def bf16Imm (i : BitVec 16) : DWord := BitVec.ofNat 64 (i.toNat * 2 ^ 16)

/-- A 16-bit immediate in both halves. -/
def twice (i : BitVec 16) : DWord := BitVec.ofNat 64 (i.toNat * 2 ^ 16 + i.toNat)

/-- d := p ? a : b in every active lane (R242). -/
def choose (h : Head) (p d : Nat) (a b : Opnd) (s : State) : Out :=
  issue { h.form [d] [a, b] with pr := [p] }
    (fun x => x.commit { v := fun i => [(d, if x.p i p then x.get32 0 i a else x.get32 1 i b)] }) s

/-- rd := rs as the 16-bit MOV does (R212); rd is not read. -/
def move16 (d r : Nat) : State → Out := lane3 (head16 2) d (.v r) (.imm 0) (.imm 0) (fun x _ _ => x)

/-- Add (R240). -/
def execAdd (d a b : Fin 32) (f : Fin 16) (w : Fin 8) : State → Out :=
  lane3 (head 2 f w) d.val (.v a.val) (.v b.val) (.imm 0) (fun x y _ => x + y)

/-- Add with an s-register operand (R240, R252). -/
def execAddU (d a : Fin 32) (b : Fin 256) (w : Fin 8) : State → Out :=
  lane3 (headU 2 w) d.val (.v a.val) (.s b.val) (.imm 0) (fun x y _ => x + y)

/-- Add with a sign-extended immediate (R240, R219). -/
def execAddI (d : Fin 32) (i : BitVec 16) (w : Fin 8) : State → Out :=
  lane3 (headU 2 w) d.val (.v d.val) (.imm (i.signExtend 64)) (.imm 0) (fun x y _ => x + y)

/-- Add, 16-bit form (R240, R212). -/
def execAddA16 (d r : Fin 32) : State → Out :=
  lane3 (head16 2) d.val (.v d.val) (.v r.val) (.imm 0) (fun x y _ => x + y)

/-- Sub (R240). -/
def execSub (d a b : Fin 32) (f : Fin 16) (w : Fin 8) : State → Out :=
  lane3 (head 2 f w) d.val (.v a.val) (.v b.val) (.imm 0) (fun x y _ => x - y)

/-- Sub with an s-register operand (R240, R252). -/
def execSubU (d a : Fin 32) (b : Fin 256) (w : Fin 8) : State → Out :=
  lane3 (headU 2 w) d.val (.v a.val) (.s b.val) (.imm 0) (fun x y _ => x - y)

/-- Sub, 16-bit form (R240, R212). -/
def execSubA16 (d r : Fin 32) : State → Out :=
  lane3 (head16 2) d.val (.v d.val) (.v r.val) (.imm 0) (fun x y _ => x - y)

/-- Mul (R240). -/
def execMul (d a b : Fin 32) (f : Fin 16) (w : Fin 8) : State → Out :=
  lane3 (head 4 f w) d.val (.v a.val) (.v b.val) (.imm 0) (fun x y _ => x * y)

/-- Mul with an s-register operand (R240, R252). -/
def execMulU (d a : Fin 32) (b : Fin 256) (w : Fin 8) : State → Out :=
  lane3 (headU 4 w) d.val (.v a.val) (.s b.val) (.imm 0) (fun x y _ => x * y)

/-- Mul with a sign-extended immediate (R240, R219). -/
def execMulI (d : Fin 32) (i : BitVec 16) (w : Fin 8) : State → Out :=
  lane3 (headU 4 w) d.val (.v d.val) (.imm (i.signExtend 64)) (.imm 0) (fun x y _ => x * y)

/-- Mul, 16-bit form (R240, R212). -/
def execMulA16 (d r : Fin 32) : State → Out :=
  lane3 (head16 4) d.val (.v d.val) (.v r.val) (.imm 0) (fun x y _ => x * y)

/-- Mulhi (R240). -/
def execMulhi (d a b : Fin 32) (f : Fin 16) (w : Fin 8) : State → Out :=
  lane3 (head 4 f w) d.val (.v a.val) (.v b.val) (.imm 0) (fun x y _ => mulHigh x y)

/-- Mulhi with an s-register operand (R240, R252). -/
def execMulhiU (d a : Fin 32) (b : Fin 256) (w : Fin 8) : State → Out :=
  lane3 (headU 4 w) d.val (.v a.val) (.s b.val) (.imm 0) (fun x y _ => mulHigh x y)

/-- MulhiUns (R240). -/
def execMulhiUns (d a b : Fin 32) (f : Fin 16) (w : Fin 8) : State → Out :=
  lane3 (head 4 f w) d.val (.v a.val) (.v b.val) (.imm 0) (fun x y _ => mulHighUns x y)

/-- MulhiUns with an s-register operand (R240, R252). -/
def execMulhiUnsU (d a : Fin 32) (b : Fin 256) (w : Fin 8) : State → Out :=
  lane3 (headU 4 w) d.val (.v a.val) (.s b.val) (.imm 0) (fun x y _ => mulHighUns x y)

/-- Mad (R240). -/
def execMad (d a b : Fin 32) (f : Fin 16) (w : Fin 8) : State → Out :=
  lane3 (head 4 f w) d.val (.v a.val) (.v b.val) (.v d.val) (fun x y z => x * y + z)

/-- Mad with an s-register operand (R240, R252). -/
def execMadU (d a : Fin 32) (b : Fin 256) (w : Fin 8) : State → Out :=
  lane3 (headU 4 w) d.val (.v a.val) (.s b.val) (.v d.val) (fun x y z => x * y + z)

/-- And (R240). -/
def execAnd (d a b : Fin 32) (f : Fin 16) (w : Fin 8) : State → Out :=
  lane3 (head 2 f w) d.val (.v a.val) (.v b.val) (.imm 0) (fun x y _ => x &&& y)

/-- And with an s-register operand (R240, R252). -/
def execAndU (d a : Fin 32) (b : Fin 256) (w : Fin 8) : State → Out :=
  lane3 (headU 2 w) d.val (.v a.val) (.s b.val) (.imm 0) (fun x y _ => x &&& y)

/-- And with a sign-extended immediate (R240, R219). -/
def execAndI (d : Fin 32) (i : BitVec 16) (w : Fin 8) : State → Out :=
  lane3 (headU 2 w) d.val (.v d.val) (.imm (i.signExtend 64)) (.imm 0) (fun x y _ => x &&& y)

/-- And, 16-bit form (R240, R212). -/
def execAndA16 (d r : Fin 32) : State → Out :=
  lane3 (head16 2) d.val (.v d.val) (.v r.val) (.imm 0) (fun x y _ => x &&& y)

/-- Or (R240). -/
def execOr (d a b : Fin 32) (f : Fin 16) (w : Fin 8) : State → Out :=
  lane3 (head 2 f w) d.val (.v a.val) (.v b.val) (.imm 0) (fun x y _ => x ||| y)

/-- Or with an s-register operand (R240, R252). -/
def execOrU (d a : Fin 32) (b : Fin 256) (w : Fin 8) : State → Out :=
  lane3 (headU 2 w) d.val (.v a.val) (.s b.val) (.imm 0) (fun x y _ => x ||| y)

/-- Or with a sign-extended immediate (R240, R219). -/
def execOrI (d : Fin 32) (i : BitVec 16) (w : Fin 8) : State → Out :=
  lane3 (headU 2 w) d.val (.v d.val) (.imm (i.signExtend 64)) (.imm 0) (fun x y _ => x ||| y)

/-- Or, 16-bit form (R240, R212). -/
def execOrA16 (d r : Fin 32) : State → Out :=
  lane3 (head16 2) d.val (.v d.val) (.v r.val) (.imm 0) (fun x y _ => x ||| y)

/-- Xor (R240). -/
def execXor (d a b : Fin 32) (f : Fin 16) (w : Fin 8) : State → Out :=
  lane3 (head 2 f w) d.val (.v a.val) (.v b.val) (.imm 0) (fun x y _ => x ^^^ y)

/-- Xor with an s-register operand (R240, R252). -/
def execXorU (d a : Fin 32) (b : Fin 256) (w : Fin 8) : State → Out :=
  lane3 (headU 2 w) d.val (.v a.val) (.s b.val) (.imm 0) (fun x y _ => x ^^^ y)

/-- Xor with a sign-extended immediate (R240, R219). -/
def execXorI (d : Fin 32) (i : BitVec 16) (w : Fin 8) : State → Out :=
  lane3 (headU 2 w) d.val (.v d.val) (.imm (i.signExtend 64)) (.imm 0) (fun x y _ => x ^^^ y)

/-- Xor, 16-bit form (R240, R212). -/
def execXorA16 (d r : Fin 32) : State → Out :=
  lane3 (head16 2) d.val (.v d.val) (.v r.val) (.imm 0) (fun x y _ => x ^^^ y)

/-- Not (R241). -/
def execNot (d a : Fin 32) (f : Fin 16) (w : Fin 8) : State → Out :=
  lane3 (head 2 f w) d.val (.v a.val) (.imm 0) (.imm 0) (fun x _ _ => ~~~x)

/-- Not with an s-register operand (R241, R252). -/
def execNotU (d : Fin 32) (b : Fin 256) (w : Fin 8) : State → Out :=
  lane3 (headU 2 w) d.val (.s b.val) (.imm 0) (.imm 0) (fun x _ _ => ~~~x)

/-- Shl (R240). -/
def execShl (d a b : Fin 32) (f : Fin 16) (w : Fin 8) : State → Out :=
  lane3 (head 2 f w) d.val (.v a.val) (.v b.val) (.imm 0) (fun x y _ => x <<< (y.toNat % 32))

/-- Shl with an s-register operand (R240, R252). -/
def execShlU (d a : Fin 32) (b : Fin 256) (w : Fin 8) : State → Out :=
  lane3 (headU 2 w) d.val (.v a.val) (.s b.val) (.imm 0) (fun x y _ => x <<< (y.toNat % 32))

/-- Shl by an immediate count (R240, R219). -/
def execShlI (d i : Fin 32) (w : Fin 8) : State → Out :=
  lane3 (headU 2 w) d.val (.v d.val) (.imm (BitVec.ofNat 64 i.val)) (.imm 0) (fun x y _ => x <<< (y.toNat % 32))

/-- Shl, 16-bit form (R240, R212). -/
def execShlA16 (d r : Fin 32) : State → Out :=
  lane3 (head16 2) d.val (.v d.val) (.v r.val) (.imm 0) (fun x y _ => x <<< (y.toNat % 32))

/-- Shr (R240). -/
def execShr (d a b : Fin 32) (f : Fin 16) (w : Fin 8) : State → Out :=
  lane3 (head 2 f w) d.val (.v a.val) (.v b.val) (.imm 0) (fun x y _ => x >>> (y.toNat % 32))

/-- Shr with an s-register operand (R240, R252). -/
def execShrU (d a : Fin 32) (b : Fin 256) (w : Fin 8) : State → Out :=
  lane3 (headU 2 w) d.val (.v a.val) (.s b.val) (.imm 0) (fun x y _ => x >>> (y.toNat % 32))

/-- Shr by an immediate count (R240, R219). -/
def execShrI (d i : Fin 32) (w : Fin 8) : State → Out :=
  lane3 (headU 2 w) d.val (.v d.val) (.imm (BitVec.ofNat 64 i.val)) (.imm 0) (fun x y _ => x >>> (y.toNat % 32))

/-- Shr, 16-bit form (R240, R212). -/
def execShrA16 (d r : Fin 32) : State → Out :=
  lane3 (head16 2) d.val (.v d.val) (.v r.val) (.imm 0) (fun x y _ => x >>> (y.toNat % 32))

/-- Sar (R240). -/
def execSar (d a b : Fin 32) (f : Fin 16) (w : Fin 8) : State → Out :=
  lane3 (head 2 f w) d.val (.v a.val) (.v b.val) (.imm 0) (fun x y _ => x.sshiftRight (y.toNat % 32))

/-- Sar with an s-register operand (R240, R252). -/
def execSarU (d a : Fin 32) (b : Fin 256) (w : Fin 8) : State → Out :=
  lane3 (headU 2 w) d.val (.v a.val) (.s b.val) (.imm 0) (fun x y _ => x.sshiftRight (y.toNat % 32))

/-- Sar by an immediate count (R240, R219). -/
def execSarI (d i : Fin 32) (w : Fin 8) : State → Out :=
  lane3 (headU 2 w) d.val (.v d.val) (.imm (BitVec.ofNat 64 i.val)) (.imm 0) (fun x y _ => x.sshiftRight (y.toNat % 32))

/-- Min (R240). -/
def execMin (d a b : Fin 32) (f : Fin 16) (w : Fin 8) : State → Out :=
  lane3 (head 2 f w) d.val (.v a.val) (.v b.val) (.imm 0) (fun x y _ => if x.slt y then x else y)

/-- Min with an s-register operand (R240, R252). -/
def execMinU (d a : Fin 32) (b : Fin 256) (w : Fin 8) : State → Out :=
  lane3 (headU 2 w) d.val (.v a.val) (.s b.val) (.imm 0) (fun x y _ => if x.slt y then x else y)

/-- Min, 16-bit form (R240, R212). -/
def execMinA16 (d r : Fin 32) : State → Out :=
  lane3 (head16 2) d.val (.v d.val) (.v r.val) (.imm 0) (fun x y _ => if x.slt y then x else y)

/-- MinUns (R240). -/
def execMinUns (d a b : Fin 32) (f : Fin 16) (w : Fin 8) : State → Out :=
  lane3 (head 2 f w) d.val (.v a.val) (.v b.val) (.imm 0) (fun x y _ => if x.ult y then x else y)

/-- MinUns with an s-register operand (R240, R252). -/
def execMinUnsU (d a : Fin 32) (b : Fin 256) (w : Fin 8) : State → Out :=
  lane3 (headU 2 w) d.val (.v a.val) (.s b.val) (.imm 0) (fun x y _ => if x.ult y then x else y)

/-- Max (R240). -/
def execMax (d a b : Fin 32) (f : Fin 16) (w : Fin 8) : State → Out :=
  lane3 (head 2 f w) d.val (.v a.val) (.v b.val) (.imm 0) (fun x y _ => if y.slt x then x else y)

/-- Max with an s-register operand (R240, R252). -/
def execMaxU (d a : Fin 32) (b : Fin 256) (w : Fin 8) : State → Out :=
  lane3 (headU 2 w) d.val (.v a.val) (.s b.val) (.imm 0) (fun x y _ => if y.slt x then x else y)

/-- Max, 16-bit form (R240, R212). -/
def execMaxA16 (d r : Fin 32) : State → Out :=
  lane3 (head16 2) d.val (.v d.val) (.v r.val) (.imm 0) (fun x y _ => if y.slt x then x else y)

/-- MaxUns (R240). -/
def execMaxUns (d a b : Fin 32) (f : Fin 16) (w : Fin 8) : State → Out :=
  lane3 (head 2 f w) d.val (.v a.val) (.v b.val) (.imm 0) (fun x y _ => if y.ult x then x else y)

/-- MaxUns with an s-register operand (R240, R252). -/
def execMaxUnsU (d a : Fin 32) (b : Fin 256) (w : Fin 8) : State → Out :=
  lane3 (headU 2 w) d.val (.v a.val) (.s b.val) (.imm 0) (fun x y _ => if y.ult x then x else y)

/-- Abs (R241). -/
def execAbs (d a : Fin 32) (f : Fin 16) (w : Fin 8) : State → Out :=
  lane3 (head 2 f w) d.val (.v a.val) (.imm 0) (.imm 0) (fun x _ _ => if x.msb then -x else x)

/-- Abs with an s-register operand (R241, R252). -/
def execAbsU (d : Fin 32) (b : Fin 256) (w : Fin 8) : State → Out :=
  lane3 (headU 2 w) d.val (.s b.val) (.imm 0) (.imm 0) (fun x _ _ => if x.msb then -x else x)

/-- Clz (R241). -/
def execClz (d a : Fin 32) (f : Fin 16) (w : Fin 8) : State → Out :=
  lane3 (head 2 f w) d.val (.v a.val) (.imm 0) (.imm 0) (fun x _ _ => leadingZeros x)

/-- Clz with an s-register operand (R241, R252). -/
def execClzU (d : Fin 32) (b : Fin 256) (w : Fin 8) : State → Out :=
  lane3 (headU 2 w) d.val (.s b.val) (.imm 0) (.imm 0) (fun x _ _ => leadingZeros x)

/-- Popc (R241). -/
def execPopc (d a : Fin 32) (f : Fin 16) (w : Fin 8) : State → Out :=
  lane3 (head 2 f w) d.val (.v a.val) (.imm 0) (.imm 0) (fun x _ _ => oneBits x)

/-- Popc with an s-register operand (R241, R252). -/
def execPopcU (d : Fin 32) (b : Fin 256) (w : Fin 8) : State → Out :=
  lane3 (headU 2 w) d.val (.s b.val) (.imm 0) (.imm 0) (fun x _ _ => oneBits x)

/-- Brev (R241). -/
def execBrev (d a : Fin 32) (f : Fin 16) (w : Fin 8) : State → Out :=
  lane3 (head 2 f w) d.val (.v a.val) (.imm 0) (.imm 0) (fun x _ _ => reverseBits x)

/-- Brev with an s-register operand (R241, R252). -/
def execBrevU (d : Fin 32) (b : Fin 256) (w : Fin 8) : State → Out :=
  lane3 (headU 2 w) d.val (.s b.val) (.imm 0) (.imm 0) (fun x _ _ => reverseBits x)

/-- Bfe (R241). -/
def execBfe (d a b : Fin 32) (f : Fin 16) (w : Fin 8) : State → Out :=
  lane3 (head 2 f w) d.val (.v a.val) (.v b.val) (.imm 0) (fun x y _ => extractField x y true)

/-- Bfe with an s-register operand (R241, R252). -/
def execBfeU (d a : Fin 32) (b : Fin 256) (w : Fin 8) : State → Out :=
  lane3 (headU 2 w) d.val (.v a.val) (.s b.val) (.imm 0) (fun x y _ => extractField x y true)

/-- BfeUns (R241). -/
def execBfeUns (d a b : Fin 32) (f : Fin 16) (w : Fin 8) : State → Out :=
  lane3 (head 2 f w) d.val (.v a.val) (.v b.val) (.imm 0) (fun x y _ => extractField x y false)

/-- BfeUns with an s-register operand (R241, R252). -/
def execBfeUnsU (d a : Fin 32) (b : Fin 256) (w : Fin 8) : State → Out :=
  lane3 (headU 2 w) d.val (.v a.val) (.s b.val) (.imm 0) (fun x y _ => extractField x y false)

/-- Bfi (R241). -/
def execBfi (d a b : Fin 32) (f : Fin 16) (w : Fin 8) : State → Out :=
  lane3 (head 2 f w) d.val (.v a.val) (.v b.val) (.v d.val) (fun x y z => insertField x y z)

/-- Bfi with an s-register operand (R241, R252). -/
def execBfiU (d a : Fin 32) (b : Fin 256) (w : Fin 8) : State → Out :=
  lane3 (headU 2 w) d.val (.v a.val) (.s b.val) (.v d.val) (fun x y z => insertField x y z)

/-- SEL.p1 to SEL.p3 (R242): the predicate chooses a or b. -/
def execSel (p : Fin 4) (d a b : Fin 32) (f : Fin 16) (w : Fin 8) : State → Out :=
  choose (head 2 f w) p.val d.val (.v a.val) (.v b.val)

/-- SEL with an s-register operand (R242, R252). -/
def execSelU (p : Fin 4) (d a : Fin 32) (b : Fin 256) (w : Fin 8) : State → Out :=
  choose (headU 2 w) p.val d.val (.v a.val) (.s b.val)

/-- CMP (R242). -/
def execCmp (c : Fin 8) (p : Fin 4) (a b : Fin 32) (f : Fin 16) (w : Fin 8) : State → Out :=
  test2 (head 2 f w) p.val (.v a.val) (.v b.val) (fun _ x y => (compareInt c.val x y, 0))

/-- CMP with an s-register operand (R242, R252). -/
def execCmpU (c : Fin 8) (p : Fin 4) (a : Fin 32) (b : Fin 256) (w : Fin 8) : State → Out :=
  test2 (headU 2 w) p.val (.v a.val) (.s b.val) (fun _ x y => (compareInt c.val x y, 0))

/-- MOV (R243). -/
def execMov (d a : Fin 32) (f : Fin 16) (w : Fin 8) : State → Out :=
  lane3 (head 2 f w) d.val (.v a.val) (.imm 0) (.imm 0) (fun x _ _ => x)

/-- MOV of an s-register (R243). -/
def execMovU (d : Fin 32) (b : Fin 256) (w : Fin 8) : State → Out :=
  lane3 (headU 2 w) d.val (.s b.val) (.imm 0) (.imm 0) (fun x _ _ => x)

/-- MOV of a sign-extended immediate (R219, R243). -/
def execMovI (d : Fin 32) (i : BitVec 16) (w : Fin 8) : State → Out :=
  lane3 (headU 2 w) d.val (.imm (i.signExtend 64)) (.imm 0) (.imm 0) (fun x _ _ => x)

/-- MOV.hi (R243): the high half replaced, the low half kept. -/
def execMovHi (d : Fin 32) (i : BitVec 16) (w : Fin 8) : State → Out :=
  lane3 (headU 2 w) d.val (.v d.val) (.imm (i.zeroExtend 64)) (.imm 0) (fun x y _ => y.truncate 16 ++ x.truncate 16)

/-- MOV.f32 (R219): a BF16 immediate widened exactly. -/
def execMovF32 (d : Fin 32) (i : BitVec 16) (w : Fin 8) : State → Out :=
  lane3 (headU 2 w) d.val (.imm (bf16Imm i)) (.imm 0) (.imm 0) (fun x _ _ => x)

/-- MOV.e4m3x2 and MOV.e5m2x2 (R219): the immediate in both halves. -/
def execMovE4m3x2 (d : Fin 32) (i : BitVec 16) (w : Fin 8) : State → Out :=
  lane3 (headU 2 w) d.val (.imm (twice i)) (.imm 0) (.imm 0) (fun x _ _ => x)

/-- MOV, 16-bit form (R212): rd := rs. -/
def execMovA16 (d r : Fin 32) : State → Out :=
  move16 d.val r.val

/-- PACK (R243): b's low half over a's. -/
def execPack (d a b : Fin 32) (f : Fin 16) (w : Fin 8) : State → Out :=
  lane3 (head 2 f w) d.val (.v a.val) (.v b.val) (.imm 0) (fun x y _ => y.truncate 16 ++ x.truncate 16)

/-- PACK with an s-register operand (R243, R252). -/
def execPackU (d a : Fin 32) (b : Fin 256) (w : Fin 8) : State → Out :=
  lane3 (headU 2 w) d.val (.v a.val) (.s b.val) (.imm 0) (fun x y _ => y.truncate 16 ++ x.truncate 16)

/-- UNPK (R243): the selector is a constant of the encoding. -/
def execUnpk (e d a : Fin 32) (f : Fin 16) (w : Fin 8) : State → Out :=
  lane3 (head 2 f w) d.val (.v a.val) (.imm 0) (.imm 0) (fun x _ _ => unpack e.val x)

/-- ADD64 (R244). -/
def execAdd64 (d a b : Fin 32) (f : Fin 16) (w : Fin 8) : State → Out :=
  wide3 (head 4 f w) d.val (.vv a.val) (.vv b.val) (.imm 0) (fun x y _ => x + y)

/-- ADD64 with an s-register pair (R244, R252). -/
def execAdd64U (d a : Fin 32) (b : Fin 256) (w : Fin 8) : State → Out :=
  wide3 (headU 4 w) d.val (.vv a.val) (.ss b.val) (.imm 0) (fun x y _ => x + y)

/-- SUB64 (R244). -/
def execSub64 (d a b : Fin 32) (f : Fin 16) (w : Fin 8) : State → Out :=
  wide3 (head 4 f w) d.val (.vv a.val) (.vv b.val) (.imm 0) (fun x y _ => x - y)

/-- SUB64 with an s-register pair (R244, R252). -/
def execSub64U (d a : Fin 32) (b : Fin 256) (w : Fin 8) : State → Out :=
  wide3 (headU 4 w) d.val (.vv a.val) (.ss b.val) (.imm 0) (fun x y _ => x - y)

/-- MAD64 (R244). -/
def execMad64 (d a b : Fin 32) (f : Fin 16) (w : Fin 8) : State → Out :=
  wide3 (head 5 f w) d.val (.vv a.val) (.vv b.val) (.vv d.val) (fun x y z => x * y + z)

/-- MAD64 with an s-register pair (R244, R252). -/
def execMad64U (d a : Fin 32) (b : Fin 256) (w : Fin 8) : State → Out :=
  wide3 (headU 5 w) d.val (.vv a.val) (.ss b.val) (.vv d.val) (fun x y z => x * y + z)

/-- The uniform move (R253): s(t) takes v(a) of the lowest active lane. -/
def execMovS (t : Fin 256) (a : Fin 32) (w : Fin 8) : State → Out :=
  issue { vr := [a.val], sw := [t.val], lat := 6, stall := w.val }
    (fun x => x.commit { sregs := [(t.val, x.v 0 x.low a.val)] })

end Sys2Proof.Machine
end

