-- ==== Sys2Proof/Machine/FloatAlu.lean ====
section
/-! DEFINITION. Floating-point, packed, dot-product and conversion instructions (R245 to R252). -/

namespace Sys2Proof.Machine

/-- The head of a form of variable latency (R215). -/
def headV (f : Fin 16) (w : Fin 8) : Head := { lat := 0, flag := f.val, stall := w.val, varLat := true }

/-- A result in 32 bits. -/
def inWord (r : Nat × Nat) : Word × Nat := (BitVec.ofNat 32 r.1, r.2)

/-- FADD (R245). -/
def fpAdd (c : BitVec 16) (x y _z : Word) : Word × Nat := inWord (Fmt.fp32.addW (fpMode c) (fpFtz c) x.toNat y.toNat)

/-- FSUB (R245). -/
def fpSub (c : BitVec 16) (x y _z : Word) : Word × Nat := inWord (Fmt.fp32.subW (fpMode c) (fpFtz c) x.toNat y.toNat)

/-- FMUL (R245). -/
def fpMul (c : BitVec 16) (x y _z : Word) : Word × Nat := inWord (Fmt.fp32.mulW (fpMode c) (fpFtz c) x.toNat y.toNat)

/-- FFMA (R245). -/
def fpFma (c : BitVec 16) (x y z : Word) : Word × Nat :=
  inWord (Fmt.fp32.fmaW (fpMode c) (fpFtz c) x.toNat y.toNat z.toNat)

/-- FMIN (R245). -/
def fpMin (c : BitVec 16) (x y _z : Word) : Word × Nat := inWord (Fmt.fp32.minmaxW (fpFtz c) false x.toNat y.toNat, 0)

/-- FMAX (R245). -/
def fpMax (c : BitVec 16) (x y _z : Word) : Word × Nat := inWord (Fmt.fp32.minmaxW (fpFtz c) true x.toNat y.toNat, 0)

/-- FCMP (R246). -/
def fpCompare (code : Nat) (c : BitVec 16) (x y : Word) : Bool × Nat :=
  fcmpCond code (Fmt.fp32.read (fpFtz c) x.toNat) (Fmt.fp32.read (fpFtz c) y.toNat)

/-- An operation on both halves, their conditions ORed (R248). -/
def halves (g : Fmt) (f : Fmt → Mode → Bool → Nat → Nat → Nat → Nat × Nat) (c : BitVec 16) (x y z : Word) : Word × Nat :=
  let one (k : Nat) := f g (fpMode c) (fpFtz c) (x.toNat / 2 ^ k % 2 ^ 16) (y.toNat / 2 ^ k % 2 ^ 16) (z.toNat / 2 ^ k % 2 ^ 16)
  let lo := one 0
  let hi := one 16
  (BitVec.ofNat 32 (lo.1 + hi.1 * 2 ^ 16), lo.2 ||| hi.2)

/-- The elements of a packed register: n of w bits each. -/
def elems (n w : Nat) (x : Word) : List Nat := (List.range n).map (fun i => x.toNat / 2 ^ (w * i) % 2 ^ w)

/-- DOT4.s8 and DOT8.s4 (R249). -/
def dotInt (n w : Nat) (_c : BitVec 16) (x y z : Word) : Word × Nat :=
  let s (v : Nat) : Int := if 2 ^ (w - 1) ≤ v then (v : Int) - 2 ^ w else v
  (BitVec.ofInt 32 (((elems n w x).zip (elems n w y)).foldl (fun acc e => acc + s e.1 * s e.2) z.toInt), 0)

/-- The floating dot products (R249): products and addend summed exactly, rounded once; invalid gives NaN and NV, and so
does a NaN element or addend. -/
def dotFloat (n w : Nat) (g : Fmt) (c : BitVec 16) (x y z : Word) : Word × Nat :=
  let mode := fpMode c
  let z0 := Fmt.fp32.read (fpFtz c) z.toNat
  let ps := ((elems n w x).zip (elems n w y)).map (fun e => FVal.mul (g.decode e.1) (g.decode e.2))
  let r := sumExact mode (ps.map (·.1)) z0
  match r.1 with
  | .nan => (BitVec.ofNat 32 Fmt.fp32.nanCode, fNV)
  | v => inWord (Fmt.fp32.write mode (fpFtz c) v)

/-- Fadd (R245). -/
def execFadd (d a b : Fin 32) (f : Fin 16) (w : Fin 8) : State → Out :=
  fp3 (head 4 f w) d.val (.v a.val) (.v b.val) (.imm 0) fpAdd

/-- Fadd with an s-register operand (R245, R252). -/
def execFaddU (d a : Fin 32) (b : Fin 256) (w : Fin 8) : State → Out :=
  fp3 (headU 4 w) d.val (.v a.val) (.s b.val) (.imm 0) fpAdd

/-- Fadd with a BF16 immediate widened exactly (R245, R219). -/
def execFaddI (d : Fin 32) (i : BitVec 16) (w : Fin 8) : State → Out :=
  fp3 (headU 4 w) d.val (.v d.val) (.imm (bf16Imm i)) (.imm 0) fpAdd

/-- Fadd, 16-bit form (R245, R212). -/
def execFaddA16 (d r : Fin 32) : State → Out :=
  fp3 (head16 4) d.val (.v d.val) (.v r.val) (.imm 0) fpAdd

/-- Fsub (R245). -/
def execFsub (d a b : Fin 32) (f : Fin 16) (w : Fin 8) : State → Out :=
  fp3 (head 4 f w) d.val (.v a.val) (.v b.val) (.imm 0) fpSub

/-- Fsub with an s-register operand (R245, R252). -/
def execFsubU (d a : Fin 32) (b : Fin 256) (w : Fin 8) : State → Out :=
  fp3 (headU 4 w) d.val (.v a.val) (.s b.val) (.imm 0) fpSub

/-- Fmul (R245). -/
def execFmul (d a b : Fin 32) (f : Fin 16) (w : Fin 8) : State → Out :=
  fp3 (head 4 f w) d.val (.v a.val) (.v b.val) (.imm 0) fpMul

/-- Fmul with an s-register operand (R245, R252). -/
def execFmulU (d a : Fin 32) (b : Fin 256) (w : Fin 8) : State → Out :=
  fp3 (headU 4 w) d.val (.v a.val) (.s b.val) (.imm 0) fpMul

/-- Fmul with a BF16 immediate widened exactly (R245, R219). -/
def execFmulI (d : Fin 32) (i : BitVec 16) (w : Fin 8) : State → Out :=
  fp3 (headU 4 w) d.val (.v d.val) (.imm (bf16Imm i)) (.imm 0) fpMul

/-- Fmul, 16-bit form (R245, R212). -/
def execFmulA16 (d r : Fin 32) : State → Out :=
  fp3 (head16 4) d.val (.v d.val) (.v r.val) (.imm 0) fpMul

/-- Ffma (R245). -/
def execFfma (d a b : Fin 32) (f : Fin 16) (w : Fin 8) : State → Out :=
  fp3 (head 4 f w) d.val (.v a.val) (.v b.val) (.v d.val) fpFma

/-- Ffma with an s-register operand (R245, R252). -/
def execFfmaU (d a : Fin 32) (b : Fin 256) (w : Fin 8) : State → Out :=
  fp3 (headU 4 w) d.val (.v a.val) (.s b.val) (.v d.val) fpFma

/-- Ffma, 16-bit form (R245, R212). -/
def execFfmaA16 (d r : Fin 32) : State → Out :=
  fp3 (head16 4) d.val (.v d.val) (.v r.val) (.v 0) fpFma

/-- Fmin (R245). -/
def execFmin (d a b : Fin 32) (f : Fin 16) (w : Fin 8) : State → Out :=
  fp3 (head 4 f w) d.val (.v a.val) (.v b.val) (.imm 0) fpMin

/-- Fmin with an s-register operand (R245, R252). -/
def execFminU (d a : Fin 32) (b : Fin 256) (w : Fin 8) : State → Out :=
  fp3 (headU 4 w) d.val (.v a.val) (.s b.val) (.imm 0) fpMin

/-- Fmin, 16-bit form (R245, R212). -/
def execFminA16 (d r : Fin 32) : State → Out :=
  fp3 (head16 4) d.val (.v d.val) (.v r.val) (.imm 0) fpMin

/-- Fmax (R245). -/
def execFmax (d a b : Fin 32) (f : Fin 16) (w : Fin 8) : State → Out :=
  fp3 (head 4 f w) d.val (.v a.val) (.v b.val) (.imm 0) fpMax

/-- Fmax with an s-register operand (R245, R252). -/
def execFmaxU (d a : Fin 32) (b : Fin 256) (w : Fin 8) : State → Out :=
  fp3 (headU 4 w) d.val (.v a.val) (.s b.val) (.imm 0) fpMax

/-- Fmax, 16-bit form (R245, R212). -/
def execFmaxA16 (d r : Fin 32) : State → Out :=
  fp3 (head16 4) d.val (.v d.val) (.v r.val) (.imm 0) fpMax

/-- FCMP (R246). -/
def execFcmp (c : Fin 8) (p : Fin 4) (a b : Fin 32) (f : Fin 16) (w : Fin 8) : State → Out :=
  test2 (head 4 f w) p.val (.v a.val) (.v b.val) (fpCompare c.val)

/-- FCMP with an s-register operand (R246, R252). -/
def execFcmpU (c : Fin 8) (p : Fin 4) (a : Fin 32) (b : Fin 256) (w : Fin 8) : State → Out :=
  test2 (headU 4 w) p.val (.v a.val) (.s b.val) (fpCompare c.val)

/-- Frcp (R247). -/
def execFrcp (d a : Fin 32) (f : Fin 16) (w : Fin 8) : State → Out :=
  fp3 (headV f w) d.val (.v a.val) (.imm 0) (.imm 0) (fun c x _ _ => special 0 c x)

/-- Frsq (R247). -/
def execFrsq (d a : Fin 32) (f : Fin 16) (w : Fin 8) : State → Out :=
  fp3 (headV f w) d.val (.v a.val) (.imm 0) (.imm 0) (fun c x _ _ => special 1 c x)

/-- Fsqrt (R247). -/
def execFsqrt (d a : Fin 32) (f : Fin 16) (w : Fin 8) : State → Out :=
  fp3 (headV f w) d.val (.v a.val) (.imm 0) (.imm 0) (fun c x _ _ => special 2 c x)

/-- Fex2 (R247). -/
def execFex2 (d a : Fin 32) (f : Fin 16) (w : Fin 8) : State → Out :=
  fp3 (headV f w) d.val (.v a.val) (.imm 0) (.imm 0) (fun c x _ _ => special 3 c x)

/-- Flg2 (R247). -/
def execFlg2 (d a : Fin 32) (f : Fin 16) (w : Fin 8) : State → Out :=
  fp3 (headV f w) d.val (.v a.val) (.imm 0) (.imm 0) (fun c x _ _ => special 4 c x)

/-- Fsin (R247). -/
def execFsin (d a : Fin 32) (f : Fin 16) (w : Fin 8) : State → Out :=
  fp3 (headV f w) d.val (.v a.val) (.imm 0) (.imm 0) (fun c x _ _ => special 5 c x)

/-- Fcos (R247). -/
def execFcos (d a : Fin 32) (f : Fin 16) (w : Fin 8) : State → Out :=
  fp3 (headV f w) d.val (.v a.val) (.imm 0) (.imm 0) (fun c x _ _ => special 6 c x)

/-- Hadd2F16 (R248). -/
def execHadd2F16 (d a b : Fin 32) (f : Fin 16) (w : Fin 8) : State → Out :=
  fp3 (head 5 f w) d.val (.v a.val) (.v b.val) (.imm 0) (halves .fp16 (fun g m z x y _ => g.addW m z x y))

/-- Hadd2F16 with an s-register operand (R248, R252). -/
def execHadd2F16U (d a : Fin 32) (b : Fin 256) (w : Fin 8) : State → Out :=
  fp3 (headU 5 w) d.val (.v a.val) (.s b.val) (.imm 0) (halves .fp16 (fun g m z x y _ => g.addW m z x y))

/-- Hadd2F16 with one FP16 immediate for both halves (R248, R219). -/
def execHadd2F16I (d : Fin 32) (i : BitVec 16) (w : Fin 8) : State → Out :=
  fp3 (headU 5 w) d.val (.v d.val) (.imm (twice i)) (.imm 0) (halves .fp16 (fun g m z x y _ => g.addW m z x y))

/-- Hadd2Bf16 (R248). -/
def execHadd2Bf16 (d a b : Fin 32) (f : Fin 16) (w : Fin 8) : State → Out :=
  fp3 (head 5 f w) d.val (.v a.val) (.v b.val) (.imm 0) (halves .bf16 (fun g m z x y _ => g.addW m z x y))

/-- Hadd2Bf16 with an s-register operand (R248, R252). -/
def execHadd2Bf16U (d a : Fin 32) (b : Fin 256) (w : Fin 8) : State → Out :=
  fp3 (headU 5 w) d.val (.v a.val) (.s b.val) (.imm 0) (halves .bf16 (fun g m z x y _ => g.addW m z x y))

/-- Hmul2F16 (R248). -/
def execHmul2F16 (d a b : Fin 32) (f : Fin 16) (w : Fin 8) : State → Out :=
  fp3 (head 5 f w) d.val (.v a.val) (.v b.val) (.imm 0) (halves .fp16 (fun g m z x y _ => g.mulW m z x y))

/-- Hmul2F16 with an s-register operand (R248, R252). -/
def execHmul2F16U (d a : Fin 32) (b : Fin 256) (w : Fin 8) : State → Out :=
  fp3 (headU 5 w) d.val (.v a.val) (.s b.val) (.imm 0) (halves .fp16 (fun g m z x y _ => g.mulW m z x y))

/-- Hmul2F16 with one FP16 immediate for both halves (R248, R219). -/
def execHmul2F16I (d : Fin 32) (i : BitVec 16) (w : Fin 8) : State → Out :=
  fp3 (headU 5 w) d.val (.v d.val) (.imm (twice i)) (.imm 0) (halves .fp16 (fun g m z x y _ => g.mulW m z x y))

/-- Hmul2Bf16 (R248). -/
def execHmul2Bf16 (d a b : Fin 32) (f : Fin 16) (w : Fin 8) : State → Out :=
  fp3 (head 5 f w) d.val (.v a.val) (.v b.val) (.imm 0) (halves .bf16 (fun g m z x y _ => g.mulW m z x y))

/-- Hmul2Bf16 with an s-register operand (R248, R252). -/
def execHmul2Bf16U (d a : Fin 32) (b : Fin 256) (w : Fin 8) : State → Out :=
  fp3 (headU 5 w) d.val (.v a.val) (.s b.val) (.imm 0) (halves .bf16 (fun g m z x y _ => g.mulW m z x y))

/-- Hfma2F16 (R248). -/
def execHfma2F16 (d a b : Fin 32) (f : Fin 16) (w : Fin 8) : State → Out :=
  fp3 (head 5 f w) d.val (.v a.val) (.v b.val) (.v d.val) (halves .fp16 (fun g m z x y c => g.fmaW m z x y c))

/-- Hfma2F16 with an s-register operand (R248, R252). -/
def execHfma2F16U (d a : Fin 32) (b : Fin 256) (w : Fin 8) : State → Out :=
  fp3 (headU 5 w) d.val (.v a.val) (.s b.val) (.v d.val) (halves .fp16 (fun g m z x y c => g.fmaW m z x y c))

/-- Hfma2Bf16 (R248). -/
def execHfma2Bf16 (d a b : Fin 32) (f : Fin 16) (w : Fin 8) : State → Out :=
  fp3 (head 5 f w) d.val (.v a.val) (.v b.val) (.v d.val) (halves .bf16 (fun g m z x y c => g.fmaW m z x y c))

/-- Hfma2Bf16 with an s-register operand (R248, R252). -/
def execHfma2Bf16U (d a : Fin 32) (b : Fin 256) (w : Fin 8) : State → Out :=
  fp3 (headU 5 w) d.val (.v a.val) (.s b.val) (.v d.val) (halves .bf16 (fun g m z x y c => g.fmaW m z x y c))

/-- Dot4S8 (R249). -/
def execDot4S8 (d a b : Fin 32) (f : Fin 16) (w : Fin 8) : State → Out :=
  fp3 (head 5 f w) d.val (.v a.val) (.v b.val) (.v d.val) (dotInt 4 8)

/-- Dot4S8 with an s-register operand (R249, R252). -/
def execDot4S8U (d a : Fin 32) (b : Fin 256) (w : Fin 8) : State → Out :=
  fp3 (headU 5 w) d.val (.v a.val) (.s b.val) (.v d.val) (dotInt 4 8)

/-- Dot4E4m3 (R249). -/
def execDot4E4m3 (d a b : Fin 32) (f : Fin 16) (w : Fin 8) : State → Out :=
  fp3 (head 5 f w) d.val (.v a.val) (.v b.val) (.v d.val) (dotFloat 4 8 .e4m3)

/-- Dot4E4m3 with an s-register operand (R249, R252). -/
def execDot4E4m3U (d a : Fin 32) (b : Fin 256) (w : Fin 8) : State → Out :=
  fp3 (headU 5 w) d.val (.v a.val) (.s b.val) (.v d.val) (dotFloat 4 8 .e4m3)

/-- Dot4E5m2 (R249). -/
def execDot4E5m2 (d a b : Fin 32) (f : Fin 16) (w : Fin 8) : State → Out :=
  fp3 (head 5 f w) d.val (.v a.val) (.v b.val) (.v d.val) (dotFloat 4 8 .e5m2)

/-- Dot4E5m2 with an s-register operand (R249, R252). -/
def execDot4E5m2U (d a : Fin 32) (b : Fin 256) (w : Fin 8) : State → Out :=
  fp3 (headU 5 w) d.val (.v a.val) (.s b.val) (.v d.val) (dotFloat 4 8 .e5m2)

/-- Dot8S4 (R249). -/
def execDot8S4 (d a b : Fin 32) (f : Fin 16) (w : Fin 8) : State → Out :=
  fp3 (head 5 f w) d.val (.v a.val) (.v b.val) (.v d.val) (dotInt 8 4)

/-- Dot8S4 with an s-register operand (R249, R252). -/
def execDot8S4U (d a : Fin 32) (b : Fin 256) (w : Fin 8) : State → Out :=
  fp3 (headU 5 w) d.val (.v a.val) (.s b.val) (.v d.val) (dotInt 8 4)

/-- Dot8E2m1 (R249). -/
def execDot8E2m1 (d a b : Fin 32) (f : Fin 16) (w : Fin 8) : State → Out :=
  fp3 (head 5 f w) d.val (.v a.val) (.v b.val) (.v d.val) (dotFloat 8 4 .e2m1)

/-- Dot8E2m1 with an s-register operand (R249, R252). -/
def execDot8E2m1U (d a : Fin 32) (b : Fin 256) (w : Fin 8) : State → Out :=
  fp3 (headU 5 w) d.val (.v a.val) (.s b.val) (.v d.val) (dotFloat 8 4 .e2m1)

/-- CVT (R250) under FPCSR.RM. -/
def execCvt (c d a : Fin 32) (f : Fin 16) (w : Fin 8) : State → Out :=
  fp3 (head 4 f w) d.val (.v a.val) (.imm 0) (.imm 0) (fun fc x _ _ => cvt c.val (fpMode fc) (fpFtz fc) x)

/-- CVTSR (R250): stochastic rounding, one draw per active lane. -/
def execCvtsr (c d a : Fin 32) (f : Fin 16) (w : Fin 8) : State → Out :=
  issue ((head 4 f w).form [d.val] [.v a.val])
    (fun x =>
      let y (i : Nat) :=
        cvt c.val (.sr (srdraw x.g.arch.srseed (x.g.laneId i) (x.lane i).convCount.toNat)) (fpFtz x.g.arch.fpcsr)
          (x.v 0 i a.val)
      x.commit { v := fun i => [(d.val, (y i).1)], fp := fun i => (y i).2, draws := fun _ => 1 })

end Sys2Proof.Machine
end

