-- ==== Sys2Proof/Machine/CrossLane.lean ====
section
/-! DEFINITION. Cross-lane instructions (R254 to R258, R207). -/

namespace Sys2Proof.Machine

/-- Which source lane a shuffle names. -/
inductive Shuffle where
  | idx | up | down | xor
  deriving DecidableEq, Repr

/-- The source lane of lane i for selector b, over W lanes (R255). -/
def Shuffle.source (m : Shuffle) (wd i b : Nat) : Nat :=
  match m with
  | .idx => b % wd
  | .up => if b < wd ∧ b ≤ i then i - b else i
  | .down => if b < wd ∧ i + b < wd then i + b else i
  | .xor => i ^^^ (b % wd)

/-- SHFL (R255): every active lane takes v(a) of its source lane; an inactive source traps INACTIVE_LANE_READ (R254) or,
under `.z`, reads zero. -/
def shuffle (m : Shuffle) (d a b : Fin 32) (z : Bool) (f : Fin 16) (w : Fin 8) : State → Out :=
  issue { vr := [b.val], vx := [a.val], vw := [d.val], lat := 6, flag := f.val, stall := w.val, picks := true }
    (fun x =>
      let src (i : Nat) := m.source x.g.width i (x.v 1 i b.val).toNat
      let lost (i : Nat) : Option DWord :=
        match x.struckV i b.val with
        | some t => some t
        | none => if x.act.contains (src i) then x.struckV (src i) a.val else none
      let bad := if z then [] else x.act.filter (fun i => (x.struckV i b.val).isNone && src i != i && !x.act.contains (src i))
      if !bad.isEmpty then x.trap .inactiveLaneRead (maskOf (bad.map src)) bad
      else
        match x.act.filter (fun i => (lost i).isSome) with
        | [] => x.commit { v := fun i => [(d.val, if x.act.contains (src i) then x.v 0 (src i) a.val else 0)] }
        | i :: r => x.checkRegs ((lost i).getD 0) (i :: r))

/-- SHFL.idx. -/
def execShflIdx (d a b : Fin 32) (z : Bool) (f : Fin 16) (w : Fin 8) : State → Out := shuffle .idx d a b z f w
/-- SHFL.up. -/
def execShflUp (d a b : Fin 32) (z : Bool) (f : Fin 16) (w : Fin 8) : State → Out := shuffle .up d a b z f w
/-- SHFL.down. -/
def execShflDown (d a b : Fin 32) (z : Bool) (f : Fin 16) (w : Fin 8) : State → Out := shuffle .down d a b z f w
/-- SHFL.xor. -/
def execShflXor (d a b : Fin 32) (z : Bool) (f : Fin 16) (w : Fin 8) : State → Out := shuffle .xor d a b z f w

/-- One predicate, from all active lanes' predicates, to every active lane (R256). -/
def vote (p q : Fin 4) (f : Fin 16) (w : Fin 8) (all : Bool) : State → Out :=
  issue { px := [q.val], pw := [p.val], lat := 6, flag := f.val, stall := w.val }
    (fun x =>
      let y := if all then x.act.all (fun i => x.p i q.val) else x.act.any (fun i => x.p i q.val)
      x.commit { p := fun _ => [(p.val, y)] })

/-- VOTE.all (R256). -/
def execVoteAll (p q : Fin 4) (f : Fin 16) (w : Fin 8) : State → Out := vote p q f w true
/-- VOTE.any (R256). -/
def execVoteAny (p q : Fin 4) (f : Fin 16) (w : Fin 8) : State → Out := vote p q f w false

/-- The two words of a 64-bit mask in a pair. -/
def maskPair (d : Nat) (m : DWord) : List (Nat × Word) := [(d, m.truncate 32), (d + 1, (m >>> 32).truncate 32)]

/-- VOTE.ballot (R256): the active lanes whose predicate is true. -/
def execVoteBallot (d : Fin 32) (q : Fin 4) (f : Fin 16) (w : Fin 8) : State → Out :=
  issue { px := [q.val], vw := [d.val, d.val + 1], wide := [(d.val, 2)], lat := 6, flag := f.val, stall := w.val }
    (fun x => x.commit { v := fun _ => maskPair d.val (maskOf (x.act.filter (fun i => x.p i q.val))) })

/-- MATCH.any (R258): the active lanes that hold the same pattern. -/
def execMatchAny (d a : Fin 32) (f : Fin 16) (w : Fin 8) : State → Out :=
  issue { vx := [a.val], vw := [d.val, d.val + 1], wide := [(d.val, 2)], lat := 6, flag := f.val, stall := w.val }
    (fun x =>
      let same (i : Nat) := maskOf (x.act.filter (fun j => x.v 0 j a.val == x.v 0 i a.val || j == i))
      x.commit { v := fun i => maskPair d.val (same i) })

/-- MATCH.all (R258): whether all active lanes hold one pattern. -/
def execMatchAll (p : Fin 4) (a : Fin 32) (f : Fin 16) (w : Fin 8) : State → Out :=
  issue { vx := [a.val], pw := [p.val], lat := 6, flag := f.val, stall := w.val }
    (fun x => x.commit { p := fun _ => [(p.val, x.act.all (fun j => x.v 0 j a.val == x.v 0 x.low a.val))] })

/-- One node of the tree of R207: absent children pass the other on. A node is its value and the lanes below it; an
addition tells its conditions to all of them. -/
def joinNodes (add : Word → Word → Word × Nat) (a b : Option (Word × List (Nat × Nat))) : Option (Word × List (Nat × Nat)) :=
  match a, b with
  | none, y => y
  | x, none => x
  | some (u, ls), some (v, ms) =>
    let r := add u v
    some (r.1, (ls ++ ms).map (fun e => (e.1, e.2 ||| r.2)))

/-- One level of the tree. -/
def pairUp (add : Word → Word → Word × Nat) (l : List (Option (Word × List (Nat × Nat)))) :
    List (Option (Word × List (Nat × Nat))) :=
  match l with
  | a :: b :: r => joinNodes add a b :: pairUp add r
  | [a] => [a]
  | [] => []

/-- The levels of the tree, `fuel` of them. -/
def sumTree (add : Word → Word → Word × Nat) (l : List (Option (Word × List (Nat × Nat)))) (fuel : Nat) :
    Option (Word × List (Nat × Nat)) :=
  match fuel with
  | 0 => (l.head?).getD none
  | k + 1 => sumTree add (pairUp add l) k

/-- A value as a REDUX of floats returns it: flushed, a NaN canonical (R187, R257). -/
def fpClean (c : BitVec 16) (x : Word) : Word :=
  if (Fmt.fp32.decode x.toNat).isNan then BitVec.ofNat 32 Fmt.fp32.nanCode
  else BitVec.ofNat 32 (Fmt.fp32.flush (fpFtz c) x.toNat)

/-- How two values of a REDUX combine, by operation (R257), with the conditions. -/
def reduxOp (op : Nat) (c : BitVec 16) (x y : Word) : Word × Nat :=
  match op with
  | 0 => (x + y, 0)
  | 1 => fpAdd c x y 0
  | 2 => (if x.slt y then x else y, 0)
  | 3 => (if x.ult y then x else y, 0)
  | 4 => (if y.slt x then x else y, 0)
  | 5 => (if y.ult x then x else y, 0)
  | 6 => fpMin c x y 0
  | 7 => fpMax c x y 0
  | 8 => (x &&& y, 0)
  | 9 => (x ||| y, 0)
  | _ => (x ^^^ y, 0)

/-- REDUX (R257): the tree of R207 over the W lanes, those outside ACTIVE absent; every active lane gets the result. -/
def execRedux (o d a : Fin 32) (f : Fin 16) (w : Fin 8) : State → Out :=
  issue { vx := [a.val], vw := [d.val], lat := 7, flag := f.val, stall := w.val }
    (fun x =>
      let c := x.g.arch.fpcsr
      let isFp := o.val = 1 ∨ o.val = 6 ∨ o.val = 7
      let leaves := (List.range x.g.width).map (fun i =>
        if x.act.contains i then
          some ((if isFp then fpClean c (x.v 0 i a.val) else x.v 0 i a.val), [(i, 0)])
        else none)
      match sumTree (reduxOp o.val c) leaves 6 with
      | some (y, ls) =>
        x.commit { v := fun _ => [(d.val, y)], fp := fun i => ((ls.find? (fun e => e.1 == i)).map (·.2)).getD 0 }
      | none => x.commit {})

end Sys2Proof.Machine
end

