-- ==== Sys2Proof/Machine/Packet.lean ====
section
/-! DEFINITION. Fetching a queue packet and the command it holds (R367, R371, R376). -/

namespace Sys2Proof.Machine

/-- The meaning of the command a packet holds, or the reason it stops its queue. A function number is at most 1,024 (R15). -/
def decodePacket (p q : Nat) (b : List Byte) : Except Nat (State → Out) :=
  let n (off k : Nat) : Nat := ofBytes ((b.drop off).take k)
  let h : CmdHead := { part := p, queue := q, cw := n 56 8 }
  let cond (f : Fin 4 → State → Out) : Except Nat (State → Out) := if c : n 1 1 < 4 then .ok (f ⟨n 1 1, c⟩) else .error 4
  let fn := n 8 2
  let ofFn (r : Except Nat (State → Out)) : Except Nat (State → Out) := if fn ≤ 1024 then r else .error 4
  match n 0 1 with
  | 0x00 => .ok (execNopCommand h)
  | 0x01 => .ok (execLaunch h (n 8 8) (n 1 1 % 2 == 1))
  | 0x02 => .ok (execLaunchi h (n 8 8) (n 1 1 % 2 == 1) (n 16 8))
  | 0x03 => cond (fun c => execWaitmem h (n 8 8) (BitVec.ofNat 32 (n 16 4)) c)
  | 0x04 => .ok (execWrite h (n 8 8) (BitVec.ofNat 32 (n 16 4)))
  | 0x05 => cond (fun c => execBranch h c (BitVec.ofNat 32 (n 16 4)) (n 20 4))
  | 0x06 => .ok (execLoop h (n 16 4) (n 20 4))
  | 0x07 => if n 10 1 ≤ 15 then .ok (execQprio h (n 8 2) (n 10 1)) else .error 4
  | 0x08 => .ok (execProcess h (n 8 8) (n 16 4))
  | 0x09 => ofFn (.ok (execKill h fn (n 16 8)))
  | 0x10 =>
    (match n 1 1 with
     | 0 => ofFn (.ok (execInvS1Va h fn (n 10 2) (n 16 8) (n 24 8) (n 2 1 % 2 == 1)))
     | 1 => ofFn (.ok (execInvS1Asid h fn (n 10 2)))
     | 2 => ofFn (.ok (execInvS2Gpa h fn (n 16 8) (n 24 8)))
     | 3 => ofFn (.ok (execInvFn h fn))
     | 4 => .ok (execInvPart h)
     | _ => .error 4)
  | 0x11 => if n 2 1 ≤ 1 then ofFn (.ok (execBiasflip h fn (n 16 8) (n 2 1 == 1) (BitVec.ofNat 16 (n 10 2)))) else .error 4
  | 0x12 => ofFn (.ok (execMigrate64k h fn (n 16 8) (n 24 8) (n 2 1) (n 12 2)))
  | 0x13 => .ok (execCancel h (n 8 8))
  | _ => .error 2

/-- What a CP turn at a queue comes to: no packet to process, the machine after a queue has stopped, or a command. -/
inductive Fetched where
  | nothing
  | stopped (s : State)
  | packet (s : State) (run : State → Out)

/-- The packets a slot holds or reads: at most four from RPTR on. -/
def Queue.window (k : Queue) : List Nat := (List.range (min 4 (k.wptr - k.rptr).toNat)).map (fun i => (k.rptr.toNat + i) % 2 ^ 32)

/-- The packets of a slot's window that it does not hold read through the queue's process, and not again (R367). One before which the
queue does not yet stand and that cannot be read is left for its turn. -/
def State.prefetch (s : State) (p : Nat) (e : QueueEntry) (k : Queue) : State × Store (List Byte) :=
  k.window.foldl (fun a n =>
    if (look a.2 n).isSome then a
    else
      match a.1.cpLoad (e.ctx a.1 p) e.admin (k.ringBase + 64 * (n % 2 ^ k.ringLog)) 64 with
      | (t, some b) => (t, put a.2 n b)
      | (t, none) => if n = k.rptr.toNat then (t, a.2) else a) (s, k.ahead)

/-- The packet before a queue, from its slot's window, decoded (R367, R371, R376). -/
def State.fetchPacket (s : State) (p q : Nat) : Fetched :=
  match s.atCommand { part := p, queue := q, cw := 0 } with
  | none => .nothing
  | some (e, k) =>
    let a := s.prefetch p e k
    let t := a.1.onQueue p q (fun k => { k with ahead := a.2 })
    match look a.2 k.rptr.toNat with
    | none => .stopped (t.stopQueue p q 7)
    | some b =>
      let h : CmdHead := { part := p, queue := q, cw := ofBytes (b.drop 56) }
      match kindsOf (ofBytes (b.take 1)) with
      | none => .stopped (t.stopPacket h e 2)
      | some ks =>
        if ks.contains e.kind then
          match decodePacket p q b with
          | .ok f => .packet t f
          | .error n => .stopped (t.stopPacket h e n)
        else .stopped (t.stopPacket h e 3)

end Sys2Proof.Machine
end

