-- ==== Sys2Proof/Machine/Fabric.lean ====
section
/-! DEFINITION. The Mardadex fabric (R409 to R418): flits that arrive and what the device answers, launch packets (R377), the
answers to what the device has sent, resending, ports and the VDN table. -/

namespace Sys2Proof

open Machine

/-! ### Flits -/

/-- Bits [127:64] of a flit's header (R410). -/
def Flit.header (f : Flit) (kind : Nat) : DWord :=
  BitVec.ofNat 64 (f.mask.toNat / 256 + f.op.val * 2 ^ 8 + f.len.val * 2 ^ 14 + f.tag.toNat * 2 ^ 18 + f.svdn.val * 2 ^ 34 +
    f.dvdn.val * 2 ^ 45 + f.tc.val * 2 ^ 56 + kind * 2 ^ 58)

/-- Bytes filled up with zeros to whole granules. -/
def padGranules (l : List Byte) : List Byte := l ++ List.replicate ((16 - l.length % 16) % 16) 0

/-- A response to a flit: to its sender, with its TAG, in its class (R415). -/
def Flit.response (f : Flit) (kind op mask : Nat) (l : List Byte) : Packet :=
  { kind := kind
    flit := { tc := f.tc, dvdn := f.svdn, svdn := f.dvdn, tag := f.tag, len := Fin.ofNat 16 (ceilDiv l.length 16), op := Fin.ofNat 64 op
              mask := BitVec.ofNat 16 mask, gpa := 0, payload := padGranules l } }

/-- The packet that carries an answer (R411, R416); an ERROR of a stage-2 fault carries its reason. -/
def Flit.packetOf (f : Flit) (a : Answer) : Option Packet :=
  match a with
  | .data l => some (f.response 0x20 0 0xFFFF l)
  | .ack => some (f.response 0x21 0 0xFFFF [])
  | .retry h => some (f.response 0x22 0 h [])
  | .error c => some (f.response 0x23 c.code 0xFFFF [])
  | .fault r => some (f.response 0x23 Cause.pageFaultS2.code 0xFFFF [BitVec.ofNat 8 r])
  | .moved => some (f.response 0x24 0 0xFFFF [])
  | .wait => none

/-- Whether a flit's payload is what LEN says, and its MASK selects bytes only where LEN is 1 (R410). -/
def Flit.shaped (f : Flit) : Bool :=
  decide (ceilDiv f.payload.length 16 = f.len.val) && (f.len.val == 1 || f.mask == 0xFFFF) && decide (f.gpa < 2 ^ 52 ∧ f.gpa % 16 = 0)

/-- Whether n granules from a flit's GPA lie in one 128-byte line, as each request of R75 does. -/
def Flit.inLine (f : Flit) (n : Nat) : Bool := decide (0 < n ∧ f.gpa % 128 / 16 + n ≤ 8)

/-- The place and length of the bytes that a mask selects, where they lie together. -/
def maskRun (m : BitVec 16) : Option (Nat × Nat) :=
  let l := (List.range 16).filter (fun i => m.getLsbD i)
  match l with
  | [] => none
  | a :: _ => if l = span a l.length then some (a, l.length) else none

/-- An atomic flit's access (R224, R410): MASK selects the operand's bytes, aligned to its size; the payload holds the value, then
the comparand. None where the fields do not name an operation. -/
def Flit.atomic (f : Flit) (mm : Bool) : Option (Nat × Nat × What) :=
  let op := f.op.val % 16
  let wide := f.op.val / 32 % 2 == 1
  let n := if wide then 8 else 4
  let only32 := op == 3 || decide (11 ≤ op)
  match maskRun f.mask with
  | some (a, k) =>
    if k = n ∧ a % n = 0 ∧ op ≠ 15 ∧ (wide && only32) = false ∧ (f.op.val / 16 % 2 == 1) = mm then
      some (f.gpa + a, n, .atomic op wide mm (BitVec.ofNat 64 (ofBytes (f.payload.take n))) (BitVec.ofNat 64 (ofBytes ((f.payload.drop n).take n))))
    else none
  | none => none

/-- The access that a write makes: its place and bytes. -/
def Flit.write (f : Flit) : Nat × Nat × What :=
  match maskRun f.mask with
  | some (a, n) =>
    if f.len = 1 then (f.gpa + a, n, .store ((f.payload.drop a).take n)) else (f.gpa, f.payload.length, .store f.payload)
  | none => (f.gpa, 16, .masked (f.mask.zeroExtend 128) f.payload)

/-- The stream of a line write, as its header and payload tell it. -/
def Flit.stream (f : Flit) : Nat := Config.lineStream ((f.header 0x02).toNat * 2 ^ 64 + f.gpa) f.payload

end Sys2Proof

namespace Sys2Proof.Machine

/-- A packet put on the fabric. -/
def State.emit (s : State) (p : Packet) : State := { s with sent := s.sent ++ [p] }

/-- A flit answered. -/
def State.reply (s : State) (f : Flit) (a : Answer) : State :=
  match f.packetOf a with
  | some p => s.emit p
  | none => s

/-- A flit that breaks R411 is discarded, and recorded. The port it came by is a free value. -/
def State.discard (s : State) (kind : Nat) (f : Flit) : State :=
  (s.waybill 0x0012 (BitVec.ofNat 64 ((Config.dword s.free).toNat % 18)) (f.header kind)).bump

/-! ### Accesses that arrive (R25, R414) -/

/-- A flit goes on to the device that its VDN's entry now names; its response will be relayed (R437). -/
def State.forward (s : State) (kind : Nat) (f : Flit) (part size : Nat) (w : What) : State :=
  let r := s.sendOut { owner := .relay kind f, part := part, fn := 0, svdn := f.svdn, vdn := f.dvdn, gpa := f.gpa, size := size, what := w
                       tc := f.tc, state := .held }
  r.1.emit { kind := kind, flit := f }

/-- An access of a flit: forwarded, or served and answered. One whose lines the homes have not yet given stands later. -/
def State.serveFlit (s : State) (kind : Nat) (f : Flit) (gpa size : Nat) (w : What) : State :=
  match s.gate f.dvdn f.svdn with
  | .forward p => s.forward kind f p size w
  | _ => let r := s.inbound f.dvdn f.svdn gpa size w; r.1.reply f r.2

/-- PEER_RD: a read of 16, 32, 64 or 128 bytes; LEN names the granules. -/
def execPeerRd (pkt : Flit) (s : State) : Out :=
  let n := pkt.len.val
  .next (if (n = 1 ∨ n = 2 ∨ n = 4 ∨ n = 8) ∧ pkt.inLine n ∧ pkt.gpa < 2 ^ 52 ∧ pkt.gpa % 16 = 0 ∧ pkt.mask = 0xFFFF ∧ pkt.payload = [] then
      s.serveFlit 0x01 pkt pkt.gpa (16 * n) .load
    else s.discard 0x01 pkt)

/-- Whether a write to the PF of this device is migration data that some partition accepts (R432). -/
def State.acceptsMigration (s : State) (f : Flit) : Option Nat :=
  let e := s.vdnOf f.dvdn
  if vdnV e && vdnLocal e && vdnFn e == 0 then
    (s.parts.find? (fun (p : Nat × Part) => p.2.inEn && p.2.inSrc == f.svdn.val)).map (·.1)
  else none

/-- A migration write that no partition accepts is refused (R414, R432). -/
def State.refuseWrite (s : State) (f : Flit) : State :=
  let e := s.vdnOf f.dvdn
  let s1 := if vdnV e && vdnLocal e then s.logRefused (s.partOf (vdnFn e)) (vdnFn e) f.svdn f.gpa 0 .peerRoster else s
  s1.reply f (.error .peerRoster)

/-- How many line writes of its stream stand before a line write that have not been applied (R417); at most 64 are in flight, so one
far behind is not early. -/
def State.linesBefore (s : State) (f : Flit) : Nat :=
  let n := (f.tag.toNat + 65536 - lookD s.streams f.stream 0) % 65536
  if n < 64 then n else 0

/-- A line write of an engine operation, in its place in its stream: applied and answered, after which the next may be. -/
def State.applyLine (s : State) (f : Flit) : State × Bool :=
  let w := f.write
  let r := s.inbound f.dvdn f.svdn w.1 w.2.1 w.2.2
  match r.2 with
  | .wait | .retry _ | .moved => (r.1.reply f r.2, false)
  | a => (({ r.1 with streams := put r.1.streams f.stream ((f.tag.toNat + 1) % 65536), heldLines := r.1.heldLines.erase f } : State).reply f a, true)

/-- The held line writes that have become due. -/
def State.applyHeld (s : State) (fuel : Nat) : State :=
  match fuel with
  | 0 => s
  | k + 1 =>
    match s.heldLines.find? (fun f => s.linesBefore f == 0) with
    | none => s
    | some f => let r := s.applyLine f; if r.2 then r.1.applyHeld k else r.1

/-- A line write of an engine operation arrives: one that is early is held (R417). -/
def State.serveLine (s : State) (f : Flit) : State :=
  match s.gate f.dvdn f.svdn with
  | .forward p => s.forward 0x02 f p f.payload.length (.store f.payload)
  | _ =>
    if s.linesBefore f ≠ 0 then (if s.heldLines.contains f then s else { s with heldLines := s.heldLines ++ [f] })
    else let r := s.applyLine f; if r.2 then r.1.applyHeld r.1.heldLines.length else r.1

/-- PEER_WR: a write of one to eight granules, of one granule under MASK; one of the copy engines' class is a line write of an
operation (R415, R417). Migration writes have rows of their own; one that no partition accepts is refused. -/
def execPeerWr (pkt : Flit) (s : State) : Out :=
  .next (if !pkt.shaped || !pkt.inLine pkt.len then s.discard 0x02 pkt
    else if 0x3D ≤ pkt.op.val then (if (s.acceptsMigration pkt).isSome then s else s.refuseWrite pkt)
    else if pkt.tc = 1 then s.serveLine pkt
    else let w := pkt.write; s.serveFlit 0x02 pkt w.1 w.2.1 w.2.2)

/-- An atomic flit: checked, then performed at the home or its NMU. -/
def State.serveAtomic (s : State) (kind : Nat) (f : Flit) (mm : Bool) : State :=
  match f.atomic mm with
  | some (a, n, w) => if f.shaped && f.len == 1 then s.serveFlit kind f a n w else s.discard kind f
  | none => s.discard kind f

/-- PEER_ATOM: performed after a recall at the home (R280). -/
def execPeerAtom (pkt : Flit) (s : State) : Out := .next (s.serveAtomic 0x03 pkt false)

/-- PEER_ATOMM: performed at the home's NMU (R280). -/
def execPeerAtomm (pkt : Flit) (s : State) : Out := .next (s.serveAtomic 0x04 pkt true)

/-! ### Launch packets (R377) -/

/-- What the launch table says to a sender and a kernel: a queue and a record, a full ring, or refusal. -/
inductive Listed where
  | take (queue record : Nat) | full | refused
  deriving DecidableEq, Repr

/-- What entry i of the launch table says. -/
def State.launchEntry (s : State) (p base i sender kernel : Nat) : Listed :=
  let lo := s.readDWord 0 (base + 16 * i)
  let hi := s.readDWord 0 (base + 16 * i + 8)
  if lo.getLsbD 0 = false ∨ bits lo 10 11 ≠ sender ∨ bits lo 32 16 ≠ kernel then .refused
  else
    match s.queueEntry p (bits lo 48 16), s.queueOf p (bits lo 48 16) with
    | some e, some k =>
      if s.onRoster e.fn sender = false ∨ 2 ≤ e.kind then .refused
      else if (k.wptr - k.rptr).toNat < 2 ^ k.ringLog then .take (bits lo 48 16) hi.toNat
      else .full
    | _, _ => .refused

/-- What the launch table says: its first entry that takes the launch, else whether a ring is full. -/
def State.launchListed (s : State) (p sender kernel : Nat) : Listed :=
  let base := ((s.part p).word 4).toNat
  if base = 0 then .refused
  else
    let l := (List.range 256).map (fun i => s.launchEntry p base i sender kernel)
    match l.find? (fun e => match e with | .take _ _ => true | _ => false) with
    | some e => e
    | none => if l.contains .full then .full else .refused

/-- The 64-byte LAUNCH of a record. -/
def launchBytes (record : Nat) : List Byte := toBytes 8 1 ++ toBytes 8 record ++ List.replicate 48 0

/-- A queue's WPTR one higher, and the queue pending where it is READY and unmapped. -/
def State.addPacket (s : State) (p q : Nat) : State :=
  let s1 := s.onQueue p q (fun k => { k with wptr := k.wptr + 1 })
  match look (s1.part p).mapped q, s1.queueOf p q with
  | none, some k => (if k.state = 1 then s1.onPart p (fun t => { t with pendingBits := insertNat t.pendingBits q }) else s1).noteWork p q
  | _, _ => s1.noteWork p q

/-- A refused launch packet: one log entry whose ADDR is the kernel ID. -/
def State.refuseLaunch (s : State) (part : Option Nat) (fn : Nat) (f : Flit) : State :=
  (s.logRefused part fn f.svdn (ofBytes (f.payload.take 2)) 0 .peerRoster).reply f (.error .peerRoster)

/-- LAUNCH_PACKET: the CP places a LAUNCH of the listed record into the listed queue. -/
def execLaunchPacket (pkt : Flit) (s : State) : Out :=
  .next (if !pkt.shaped || pkt.len == 0 then s.discard 0x08 pkt
    else
      match s.gate pkt.dvdn pkt.svdn with
      | .unbound => s.reply pkt (.error .peerRoster)
      | .moved => s.reply pkt .moved
      | .forward p => s.forward 0x08 pkt p 0 (.store [])
      | .retry (some h) => s.reply pkt (.retry h)
      | .retry none => s.bump.reply pkt (.retry (Config.hint s.free).toNat)
      | .roster part fn => s.refuseLaunch part fn pkt
      | .pass none fn => s.refuseLaunch none fn pkt
      | .pass (some p) fn =>
        match s.launchListed p pkt.svdn (ofBytes (pkt.payload.take 2)) with
        | .refused => s.refuseLaunch (some p) fn pkt
        | .full => s.reply pkt (.retry 65535)
        | .take q record =>
          match s.queueEntry p q, s.queueOf p q with
          | some e, some k =>
            (match s.reachMem (e.ctx s p) false (k.ringBase + 64 * (k.wptr.toNat % 2 ^ k.ringLog)) true with
             | some (t, loc, j) => ((t.cpStore loc j (launchBytes record)).addPacket p q).reply pkt .ack
             | none => s.refuseLaunch (some p) fn pkt)
          | _, _ => s.refuseLaunch (some p) fn pkt)

/-! ### Collective flits (R418) -/

/-- An answer to a collective flit: acknowledged, or ERROR with its code. -/
def State.replyCode (s : State) (f : Flit) (code : Nat) : State :=
  if code = 0 then s.reply f .ack else s.emit (f.response 0x23 code 0xFFFF [])

/-- A collective flit of a kind arrives. -/
def State.collArrives (s : State) (kind : Nat) (f : Flit) : State :=
  match s.gate f.dvdn f.svdn with
  | .unbound => s.reply f (.error .peerRoster)
  | .moved => s.reply f .moved
  | .forward p => s.forward kind f p 0 (.store [])
  | .retry (some h) => s.reply f (.retry h)
  | .retry none => s.bump.reply f (.retry (Config.hint s.free).toNat)
  | .roster part fn => (s.logRefused part fn f.svdn 0 0 .peerRoster).reply f (.error .peerRoster)
  | .pass _ _ => let r := s.takeColl kind f none; r.1.replyCode f r.2

/-- CDATA: one slice of a SEND. -/
def execCdata (pkt : Flit) (s : State) : Out :=
  .next (if pkt.shaped && pkt.len != 0 && pkt.gpa == 0 then s.collArrives 0x10 pkt else s.discard 0x10 pkt)

/-- CLEAR: the receiver of a SEND is ready. -/
def execClear (pkt : Flit) (s : State) : Out :=
  .next (if pkt.shaped && pkt.len == 0 && pkt.gpa == 0 then s.collArrives 0x11 pkt else s.discard 0x11 pkt)

/-- SPARSE_FLIT: up to 30 pairs. -/
def execSparseFlit (pkt : Flit) (s : State) : Out :=
  .next (if pkt.shaped && pkt.len != 0 && pkt.gpa == 0 && pkt.payload.length % 8 == 0 then s.collArrives 0x12 pkt else s.discard 0x12 pkt)

/-- SPEND: one sender's stream has ended. -/
def execSpend (pkt : Flit) (s : State) : Out :=
  .next (if pkt.shaped && pkt.len == 0 && pkt.gpa == 0 then s.collArrives 0x13 pkt else s.discard 0x13 pkt)

/-! ### Answers to what the device sent (R416) -/

/-- The outbound packet of a number that is on the fabric. -/
def State.onFabric (s : State) (id : Nat) : Option Outbound :=
  match look s.outbound id with
  | some q => (match q.state with | .sent _ _ => some q | _ => none)
  | none => none

/-- A carried access has gone to another device with its partition: its result follows (R432, R433). -/
def State.sendResult (s : State) (q : Outbound) (index : Nat) (a : Answer) : State :=
  let (l, kind, cause) : List Byte × Nat × Nat := match a with
    | .data l => (l, 0, 0)
    | .error c => ([], 2, c.code)
    | .fault _ => ([], 2, Cause.pageFaultS2.code)
    | _ => ([], 1, 0)
  let p := s.part q.part
  s.emit { kind := 0x02
           flit := { tc := 3, dvdn := Fin.ofNat 2048 p.migDvdn, svdn := Fin.ofNat 2048 p.migSelf, tag := 0, len := 1, op := 0x3D, mask := 0xFFFF
                     gpa := index % 2 ^ 16, payload := (l ++ List.replicate 8 0).take 8 ++ toBytes 1 kind ++ toBytes 1 cause ++ List.replicate 6 0 } }

/-- A migration ends with PHASE FAILED or ABORTED: its packets are forgotten, and a partition that was held runs on from its halt
(R432, R436, R440). -/
def State.endMove (s : State) (p phase status : Nat) : State :=
  ({ s with outbound := (s.outbound.filter (fun e => e.2.owner != .move p)).map (fun e =>
      if e.2.part = p then (e.1, { e.2 with moved := none }) else e) } : State).onPart p (fun q =>
    { q with
      migPhase := phase, migStatus := status, migHeld := false, migRanges := [], migStop := false, migReading := false, migCaptured := false
      migImage := false, migEndAck := false })

/-- The final answer to an access reaches whoever waits for it; of migration data, an acknowledgement counts for the END write
alone, and an ERROR made here is a link failure. -/
def State.delivered (s : State) (q : Outbound) (a : Answer) : State :=
  let s1 := match q.moved with | some n => s.sendResult q n a | none => s
  match q.owner with
  | .relay _ f => s1.reply f a
  | .move p =>
    (match a with
     | .ack => if q.seq = some 1 then s1.onPart p (fun r => { r with migEndAck := true }) else s1
     | _ => s1.endMove p 6 4)
  | .drain id =>
    (match look s1.drains id with
     | some d =>
       ({ s1 with drains := put s1.drains id (d.peerAnswered a) } : State).drive id driveFuel
     | none => s1)
  | .op id => (match q.req with | some r => s1.opAnswer id r a | none => s1)

/-- An outbound packet is no longer outstanding. -/
def State.dropOut (s : State) (id : Nat) : State := { s with outbound := del s.outbound id }

/-- An outbound packet ends with an answer; of a collective packet only its code counts. -/
def State.finishOut (s : State) (id : Nat) (q : Outbound) (a : Answer) : State :=
  if q.kind = 0 then (s.dropOut id).delivered q a
  else
    match q.owner, a with
    | .op k, .ack => (s.dropOut id).collAnswer k q.kind 0
    | .op k, .error c => (s.dropOut id).collAnswer k q.kind c.code
    | _, _ => s

/-- An outbound packet sent again by its entry as it now stands (R412, R416). -/
def State.sendAgain (s : State) (id : Nat) : State :=
  match look s.outbound id with
  | none => s
  | some q =>
    let s1 := { s with outbound := put s.outbound id (s.routed q) }
    if q.kind ≠ 0 then s1.collServe id
    else
      match s1.serveOut id with
      | (t, some a) => t.delivered q a
      | (t, none) => t

/-- PEER_DATA: the bytes read, or the old value. -/
def execPeerData (id : Nat) (bytes : List Byte) (s : State) : Out :=
  match s.onFabric id with
  | some q => if q.kind = 0 ∧ q.what.reads ∧ bytes.length = q.size then .next (s.finishOut id q (.data bytes)) else .next s
  | none => .next s

/-- PEER_ACK: a write, or a collective packet, is acknowledged. -/
def execPeerAck (id : Nat) (s : State) : Out :=
  match s.onFabric id with
  | some q => if q.kind ≠ 0 ∨ q.what.reads = false then .next (s.finishOut id q .ack) else .next s
  | none => .next s

/-- The causes of R388. -/
def causes : List Cause :=
  [.illegalInstruction, .stallShort, .windowOverflow, .windowUnderflow, .inactiveLaneRead, .meldViolation, .capBounds, .capPermission,
   .capScope, .capTag, .scratchBound, .pageFaultS1, .pageFaultS2, .misaligned, .peerRoster, .keyMismatch, .rangeLock, .lateCopy,
   .engineFault, .fpException, .livelock, .trapInstruction, .debugBreak, .machineCheck]

/-- What an ERROR packet says: its cause, with the reason of a stage-2 fault above its six bits. -/
def errorAnswer (cause : Nat) : Option Answer :=
  match causes.find? (fun c => c.code == cause % 64) with
  | some .pageFaultS2 => some (.fault (if cause / 64 = rKindAttr then rKindAttr else rRemote))
  | some c => some (.error c)
  | none => none

/-- An ERROR that a peer's collective engine sends of itself to the step it was matched with (R320, R471). -/
def State.stepError (s : State) (id cause : Nat) : State :=
  match look s.ops id with
  | some o => (match o.kind with | .collective _ _ => if cause = 0 then s else s.collAnswer id 0x10 cause | _ => s)
  | none => s

/-- PEER_ERROR: an ERROR reaches the requester (R414). -/
def execPeerError (id cause : Nat) (s : State) : Out :=
  match s.onFabric id with
  | none => .next (s.stepError id cause)
  | some q =>
    .next (match q.owner with
      | .relay _ f => (s.dropOut id).emit (f.response 0x23 cause 0xFFFF (if cause < 64 then [] else toBytes 1 (cause / 64)))
      | .op k =>
        if q.kind = 0 then (match errorAnswer cause with | some a => s.finishOut id q a | none => s)
        else if cause = 0 then s
        else (s.dropOut id).collAnswer k q.kind cause
      | .move p => s.endMove p 6 3
      | .drain _ => match errorAnswer cause with | some a => s.finishOut id q a | none => s)

/-- PEER_RETRY: the interface waits out the hint; the response to a forwarded packet is relayed. -/
def execPeerRetry (id hint : Nat) (s : State) : Out :=
  match s.onFabric id with
  | some q =>
    .next (match q.owner with
      | .relay _ f => (s.dropOut id).reply f (.retry hint)
      | _ => { s with outbound := put s.outbound id { q with state := .retry (s.clock + min hint 65535) } })
  | none => .next s

/-- RESEND: after the hint; and an access served within goes on as soon as its lines are given. -/
def execResend (id : Nat) (s : State) : Out :=
  match look s.outbound id with
  | some q =>
    (match q.state with
     | .retry t => if t ≤ s.clock then .next (s.sendAgain id) else .next s
     | .within => .next (s.sendAgain id)
     | _ => .next s)
  | none => .next s

/-- The VDN entry re-read: the packet goes by the new route where EPOCH has changed, and waits 4,096 cycles where not. -/
def State.reread (s : State) (id : Nat) (q : Outbound) (epoch : Nat) : State :=
  if vdnEpoch (s.vdnOf q.vdn) ≠ epoch then s.sendAgain id
  else { s with outbound := put s.outbound id { q with state := .moved epoch (s.clock + 4096) } }

/-- MOVED. -/
def execMoved (id : Nat) (s : State) : Out :=
  match look s.outbound id with
  | some q =>
    (match q.state, q.owner with
     | .sent _ _, .relay _ f => .next ((s.dropOut id).reply f .moved)
     | .sent _ e, _ => .next (s.reread id q e)
     | _, _ => .next s)
  | none => .next s

/-- MOVED_REREAD: 4,096 cycles later. -/
def execMovedReread (id : Nat) (s : State) : Out :=
  match look s.outbound id with
  | some q =>
    (match q.state with
     | .moved e t => if t ≤ s.clock then .next (s.reread id q e) else .next s
     | _ => .next s)
  | none => .next s

/-- 100 ms in cycles. -/
def timeoutTicks : Nat := 240000000

/-- LINK_TIMEOUT: no response of any kind within 100 ms of the last send. -/
def execLinkTimeout (id : Nat) (s : State) : Out :=
  match look s.outbound id with
  | some q =>
    (match q.state, q.owner with
     | .sent _ _, .relay _ _ => .next s
     | .sent since _, _ =>
       if since + timeoutTicks ≤ s.clock then
         .next ((s.waybill 0x0013 (BitVec.ofNat 64 q.gpa) (BitVec.ofNat 64 q.vdn) (some q.part) q.fn).finishOut id q (.error .machineCheck))
       else .next s
     | _, _ => .next s)
  | none => .next s

/-! ### Ports and the VDN table (R409, R412) -/

/-- Every packet on the fabric whose mask has no working port left ends with MACHINE_CHECK. -/
def State.failUnrouted (s : State) : State :=
  s.outbound.foldl (fun (t : State) e =>
    match t.onFabric e.1 with
    | some q =>
      if t.hasPort q then t
      else (match q.owner with | .relay _ f => (t.dropOut e.1).reply f (.error .machineCheck) | _ => t.finishOut e.1 q (.error .machineCheck))
    | none => t) s

/-- PORT_DOWN: a port leaves every mask. -/
def execPortDown (port : Fin 18) (s : State) : Out :=
  let s1 := { s with portsDown := s.portsDown ||| 1#18 <<< port.val }
  .next ((s1.waybill 0x0015 (BitVec.ofNat 64 port) 0).failUnrouted)

/-- PORT_RETRAIN: the host driver retrains a port, which rejoins the masks. -/
def execPortRetrain (port : Fin 18) (s : State) : Out := .next { s with portsDown := s.portsDown &&& ~~~(1#18 <<< port.val) }

/-- The packets that wait at a HELD entry. -/
def State.heldFor (s : State) (vdn : Nat) : List Nat := (s.outbound.filter (fun e => e.2.state == .held && e.2.vdn == vdn)).map (·.1)

/-- An entry of the VDN table written: packets that waited for it go once it is ACTIVE. -/
def State.writeVdn (s : State) (vdn : Nat) (value : DWord) : State :=
  let s1 := { s with vdn := if value = 0 then del s.vdn vdn else put s.vdn vdn value }
  if bits value 61 2 = 0 then (s1.heldFor vdn).foldl State.sendAgain s1 else s1

/-- VDN_TABLE_WRITE; bits [14:11] are reserved (R6). -/
def execVdnTableWrite (vdn : Fin 2048) (value : DWord) (s : State) : Out := .next (s.writeVdn vdn (value &&& 0xFFFFFFFFFFFF87FF#64))

end Sys2Proof.Machine
end

