-- ==== Sys2Proof/Machine/Redx.lean ====
section
/-! DEFINITION. The indexed reduce REDX (R85 to R87, R281, R282) and its parts: the NMU commands that read rows, the partial
sums that update the destination. -/

namespace Sys2Proof.Machine

/-- Bytes of an element and its format, by type code (R281). -/
def redxElem (t : Nat) : Nat × Fmt :=
  match t with
  | 0 => (4, .fp32)
  | 1 => (2, .bf16)
  | _ => (2, .fp16)

/-- A row or destination line must be LOCAL with MS = 1 (R282). -/
def onMemorySide (k : Checked) : Checked :=
  match k with
  | .ok (r, f) =>
    match r.x with
    | some x =>
      if x.ms ∧ x.kind = .dram then .ok (r, f)
      else .error (.cause .capPermission (BitVec.ofNat 64 r.gva) (some r.owner))
    | none => .ok (r, f)
  | .error e => .error e

/-- The checked rows of the lanes (R282). A row is an access of the read kind to its page: R23's row for REDX is read as the
destination's, for the table capability needs R alone (R85; DEDUCED). -/
def Issue.redxRows (x : Issue) (t a rb : Nat) : List (Nat × Checked) :=
  x.pending.map (fun i =>
    (i, onMemorySide (x.viaCap (x.g.cap t) i 0 i ((x.v 0 i a).toNat * rb) rb (permR + permMS) .read rb .load)))

/-- The checked destination, as 128-byte lines, each judged as a write; the alignment of the whole comes first (R85, R260). -/
def Issue.redxDest (x : Issue) (t rb esize : Nat) : List Checked :=
  let n := rb / esize * 4
  let c := x.g.cap (t + 1)
  let perm := permR + permW + permATOM + permMS
  let step := min n 128
  match x.s.checkCap x.requester c perm 0 n with
  | .error e => [.error e]
  | .ok _ =>
    (List.range (n / step)).map (fun k =>
      onMemorySide (x.viaCap c 0 (k % 8) k (step * k) step perm .atomic step (.store [])))

/-- Why a destination fails: the lowest cause of all its lines, at the destination's address, or the first line's page fault (R85); a
capability without its tag has no address (R45). -/
def destFail (base : Nat) (l : List Checked) : Option Fail :=
  let fs := failsOf (l.map (fun k => (0, k)))
  match causesOf fs with
  | c :: _ =>
    fs.findSome? (fun e =>
      match e.2 with
      | .cause k _ o => if k = c then some (.cause k (if k = .capTag then 0 else BitVec.ofNat 64 base) o) else none
      | .page _ _ => none)
  | [] => (fs.head?).map (·.2)

/-- What fails in an indexed reduce (R85): the rows' lanes, and for a failure of the destination every active lane, which for its cause
stand in the place of the rows'. -/
def redxFails (rows : List (Nat × Fail)) (act : List Nat) (dest : Option Fail) : List (Nat × Fail) :=
  match dest with
  | none => rows
  | some (.cause c a o) =>
    rows.filter (fun e => match e.2 with | .cause k _ _ => k != c | .page _ _ => true) ++ act.map (fun i => (i, .cause c a o))
  | some (.page f g) =>
    if (rows.head?).map (·.1) = act.head? then rows ++ act.map (fun i => (i, .page f g)) else act.map (fun i => (i, .page f g)) ++ rows

/-- REDX (R281, R282): checks, then the parts follow as events of their own. -/
def execRedx (y : Fin 4) (t : Fin 16) (a : Fin 32) (r : Fin 8) (f : Fin 16) (w : Fin 8) (s : State) : Out :=
  issue { vr := [a.val], flag := f, stall := w, varLat := true, drain := true, mem := true } (fun x =>
    let rb := 16 * 2 ^ r.val
    let rows := x.redxRows t a rb
    let dest := x.redxDest t rb (redxElem y).1
    match redxFails (byLane (failsOf rows)) x.act (destFail (x.g.cap (t + 1)).base dest) with
    | [] =>
      let rs := (passed rows).map (·.2)
      let ds := (passed (dest.map (fun k => (0, k)))).map (·.2)
      let id := x.s.nextId
      let s1 := { x.s.installAll ((rs ++ ds).filterMap (·.2)) with nextId := id + 1 }
      let s2 := x.commitIn s1 { pend := true, group := fun g => { g with partdone := 0, drained := some id } }
      let d := x.drainOp s2 { acc := .atomic, reqs := [] } (rs.map (·.1)) none
      { s2 with
        reduces := put s2.reduces id
          { base := { d with dest := [] }, etype := y, lines := ds.map (fun e => { e.1 with lane := x.low }) } }
    | fs => x.failWith x.s .atomic fs) s

/-- The stack of a location's channel. -/
def stackOf (loc : Nat) : Nat := channelOf loc / 32

/-- Whether a range registered later holds back a part of a reduce (R282), or its channel's retirement does (R98). -/
def State.redxWaits (s : State) (t : Team) (r : Req) (isWrite : Bool) : Bool :=
  s.retiring r.loc ||
    (match r.x with
     | some x => (s.refuser { ctx := t.ctx, gva := r.gva, size := r.size, x := x } isWrite).isSome
     | none => false)

/-- Whether a reduce's next part is held back. -/
def State.redxHeld (s : State) (o : ReduceOp) : Bool :=
  let t := lookD s.teams (lookD s.groups o.base.gid {}).team {}
  match o.base.todo, o.lines with
  | r :: _, _ => s.redxWaits t r false
  | [], r :: _ => s.redxWaits t r true
  | [], [] => false

/-- The rows one NMU command reads: from the head, those on its stack that nothing holds back, at most 16 (R87). -/
def State.rowsOf (s : State) (t : Team) (d : DrainOp) (stack : Nat) : List Req :=
  (d.todo.takeWhile (fun r => stackOf r.loc == stack && !s.redxWaits t r false)).take 16

/-- Rows read, in ascending LANEID, each one atomic access (R87). -/
def State.readRows (s : State) (t : Team) (d : DrainOp) (rs : List Req) : State × DrainOp :=
  rs.foldl (fun a r =>
    match a.1.atHome r.loc r.size r.key true .load (some t.ctx.part) t.ctx.fn with
    | (u, .wait) => (u, a.2)
    | (u, n) => (u, a.2.answered r n)) (s, d)

/-- A reduce that has nothing more to do ends (R282), at once where its team runs; of a function switched out at its return (R385). -/
def State.redxEnd (s : State) (id : Nat) (o : ReduceOp) : State :=
  if s.teamRuns (lookD s.groups o.base.gid {}).team then { s with reduces := del s.reduces id }.finishDrain id o.base
  else { s with reduces := put s.reduces id { o with lines := [] } }

/-- NMU_COMMAND: the next rows of an indexed reduce are read on a stack (R87). -/
def execNmuCommand (id stack : Nat) (s : State) : Out :=
  match look s.reduces id with
  | none => .next s
  | some o =>
    let t := lookD s.teams (lookD s.groups o.base.gid {}).team {}
    let rs := s.rowsOf t o.base stack
    let s1 := rs.foldl (fun u r => u.takeRange r.loc r.size false) s
    if rs.isEmpty ∨ rs.any (fun r => !s1.rangeFree r.loc r.size false) then .next s1
    else if rs.any (fun r => !s1.belowReady r.loc r.size true) then .next (rs.foldl (fun u r => u.chanUse r.loc) s1)
    else
      let (s2, d) := s1.readRows t o.base rs
      let o1 := { o with base := d }
      if d.todo.isEmpty ∧ !d.failed.isEmpty then .next (s2.redxEnd id o1)
      else .next { s2 with reduces := put s2.reduces id o1 }

/-- The elements of a row. -/
def rowElems (f : Fmt) (n : Nat) (l : List Byte) : List FVal :=
  (List.range (l.length / n)).map (fun j => f.read false (ofBytes ((l.drop (n * j)).take n)))

/-- One destination line updated: each element rounded once from the exact sum of all rows and its old value (R86). -/
def redxLine (etype first : Nat) (rows : List (List Byte)) (old : List Byte) : List Byte :=
  let (n, f) := redxElem etype
  let parsed := rows.map (rowElems f n)
  (List.range (old.length / 4)).flatMap (fun j =>
    let addends := parsed.map (fun r => (r[first + j]?).getD (.num false 0 0))
    let start := Fmt.fp32.read false (ofBytes ((old.drop (4 * j)).take 4))
    toBytes 4 (Fmt.fp32.write .rne false (sumExact .rne addends start).1).1)

/-- PARTIAL_SUM: once every row has been read, the next 128-byte line of the destination is updated as one access; the last
update ends the reduce (R86, R87). -/
def execPartialSum (id : Nat) (s : State) : Out :=
  match look s.reduces id with
  | none => .next s
  | some o =>
    let t := lookD s.teams (lookD s.groups o.base.gid {}).team {}
    if !o.base.todo.isEmpty then .next s
    else
      match o.lines with
      | [] => .next (s.redxEnd id o)
      | r :: rest =>
        if s.redxWaits t r true then .next s
        else
          let s1 := s.takeRange r.loc r.size true
          if !s1.rangeFree r.loc r.size true then .next s1
          else if !s1.belowReady r.loc r.size true then .next (s1.chanUse r.loc)
          else if s1.isBad r.loc r.size then
            let fs := o.base.act.map (fun i => (i, Fail.cause .machineCheck (r.checkAddr - BitVec.ofNat 64 (128 * r.unit)) none))
            .next ((s1.recordBad r.loc r.size (some t.ctx.part) t.ctx.fn).redxEnd id { o with base := { o.base with failed := fs } })
          else
            let s2 := s1.below r.loc r.size r.key true true
            let old := s2.mem.getsUnder r.key r.loc r.size
            let new := redxLine o.etype (32 * r.unit) (o.base.done.map (·.2.2)) old
            let s3 := s2.perform (some o.base.gid) r.key (cellsAt r.loc new)
            match rest with
            | [] => .next (s3.redxEnd id o)
            | _ => .next { s3 with reduces := put s3.reduces id { o with lines := rest } }

end Sys2Proof.Machine
end

