-- ==== Sys2Proof/Machine/Switch.lean ====
section
/-! DEFINITION. The function switch (R383 to R386): staging, the halt at the end of a slice, the exchange, the write-back. -/

namespace Sys2Proof.Machine

/-- The teams of a function in a partition. -/
def State.fnTeams (s : State) (p fn : Nat) : List (Nat × Team) := s.teams.filter (fun e => e.2.ctx.part == p && e.2.ctx.fn == fn)

/-- The groups and guides of teams. -/
def gidsOf (ts : List (Nat × Team)) : List Nat := ts.flatMap (fun e => e.2.groups ++ e.2.guide.toList)

/-- The device cores of a partition. -/
def State.partCores (s : State) (p : Nat) : List Nat :=
  ((List.range 64).filter (fun i => (s.part p).clusters.getLsbD i)).flatMap (fun n => span (8 * n) 8)

/-- A function's SAVEAREA: its DPA and its bytes (R362, R424). -/
def State.saveArea (s : State) (p fn : Nat) : Nat × Nat :=
  ((s.readDWord 0 (s.fnRecord p fn + 48)).toNat, 896 * 1024 * (s.partCores p).length + 64 * 1024)

/-- The part of a function's save area that holds its context: it lies in device memory. -/
def State.contextAt (s : State) (p fn : Nat) : Nat × Nat :=
  let a := s.saveArea p fn
  (a.1, if a.1 + a.2 ≤ dramSize then min (Config.contextSize fn).toNat a.2 else 0)

/-- A function's context read at its staging, if it has one: an uncorrectable granule is recorded, and the launches whose state it holds
end FAULTED, as for one of a caravanserai (R81, R464; DEDUCED). -/
def State.readContext (s : State) (p fn : Nat) : State :=
  let ts := s.teams.filter (fun e => e.2.state == .swapped && e.2.ctx.part == p && e.2.ctx.fn == fn)
  let a := s.contextAt p fn
  if ts.isEmpty ∨ a.2 = 0 ∨ s.isBad a.1 a.2 = false then s
  else (ts.foldl (fun l e => insertNat l e.2.launch) []).foldl (fun t n => t.endLaunch n 0x30) (s.recordBad a.1 a.2 (some p) fn)

/-- STAGING: the context of the function whose turn is next is loaded, unless its write-back still runs. -/
def execStaging (p : Nat) (s : State) : Out :=
  let q := s.part p
  match q.running with
  | none => .next s
  | some f =>
    match s.nextFunction p (some f) with
    | some g =>
      if g ≠ f ∧ q.switch = .running ∧ !q.writingBack.contains g then
        .next ((s.readContext p g).onPart p (fun q => { q with switch := .staged, next := some g }))
      else .next s
    | none => .next s

/-- A function halts: its groups in outrider mode roll back, not counted (R118), and shadows of drained accesses are discarded (R123). -/
def State.haltFn (s : State) (p fn : Nat) : State :=
  (gidsOf (s.fnTeams p fn)).foldl (fun t g => (t.rollbackGroup g false).leaveShadow g) s

/-- SLICE_END: the slice is over, or its work; with the next function staged, the running function halts (R378, R383). -/
def execSliceEnd (p : Nat) (s : State) : Out :=
  let q := s.part p
  match q.running with
  | none => .next s
  | some f =>
    if q.switch = .staged ∧ (q.sliceEnd ≤ s.clock ∨ s.fnHasWork p f = false) then
      .next ((s.haltFn p f).onPart p (fun q => { q with switch := .halted }))
    else if q.switch = .running ∧ q.sliceEnd ≤ s.clock ∧ (s.nextFunction p (some f) = some f ∨ (s.nextFunction p (some f)).isNone) then
      .next (s.runFunction p f)
    else .next s

/-- Whether a drained instruction needs to be waited for at a halt: what waits for a remote party, for the CP or for a channel's
retirement is carried (R385). -/
def State.carriable (s : State) (d : DrainOp) : Bool :=
  d.out.isSome ||
    (match d.todo with
     | [] => true
     | r :: _ =>
       match r.x with
       | some x => x.kind == .notify || (x.ms && s.retiring r.loc)
       | none => false)

/-- The monitors of a function going out become remote, where their slices have room for them, and those of a function coming
in are its cores' again (R384). -/
def State.exchangeMonitors (s : State) (out in_ : List Nat) : State :=
  { s with monitors := remoted (s.monitors.map (fun m => if in_.contains m.gid then { m with remote := false } else m)) out }

/-- The live locks of a function on a partition's cores. -/
def State.liveLocks (s : State) (p fn : Nat) : Nat :=
  (s.ops.filter (fun e => e.2.ctx.part == p && e.2.locked && e.2.ctx.fn == fn && decide (e.2.core < 512) && !s.parkedLock e.2)).length

/-- The live locks of a function that goes out written to the parked-lock store, whose layout is not stated (R384). -/
def State.writeLocks (s : State) (p fn : Nat) : State :=
  let at_ := ((s.part p).word 3).toNat
  let n := if s.liveLocks p fn = 0 then 0 else s.liveLocks p fn * Config.lockSize.toNat
  if at_ + n ≤ dramSize then s.storeFree at_ 0 n else s

/-- The lanes of groups that are parked on WAITC without a monitor read their words again. -/
def State.rereadUnwatched (s : State) (gids : List Nat) : State :=
  gids.foldl (fun t g => t.outside g (fun i l =>
    if l.park = some .waitc ∧ !s.monitors.any (fun m => m.gid == g && m.lane == i) then { l with park := none } else l)) s

/-- Each core's live state and its shadow change places; its instruction cache is invalidated. -/
def State.exchangeCores (s : State) (p out in_ : Nat) : State :=
  (s.partCores p).foldl (fun t c =>
    let k := t.core c
    { t with
      shadows := put (del t.shadows (in_ * 512 + c)) (out * 512 + c)
        { k with icache := [], droop := false, lag := 0, matrix := k.matrix.map (fun m => { m with refill := true }) }
      cores := put t.cores c { lookD t.shadows (in_ * 512 + c) {} with droop := k.droop, lag := k.lag } }) s

/-- The L1 modes of a partition's clusters change to those of the function that comes in (R62). -/
def State.exchangeModes (s : State) (p out in_ : Nat) : State :=
  let q := s.part p
  let to_ := lookD q.fusedOf in_ 0
  let s1 := (List.range (s.clusterCount p)).foldl (fun t n => t.setMode p n (to_.getLsbD n)) s
  s1.onPart p (fun r => { r with fusedOf := put (del r.fusedOf in_) out q.fused })

/-- The exchange of function f for function g. -/
def State.exchangeFns (s : State) (p f g : Nat) : State :=
  let out := (s.fnTeams p f).filter (fun e => e.2.state == .resident)
  let back := (s.fnTeams p g).filter (fun e => e.2.state == .swapped)
  let s1 := out.foldl (fun t e => (t.stowScratch e.1).onTeam e.1 (fun t => { t with state := .swapped })) (s.writeLocks p f)
  let s2 := back.foldl (fun t e => (t.onTeam e.1 (fun t => { t with state := .resident })).unstowScratch e.1) s1
  let s3 := (s2.exchangeCores p f g).exchangeModes p f g
  let s4 := (s3.exchangeMonitors (gidsOf out) (gidsOf back)).rereadUnwatched (gidsOf back)
  ((s4.runFunction p g).onPart p (fun q => { q with switch := .running, next := none, writingBack := q.writingBack ++ [f] })).settleAnswers p

/-- EXCHANGE: once the halt is complete, every core of the partition exchanges at once (R383 to R385). -/
def execExchange (p : Nat) (s : State) : Out :=
  let q := s.part p
  match q.running, q.next with
  | some f, some g =>
    let gids := gidsOf (s.fnTeams p f)
    let locks := (s.ops.filter (fun e => e.2.ctx.part == p && e.2.locked && (s.parkedLock e.2 || (e.2.ctx.fn == f && e.2.core < 512)))).length
    if q.switch = .halted ∧ s.drains.all (fun e => !gids.contains e.2.gid || s.carriable e.2) ∧
        s.reduces.all (fun e => !gids.contains e.2.base.gid || s.redxHeld e.2) ∧ s.enginesStopped (fun t => t.ctx.part == p && t.ctx.fn == f) ∧ locks ≤ 8192 then .next (s.exchangeFns p f g)
    else .next s
  | _, _ => .next s

/-- CONTEXT_WRITE_BACK: the context of the function that went out first has reached its SAVEAREA, whose contents are not stated (R383,
R424). -/
def execContextWriteBack (p : Nat) (s : State) : Out :=
  match (s.part p).writingBack with
  | [] => .next s
  | f :: r =>
    let a := s.contextAt p f
    .next ((s.storeFree a.1 0 a.2).onPart p (fun q => { q with writingBack := r }))

end Sys2Proof.Machine
end

