-- ==== Sys2Proof/Machine/Lading.lean ====
section
/-! DEFINITION. The lading image of a migration (R433 to R436): what a partition's halted state comes to, the frame of the image
(R434, R435), and the state put back at a destination. The manual gives the contents of a record, not their layout: how contents
stand for state is a pair of constants without a body. -/

namespace Sys2Proof.Machine

/-! ### What the image carries -/

/-- A partition's state at the end of capture, apart from memory (R435). Cores are numbered by logical cluster, functions as at
the destination; teams that were on a core (`live`) or evicted are READY, with what their cores held of them; every other number
is the source's, below `size`. `run` is the function that was running. -/
structure Lading where
  part : Part := {}
  run : Option Nat := none
  size : Nat := 0
  live : List Nat := []
  launches : Store Launch := []
  teams : Store Team := []
  groups : Store Group := []
  stowed : Store Core := []
  shadows : Store Core := []
  ops : Store EngineOp := []
  colls : Store CollProg := []
  drains : Store DrainOp := []
  carried : Store Outbound := []
  writes : List CpWrite := []

/-- A record of the image: TYPE, FN, logical cluster, contents. -/
structure LadingRecord where
  kind : Nat
  fn : Nat
  cluster : Nat
  contents : List Byte
  deriving DecidableEq, Repr

end Sys2Proof.Machine

namespace Sys2Proof.Config

open Machine

/-- The records that stand for a state: the layout of their contents is not stated (R435). -/
opaque ladingRecords : Lading → List LadingRecord

/-- The state that records stand for; none where one breaks its limits. -/
opaque ladingOf : List LadingRecord → Option Lading

end Sys2Proof.Config

namespace Sys2Proof.Machine

/-! ### Capture (R433) -/

/-- A device core by the number of its logical cluster. -/
def State.logicalCore (s : State) (p core : Nat) : Nat := 8 * s.logicalCluster p (core / 8) + core % 8

/-- The device core of a logical core. -/
def State.deviceCore (s : State) (p core : Nat) : Nat := 8 * s.deviceCluster p (core / 8) + core % 8

/-- A scratch range moved with its cluster. -/
def Range.onCluster (r : Range) (f : Nat → Nat) : Range :=
  if r.scratch then
    let o := r.base - scratchBase
    { r with base := scratchLoc (f (o / 2 ^ 21)) (o % 2 ^ 21) }
  else r

/-- A number by function or by function and number, with the function renamed. -/
def refn (f : Nat → Nat) (k : Nat) : Nat := f (k / 65536) * 65536 + k % 65536

/-- A table with its keys renamed. -/
def rekey {α : Type} (t : Store α) (f : Nat → Nat) : Store α := t.foldl (fun u e => put u (f e.1) e.2) []

/-- A context of a renamed function. -/
def Ctx.rename (c : Ctx) (f : Nat → Nat) : Ctx := { c with fn := f c.fn }

/-- What the CP record says of the queues: those mapped have been written back; one with packets or a command under way is pending. -/
def Part.queuesHeld (q : Part) : List Nat :=
  q.mapped.foldl (fun l e =>
    if (e.2.state = 1 ∧ e.2.rptr ≠ e.2.wptr) ∨ q.partway.contains e.1 then insertNat l e.1 else l) q.pendingBits

/-- The packets of commands under way, which no slot reads again (R435). -/
def Part.underWay (q : Part) : Store (List Byte) :=
  q.mapped.foldl (fun t e =>
    match q.partway.contains e.1, look e.2.ahead e.2.rptr.toNat with
    | true, some b => put t e.1 b
    | _, _ => t) q.resume

/-- A partition's own record, with its functions renamed. -/
def Part.toLading (q : Part) (f : Nat → Nat) : Part :=
  { q with
    mapped := [], pendingBits := q.queuesHeld, resume := q.underWay, procs := rekey q.procs (refn f), notify := rekey q.notify (refn f)
    vtime := rekey q.vtime (refn f), fusedOf := rekey q.fusedOf f, worked := mapAll q.worked (refn f)
    faults := q.faults.map (fun r => { r with fn := f r.fn }) }

/-- The state of a partition as the image carries it, its functions renamed as the migration list gives. -/
def State.lading (s : State) (p : Nat) (f : Nat → Nat) : Lading :=
  let mine := s.teams.filter (fun e => e.2.ctx.part == p && e.2.state != .retired)
  let live := mine.filter (fun e => e.2.state == .resident)
  let away := live.foldl (fun u e =>
    let c := (u.core e.2.core).split e.1
    { u.stowScratch e.1 with stowed := put u.stowed e.1 c.1, cores := put u.cores e.2.core c.2 }) s
  let tids := mine.map (·.1)
  let groups := s.groups.filter (fun e => tids.contains e.2.team)
  let gids := groups.map (·.1)
  { part := (s.part p).toLading f, run := ((s.part p).running).map f, size := s.nextId, live := live.map (·.1)
    launches := (s.launches.filter (fun e => e.2.part == p)).map (fun (e : Nat × Launch) =>
      (e.1, { e.2 with fn := f e.2.fn, ctx := e.2.ctx.rename f, cores := [] }))
    teams := (away.teams.filter (fun e => tids.contains e.1)).map (fun (e : Nat × Team) => (e.1, { e.2 with
      core := s.logicalCore p e.2.core, ctx := e.2.ctx.rename f
      state := if e.2.state = .resident ∨ e.2.state = .evicted then .ready else e.2.state }))
    groups := groups, stowed := away.stowed.filter (fun e => tids.contains e.1)
    shadows := (s.shadows.filter (fun e => (s.partCores p).contains (e.1 % 512))).map (fun (e : Nat × Core) =>
      (f (e.1 / 512) * 512 + s.logicalCore p (e.1 % 512), e.2))
    ops := (s.ops.filter (fun e => e.2.ctx.part == p)).map (fun (e : Nat × EngineOp) => (e.1, { e.2 with
      ctx := e.2.ctx.rename f, core := if e.2.core < 512 then s.logicalCore p e.2.core else e.2.core, out := none
      srcs := e.2.srcs.map (fun (r : Range) => r.onCluster (s.logicalCluster p))
      dsts := e.2.dsts.map (fun (r : Range) => r.onCluster (s.logicalCluster p)) }))
    colls := (s.colls.filter (fun e => e.2.ctx.part == p)).map (fun (e : Nat × CollProg) => (e.1, { e.2 with ctx := e.2.ctx.rename f }))
    drains := s.drains.filter (fun e => gids.contains e.2.gid)
    carried := s.outbound.filter (fun e => e.2.part == p && (match e.2.owner with | .drain _ => true | _ => false))
    writes := (s.cpWrites.filter (fun w => w.ctx.part == p)).map (fun (w : CpWrite) => { w with ctx := w.ctx.rename f }) }

/-! ### The frame (R434, R435) -/

/-- One byte more of a CRC-32C, bit by bit. -/
def crcStep (crc : BitVec 32) (n : Nat) : BitVec 32 :=
  match n with
  | 0 => crc
  | k + 1 => crcStep (if crc.getLsbD 0 then (crc >>> 1) ^^^ 0x82F63B78#32 else crc >>> 1) k

/-- CRC-32C. -/
def crc32c (l : List Byte) : Nat := (~~~(l.foldl (fun (c : BitVec 32) b => crcStep (c ^^^ b.zeroExtend 32) 8) 0xFFFFFFFF#32)).toNat

/-- A record as bytes, filled up to granules. -/
def LadingRecord.bytes (r : LadingRecord) : List Byte :=
  let c := padGranules r.contents
  toBytes 4 r.kind ++ toBytes 4 (16 + c.length) ++ toBytes 8 (r.fn % 2 ^ 11 + r.cluster % 2 ^ 6 * 2 ^ 11) ++ c

/-- The die of a compute cluster. -/
def dieOf (cluster : Nat) : Nat := cluster / 16

/-- Which logical clusters are the first of their die (R434). -/
def State.diesOf (s : State) (p : Nat) : Nat :=
  (List.range (s.clusterCount p)).foldl (fun m n =>
    if n = 0 ∨ dieOf (s.deviceCluster p n) ≠ dieOf (s.deviceCluster p (n - 1)) then m + 2 ^ n else m) 0

/-- The image: its header, its records, and END. -/
def State.imageBytes (s : State) (p : Nat) (rs : List LadingRecord) : List Byte :=
  let body := rs.flatMap LadingRecord.bytes ++ ({ kind := 0x3F, fn := 0, cluster := 0, contents := [] } : LadingRecord).bytes
  let tail := toBytes 8 ((s.part p).capClock) ++ List.replicate 24 0 ++ body
  toBytes 4 0x4744414C ++ toBytes 2 0x0100 ++ toBytes 2 (s.clusterCount p) ++ toBytes 8 (s.diesOf p) ++ toBytes 8 (64 + body.length) ++
    toBytes 4 (rs.length + 1) ++ toBytes 4 (crc32c tail) ++ tail

/-- The TYPEs of R435. -/
def ladingTypes : List Nat :=
  [0x01, 0x02, 0x03, 0x10, 0x11, 0x12, 0x13, 0x20, 0x21, 0x22, 0x23, 0x30, 0x31, 0x32, 0x33, 0x3F]

/-- The records of an image's bytes, n of them, END the last; none where one breaks R435. -/
def parseRecords (l : List Byte) (n : Nat) : Option (List LadingRecord) :=
  match n with
  | 0 => none
  | k + 1 =>
    let at_ (o m : Nat) : Nat := ofBytes ((l.drop o).take m)
    let len := at_ 4 4
    let w := at_ 8 8
    if l.length < 16 ∨ len < 16 ∨ len % 16 ≠ 0 ∨ l.length < len ∨ at_ 2 2 ≠ 0 ∨ 2 ^ 17 ≤ w ∨ ladingTypes.contains (at_ 0 2) = false then none
    else if at_ 0 2 = 0x3F then (if len = 16 ∧ l.length = 16 ∧ k = 0 then some [] else none)
    else
      (parseRecords (l.drop len) k).map (fun rs =>
        { kind := at_ 0 2, fn := w % 2 ^ 11, cluster := w / 2 ^ 11, contents := (l.drop 16).take (len - 16) } :: rs)

/-- CAPCLK and the records of an image at a partition, where its header, CRC and records stand (R434 to R436). -/
def State.parseImage (s : State) (p : Nat) (l : List Byte) : Option (Nat × List LadingRecord) :=
  let at_ (o m : Nat) : Nat := ofBytes ((l.drop o).take m)
  if at_ 0 4 = 0x4744414C ∧ at_ 4 2 = 0x0100 ∧ at_ 6 2 = s.clusterCount p ∧ at_ 8 8 = s.diesOf p ∧ at_ 16 8 = l.length ∧
      at_ 28 4 = crc32c (l.drop 32) ∧ at_ 40 24 = 0 then
    (parseRecords (l.drop 64) (at_ 24 4)).map (fun rs => (at_ 32 8, rs))
  else none

/-! ### Installation (R436) -/

/-- A lane, its numbers k higher; one that waits on WAITC reads its word again, one that waits for a home comes to it anew. -/
def Lane.shift (k : Nat) (l : Lane) : Lane :=
  { l with park := match l.park with
      | some (.memorySide id) => some (.memorySide (id + k))
      | some .waitc => none
      | some (.home _ _) => none
      | o => o }

/-- A group's restorable part, its numbers k higher. -/
def GroupArch.shift (k : Nat) (a : GroupArch) : GroupArch :=
  ({ a with lanes := a.lanes.map (Lane.shift k), bound := a.bound.map (fun b => (b.1, b.2 + k)) } : GroupArch).repath

/-- A group, its numbers k higher, out of any epoch. -/
def Group.shift (k : Nat) (g : Group) : Group :=
  { g with team := g.team + k, arch := g.arch.shift k, epoch := none, kept := [], drained := g.drained.map (· + k), idle := 0 }

/-- A fork-queue entry, its numbers k higher. -/
def ForkEntry.shift (k : Nat) (e : ForkEntry) : ForkEntry := { e with team := e.team + k }

/-- What a core holds, its numbers k higher. -/
def Core.shift (k : Nat) (c : Core) : Core :=
  { c with
    matrix := c.matrix.map (fun (m : MatrixRun) => { m with refill := true, entry := m.entry.shift k, pending := m.pending.map (· + k) })
    chain := c.chain.map (fun (m : SeqRun) => { m with entry := m.entry.shift k })
    copy := c.copy.map (fun (m : SeqRun) => { m with entry := m.entry.shift k })
    matrixQ := c.matrixQ.map (ForkEntry.shift k), chainQ := c.chainQ.map (ForkEntry.shift k), copyQ := c.copyQ.map (ForkEntry.shift k)
    slots := mapAll c.slots (fun t => { t with team := t.team.map (· + k) }), icache := [], droop := false, lag := 0 }

/-- An engine operation, its numbers k higher, in its context at the destination. -/
def EngineOp.shift (k : Nat) (ctx : Ctx → Ctx) (o : EngineOp) : EngineOp :=
  { o with
    team := o.team + k, gid := o.gid + k, ctx := ctx o.ctx
    kind := match o.kind with | .collective q n => .collective (q + k) n | x => x }

/-- A collective program, its numbers k higher. -/
def CollProg.shift (k : Nat) (ctx : Ctx → Ctx) (c : CollProg) : CollProg :=
  { c with
    team := c.team + k, gid := c.gid + k, ctx := ctx c.ctx, fetchOp := c.fetchOp + k
    posted := c.posted.map (fun t => { t with engineOp := t.engineOp + k }) }

/-- A party of a fault record, its numbers k higher. -/
def Party.shift (k : Nat) (q : Party) : Party :=
  match q with
  | .lanes g t => .lanes (g + k) t
  | .op id c a w => .op (id + k) c a w

/-- An access not yet performed, translated anew. -/
def Req.anew (s : State) (ctx : Ctx) (r : Req) : Req :=
  match freshWalk s ctx (if r.what.writes then .write else .read) r.gva with
  | .ok f => { r with x := some f.x, loc := outLoc f.x.kind f.x.out, key := s.serialOf f.x.key }
  | .error _ => r

/-- A drained instruction, its numbers k higher; what its carried access does not cover is translated anew. -/
def DrainOp.shift (k : Nat) (anew : Req → Req) (d : DrainOp) : DrainOp :=
  { d with
    gid := d.gid + k, saved := d.saved.shift k, after := d.after.shift k, out := d.out.map (· + k)
    todo := if d.out.isSome then d.todo.take 1 ++ (d.todo.drop 1).map anew else d.todo.map anew }

/-- A destination partition's record: its own registers, and what the image says of its CP. -/
def Part.installed (q : Part) (m : Part) (k : Nat) : Part :=
  { q with
    pendingBits := m.pendingBits, partway := m.partway, resume := m.resume, waiting := m.waiting, notify := m.notify, vtime := m.vtime, procs := m.procs
    worked := m.worked, rr := m.rr, fused := m.fused, fusedOf := m.fusedOf, mapped := [], ageSince := []
    launches := mapAll m.launches (fun l => l.map (· + k)), lastLaunch := mapAll m.lastLaunch (· + k)
    faults := m.faults.map (fun r => { r with id := none, parties := r.parties.map (Party.shift k) })
    switch := .running, next := none, writingBack := [], running := none, migHeld := true }

/-- A set placed on its logical cluster (R436); none where it does not fit. -/
def State.placeSet (s : State) (p tid : Nat) : Option State :=
  match look s.teams tid with
  | none => some s
  | some t =>
    if t.state ≠ .ready then some s
    else
      let ms := (s.membersOf tid).filter (fun m => m.2.state == .ready)
      let l := lookD s.launches t.launch {}
      let ok (i c : Nat) : Bool :=
        c / 8 == s.deviceCluster p t.cluster && (match ms[i]? with | some e => (s.core c).canJoin (lookD s.stowed e.1 {}) && s.rltTakes e.1 c | none => true)
      (s.place p l ms.length ok).map (fun r => s.readmit p ms r.1 r.2)

/-- Sets placed one after another. -/
def State.placeSets (s : State) (p : Nat) (l : List Nat) : Option State :=
  match l with
  | [] => some s
  | t :: r => (s.placeSet p t).bind (fun u => u.placeSets p r)

/-- The context of a function at the destination. -/
def State.arrived (s : State) (p : Nat) (c : Ctx) : Ctx :=
  let n := s.fnCtx p c.fn
  { c with part := p, s2root := n.s2root, s2en := n.s2en }

/-- The tables of the state with what the image carries, numbers from `nextId` on. -/
def State.withLading (s : State) (p : Nat) (m : Lading) : State :=
  let k := s.nextId
  let ctx := s.arrived p
  let add {α : Type} (t u : Store α) (f : α → α) : Store α := u.foldl (fun t e => put t (e.1 + k) (f e.2)) t
  let anew (r : Req) (d : DrainOp) : Req :=
    match (look m.groups d.gid).bind (fun g => look m.teams g.team) with
    | some t => r.anew s (ctx t.ctx)
    | none => r
  { s with
    nextId := k + m.size
    parts := put s.parts p ((s.part p).installed m.part k)
    launches := add s.launches m.launches (fun l => { l with part := p, ctx := ctx l.ctx })
    teams := add s.teams m.teams (fun t => { t with
      launch := t.launch + k, ctx := ctx t.ctx, groups := t.groups.map (· + k), guide := t.guide.map (· + k)
      core := if t.state = .swapped then s.deviceCore p t.core else t.core })
    groups := add s.groups m.groups (Group.shift k)
    stowed := add s.stowed m.stowed (Core.shift k)
    shadows := m.shadows.foldl (fun t e => put t (e.1 / 512 * 512 + s.deviceCore p (e.1 % 512)) (e.2.shift k)) s.shadows
    ops := add s.ops m.ops (fun o =>
      let o1 := o.shift k ctx
      if (lookD m.teams o.team {}).state = .swapped then
        { o1 with core := if o.core < 512 then s.deviceCore p o.core else o.core
                  srcs := o1.srcs.map (fun (r : Range) => r.onCluster (s.deviceCluster p))
                  dsts := o1.dsts.map (fun (r : Range) => r.onCluster (s.deviceCluster p)) }
      else o1)
    colls := add s.colls m.colls (CollProg.shift k ctx)
    drains := m.drains.foldl (fun t e => put t (e.1 + k) (e.2.shift k (fun r => anew r e.2))) s.drains
    outbound := m.carried.zipIdx.foldl (fun t (e : (Nat × Outbound) × Nat) => put t (e.1.1 + k) { e.1.2 with
      owner := match e.1.2.owner with | .drain id => .drain (id + k) | o => o
      part := p, state := .elsewhere e.2, moved := none }) s.outbound
    cpWrites := s.cpWrites ++ m.writes.map (fun w => { w with ctx := ctx w.ctx }) }

/-- RLS set for every range an installed operation holds (R436). -/
def State.relock (s : State) (p : Nat) : State :=
  (s.ops.filter (fun e => e.2.ctx.part == p && e.2.locked)).foldl (fun t e =>
    ((e.2.srcs ++ e.2.dsts).filter (fun r => !r.scratch)).foldl (fun u r => u.setRls e.2.ctx r.base (r.base + r.len)) t) s

/-- The contexts of the functions that arrived swapped out written into their SAVEAREAs (R436). -/
def State.saveContexts (s : State) (p : Nat) : State :=
  let fns := (s.teams.filter (fun e => e.2.state == .swapped && e.2.ctx.part == p)).foldl (fun l e => insertNat l e.2.ctx.fn) []
  fns.foldl (fun t f => t.storeFree (t.contextAt p f).1 0 (t.contextAt p f).2) s

/-- The state an image comes to at a destination; none where a set cannot be placed. -/
def State.installLading (s : State) (p : Nat) (m : Lading) : Option State :=
  ((s.withLading p m).placeSets p (m.live.map (· + s.nextId))).map (fun t =>
    (((t.saveContexts p).relock p).onPart p (fun q => { q with inRun := m.run })).writeRecords p 512)

end Sys2Proof.Machine
end

