-- ==== Sys2Proof/Machine/Migration.lean ====
section
/-! DEFINITION. Live migration (R426 to R440): GO, STOP and ABORT, the pre-copy rounds and the governor, the stop, the writes that
arrive at a destination, installation, switch, resume and forwarding. -/

namespace Sys2Proof.Machine

/-! ### The migration list (R427, R428) -/

/-- An entry of the migration list. -/
structure Extent where
  gpa : Nat
  len : Nat
  sfn : Nat
  dfn : Nat
  deriving DecidableEq, Repr

/-- The entry at a DPA; none where it breaks R427. -/
def State.extentAt (s : State) (a : Nat) : Option Extent :=
  let w (n : Nat) : Nat := (s.readDWord 0 (a + 8 * n)).toNat
  if w 0 < 2 ^ 52 ∧ w 0 % 2048 = 0 ∧ w 1 ≠ 0 ∧ w 1 % 2048 = 0 ∧ w 0 + w 1 ≤ 2 ^ 52 ∧ w 2 / 2 ^ 32 = 0 ∧ w 3 = 0 ∧ w 2 / 2 ^ 11 % 32 = 0 ∧
      w 2 / 2 ^ 27 % 32 = 0 then
    some { gpa := w 0, len := w 1, sfn := w 2 % 2 ^ 11, dfn := w 2 / 2 ^ 16 % 2 ^ 11 }
  else none

/-- How many entries MIGLIST names. -/
def Part.listCount (q : Part) : Nat := bits q.migList 40 24

/-- The entries of a partition's migration list; none where one breaks R427. -/
def State.extents (s : State) (p : Nat) : Option (List Extent) :=
  let q := s.part p
  if q.listCount = 0 then none
  else allSome ((List.range q.listCount).map (fun i => s.extentAt (bits q.migList 5 35 * 2 ^ 5 + 32 * i)))

/-- What an extent maps to. -/
def State.extentPieces (s : State) (p : Nat) (e : Extent) : List Piece := gpaPieces s (s.fnCtx p e.sfn) e.gpa (e.gpa + e.len)

/-- Whether every block of an extent has a valid LOCAL leaf. -/
def State.extentMapped (s : State) (p : Nat) (e : Extent) : Bool :=
  let l := s.extentPieces p e
  l.all (fun x => x.kind == .dram) && decide (l.foldl (fun n x => n + x.size) 0 = e.len)

/-- Whether a leaf of an extent forbids the migration: outside DRAM, of a function that is not the partition's, host-owned, or in a range
that the host's HDM decoders expose. -/
def State.extentBad (s : State) (p : Nat) (e : Extent) : Bool :=
  !(s.functionsOf p).contains e.sfn ||
    (s.extentPieces p e).any (fun x =>
      decide (dramSize < x.out + x.size) || (span (x.out / 2 ^ 28) ((x.out + x.size - 1) / 2 ^ 28 - x.out / 2 ^ 28 + 1)).any Config.hdm || (decide (x.leaf < dramSize) && leafHostOwned (s.readDWord 0 x.leaf)))

/-- Whether a BIASFLIP or MIGRATE64K is in progress on a page of an extent. -/
def State.extentBusy (s : State) (p : Nat) (e : Extent) : Bool :=
  let hit (fn gpa : Nat) : Bool := fn == e.sfn && overlap gpa (2 ^ 16) e.gpa e.len
  (s.part p).waiting.any (fun w =>
    match w.what with
    | .flipLocks fn g _ _ _ _ => hit fn g
    | .flipHost fn g _ _ _ _ => hit fn g
    | .flipInval _ fn g _ => hit fn g
    | .migrateInval _ fn g _ _ _ _ _ => hit fn g
    | .invalidation _ => false)

/-- The STATUS with which GO is refused (R428, R456); 0 where it is not. -/
def State.goStatus (s : State) (p : Nat) : Nat :=
  let q := s.part p
  match s.extents p with
  | none => 1
  | some es =>
    if es.any (fun e => !s.extentMapped p e) then 1
    else if s.sec.sealedParts.contains p ∧ (look s.sec.migKeys p).isNone then 2
    else if es.any (fun e => s.extentBad p e || s.extentBusy p e) ∨ q.migPorts = 0 ∨ vdnV (s.vdnOf q.migDvdn) = false ∨ vdnV (s.vdnOf q.migSelf) = false then 2
    else 0

/-! ### MIGCTL (R426, R428, R440) -/

/-- The storage fields of MIGCTL. -/
def Part.setMigctl (q : Part) (w : DWord) : Part :=
  { q with
    migAuto := w.getLsbD 60, migDvdn := bits w 49 11, migPorts := BitVec.ofNat 18 (bits w 31 18), migSelf := bits w 20 11
    migRate := bits w 0 16 }

/-- GO: pre-copy begins, unless R428 refuses it; ignored while a migration is under way. -/
def State.migrateGo (s : State) (p : Nat) : State :=
  let q := s.part p
  if q.migPhase = 1 ∨ q.migPhase = 2 ∨ q.migPhase = 3 then s
  else
    match s.goStatus p with
    | 0 =>
      let ranges := ((s.extents p).getD []).flatMap (fun e => (s.extentPieces p e).map (fun x => (x.out, x.size)))
      s.onPart p (fun q => { q with
        migPhase := 1, migStatus := 0, migRound := 0, migDirty := 0, migPos := 0, migRanges := ranges, migStop := false, migEffective := q.migRate
        migUsed := 0, migReading := false, migCaptured := false, migImage := false, migEndAck := false })
    | st => s.onPart p (fun q => { q with migPhase := 6, migStatus := st })

/-- STOP: the stop is asked for; taken during pre-copy. -/
def State.migrateStop (s : State) (p : Nat) : State :=
  if (s.part p).migPhase = 1 then s.onPart p (fun q => { q with migStop := true }) else s

/-- ABORT: the migration is abandoned, unless the destination has acknowledged END (R440). -/
def State.migrateAbort (s : State) (p : Nat) : State :=
  let q := s.part p
  if q.migPhase = 1 ∨ (q.migPhase = 2 ∧ q.migEndAck = false) then s.endMove p 5 q.migStatus else s

/-- MIGCTL_GO: the other fields of the written value, then GO. -/
def execMigctlGo (p : Nat) (value : DWord) (s : State) : Out := .next ((s.onPart p (fun q => q.setMigctl value)).migrateGo p)

/-- MIGCTL_STOP. -/
def execMigctlStop (p : Nat) (s : State) : Out := .next (s.migrateStop p)

/-- MIGCTL_ABORT. -/
def execMigctlAbort (p : Nat) (s : State) : Out := .next (s.migrateAbort p)

/-! ### Pre-copy and the stop (R430 to R433) -/

/-- How many blocks the list names. -/
def listBlocks (es : List Extent) : Nat := es.foldl (fun n e => n + e.len / 2048) 0

/-- The block at a place of the list: its extent and GPA. -/
def blockAt (es : List Extent) (n : Nat) : Option (Extent × Nat) :=
  match es with
  | [] => none
  | e :: r => if n < e.len / 2048 then some (e, e.gpa + 2048 * n) else blockAt r (n - e.len / 2048)

/-- Where a listed block stands. -/
def State.blockLoc (s : State) (p : Nat) (b : Extent × Nat) : Option (Nat × Nat) :=
  match stage2 s (s.fnCtx p b.1.sfn) b.2 with
  | .ok l => let x := xlatOf l b.2 false; if x.kind = .dram then some (x.out, s.serialOf x.key) else none
  | .error _ => none

/-- A payload's granules under the migration key of a partition that has one, each with the tweak of its place and bit 126 set
(R456); `enc` as sent, otherwise as received. -/
def State.underMigKey (s : State) (p : Nat) (enc : Bool) (place : Nat) (l : List Byte) : List Byte :=
  match look s.sec.migKeys p with
  | none => l
  | some k =>
    (List.range (l.length / 16)).flatMap (fun i =>
      let g := BitVec.ofNat 128 (ofBytes ((l.drop (16 * i)).take 16))
      let t := place / 16 + i + 2 ^ 126
      toBytes 16 (if enc then Config.xtsEncrypt k t g else Config.xtsDecrypt k t g).toNat)

/-- A migration write put on the fabric (R432). -/
def State.sendMove (s : State) (p op tag gpa : Nat) (l0 : List Byte) (last : Bool) : State :=
  let q := s.part p
  let l := if s.sec.sealedParts.contains p then s.underMigKey p true gpa l0 else l0
  let f : Flit := { tc := 3, dvdn := Fin.ofNat 2048 q.migDvdn, svdn := Fin.ofNat 2048 q.migSelf, tag := BitVec.ofNat 16 tag
                    len := Fin.ofNat 16 (ceilDiv l.length 16), op := Fin.ofNat 64 op, mask := 0xFFFF, gpa := gpa, payload := l }
  let r := (s.emit { kind := 0x02, flit := f }).sendOut
    { owner := .move p, part := p, fn := 0, svdn := q.migSelf, vdn := q.migDvdn, gpa := gpa, size := l.length, what := .store l, tc := 3
      seq := if last then some 1 else none, state := .held }
  match r.1.serveOut r.2 with
  | (t, some _) => t.endMove p 6 4
  | (t, none) => t

/-- The flags of a line's eight granules as a byte. -/
def lineFlags (f : Nat → Bool) : Nat := (List.range 8).foldl (fun m i => if f i then m + 2 ^ i else m) 0

/-- One line of a block as a data write: its granules under the leaf's key, its tags, its uncorrectable granules as zeros (R430, R432). -/
def State.sendLine (s : State) (p : Nat) (b : Extent × Nat) (loc serial i : Nat) : State :=
  let a := loc + 128 * i
  let spoilt := s.badGranules a 128
  let bad (g : Nat) : Bool := spoilt.contains (a / 16 + g)
  let l := (List.range 8).flatMap (fun g => if bad g then List.replicate 16 0 else s.mem.getsUnder serial (a + 16 * g) 16)
  s.sendMove p 0x3F b.1.dfn (b.2 + 128 * i)
    (l ++ toBytes 1 (lineFlags (fun g => !bad g && s.mem.tag (a / 16 + g))) ++ toBytes 1 (lineFlags bad) ++ List.replicate 14 0) false

/-- The next block of the round, where it is due: its bit cleared, then its lines read and sent as soon as the homes give them (R430). -/
def State.passBlock (s : State) (p : Nat) (all : Bool) (b : Extent × Nat) : State :=
  let on (t : State) : State := t.onPart p (fun q => { q with migPos := q.migPos + 1, migReading := false })
  let reading := (s.part p).migReading
  match s.blockLoc p b with
  | none => on s
  | some (loc, serial) =>
    if !all && !reading && !s.dirtyMap.contains (loc / 2048) then on s
    else
      let s0 : State := if reading then s else { s with dirtyMap := removeNat s.dirtyMap (loc / 2048) }
      let s1 := (s0.onPart p (fun q => { q with migReading := true })).takeRange loc 2048 false
      if !s1.rangeFree loc 2048 false then s1
      else on ((List.range 16).foldl (fun t i => t.sendLine p b loc serial i) (s1.below loc 2048 serial false false))

/-- The groups and guides of a partition. -/
def State.partGids (s : State) (p : Nat) : List Nat := gidsOf (s.teams.filter (fun e => e.2.ctx.part == p))

/-- Whether the halt of a stop is complete (R433): what has not completed is carried, no memory-side access is held back by a
retirement, the engines have stopped, each of their packets on the fabric has its answer, no command is half-way but one that waits for
memory or for launches. -/
def State.haltDone (s : State) (p : Nat) : Bool :=
  let gids := s.partGids p
  s.drains.all (fun e => !gids.contains e.2.gid || (s.carriable e.2 && !(e.2.batch.any (fun r => s.retiring r.loc)))) &&
    s.reduces.all (fun e => !gids.contains e.2.base.gid) && s.enginesStopped (fun t => t.ctx.part == p) &&
    s.outbound.all (fun e => e.2.part != p || (match e.2.owner, e.2.state with | .op _, .sent _ _ => false | _, _ => true)) &&
    (s.part p).waiting.isEmpty

/-- The destination's number of a function (R427). -/
def dfnOf (es : List Extent) (fn : Nat) : Nat := ((es.find? (fun e => e.sfn == fn)).map (·.dfn)).getD fn

/-- The copies with dirty granules that the L1s of a partition's clusters hold. -/
def State.dirtyOf (s : State) (p : Nat) : List L1Line := s.l1.filter (fun c => (s.partCores p).contains c.core && c.dirty != 0)

/-- The dirty lines of a partition's clusters written back where nothing makes the write wait; the copies stay, clean (R433). -/
def State.flushPart (s : State) (p : Nat) : State :=
  (s.dirtyOf p).foldl (fun t c =>
    if t.mscStalls c.line || t.governed c.line then t else (t.setCopy { c with dirty := 0 }).takeWriteBack c.line c.dirty) s

/-- The lading image sent, 240 bytes a write, END with the last; the accesses carried go with the partition under their index. -/
def State.sendImage (s : State) (p : Nat) (es : List Extent) : State :=
  let s1 := s.onPart p (fun q => { q with migImage := true })
  let m := s1.lading p (dfnOf es)
  let l := s1.imageBytes p (Config.ladingRecords m)
  let ids := m.carried.map (·.1)
  let s2 := { s1 with outbound := s1.outbound.map (fun (e : Nat × Outbound) =>
    match ids.findIdx? (· == e.1) with | some n => (e.1, { e.2 with moved := some n }) | none => e) }
  let n := ceilDiv l.length 240
  (List.range n).foldl (fun t i => t.sendMove p 0x3E 0 (240 * i) ((l.drop (240 * i)).take 240) (i + 1 == n)) s2

/-- The migration engine's next block; in the stop, once the halt is complete, the capture, the flush, the residual and then the lading
image (R433, R434). -/
def State.precopy (s : State) (p : Nat) : State :=
  let q := s.part p
  match s.extents p with
  | none => s
  | some es =>
    if q.migPhase = 1 then (match blockAt es q.migPos with | some b => s.passBlock p (q.migRound == 0) b | none => s)
    else if q.migPhase ≠ 2 ∨ q.migImage then s
    else if !q.migCaptured then
      (if s.haltDone p then s.onPart p (fun q => { q with migCaptured := true, capClock := s.partClock p }) else s)
    else if !(s.dirtyOf p).isEmpty then s.flushPart p
    else match blockAt es q.migPos with | some b => s.passBlock p false b | none => s.sendImage p es

/-- The listed blocks that are dirty. -/
def State.dirtyListed (s : State) (p : Nat) : Nat := (s.dirtyMap.filter (fun b => (s.part p).lists b)).length

/-- The stop begins (R433): inbound packets are held, every group of the partition rolls back or discards its shadow, the CP's control
blocks are written back. -/
def State.beginStop (s : State) (p : Nat) : State :=
  let s1 := s.onPart p (fun q => { q with migPhase := 2, migHeld := true, migPos := 0 })
  let s2 := (s.partGids p).foldl (fun t g => (t.rollbackGroup g false).leaveShadow g) s1
  (s.part p).mapped.foldl (fun t e => t.writeQcb p e.1 e.2) s2

/-- PRECOPY_ROUND_END: DIRTY, ROUND and the governor's rate; then the stop, or the next round. -/
def execPrecopyRoundEnd (p us : Nat) (s : State) : Out :=
  let q := s.part p
  match s.extents p with
  | none => .next s
  | some es =>
    if q.migPhase ≠ 1 ∨ q.migPos < listBlocks es then .next s
    else
      let d := s.dirtyListed p
      let s1 := s.onPart p (fun q => { q with
        migDirty := d, migRound := q.migRound + 1, migPos := 0
        migEffective := if 262144 < d ∧ q.migAuto then max 1 (131072 / us) else q.migEffective })
      .next (if q.migStop ∧ d ≤ 262144 then s1.beginStop p else s1)

/-- GOVERNOR_WINDOW: a microsecond has passed. -/
def execGovernorWindow (p : Nat) (s : State) : Out := .next (s.onPart p (fun q => { q with migUsed := 0 }))

/-! ### At the destination (R429, R432, R436) -/

/-- Bytes of the image area (R429). -/
def State.imageArea (s : State) (p : Nat) : Nat := 2 ^ 20 + 896 * 1024 * (s.partCores p).length * (s.functionsOf p).length

/-- A migration write: refused unless some partition accepts it. -/
def State.migrationWrite (s : State) (f : Flit) (ok : Bool) (act : Nat → State) : State :=
  if !ok then s.discard 0x02 f
  else
    match s.gate f.dvdn f.svdn with
    | .moved => s.reply f .moved
    | .forward p => s.forward 0x02 f p f.payload.length (.store f.payload)
    | _ => match s.acceptsMigration f with | some p => act p | none => s.refuseWrite f

/-- MIGRATION_DATA_WRITE: a line through DFN's stage 2, with tags where the leaf has CAPPG, and its uncorrectable granules. -/
def execMigrationDataWrite (pkt : Flit) (s : State) : Out :=
  .next (s.migrationWrite pkt (pkt.op == 0x3F && pkt.len == 9 && pkt.shaped && decide (pkt.gpa % 128 = 0 ∧ pkt.tag.toNat < 2 ^ 11)) (fun p =>
    let fn := pkt.tag.toNat
    match stage2 s (s.inCtx (if s.partOf fn = some p then some p else none) fn) pkt.gpa with
    | .error _ => s.reply pkt (.fault rRemote)
    | .ok l =>
      let x := xlatOf l pkt.gpa false
      if x.kind ≠ .dram then s.reply pkt (.fault rKindAttr)
      else if s.keyUsable p fn x.key = false then s.reply pkt (.error .keyMismatch)
      else
        let s1 := s.takeRange x.out 128 true
        if !(s1.rangeFree x.out 128 true && s1.belowReady x.out 128 false) then s1
        else
          let l := s1.underMigKey p false pkt.gpa pkt.payload
          let s2 := (s1.below x.out 128 (s1.serialOf x.key) false true).perform none (s1.serialOf x.key) (cellsAt x.out (l.take 128))
          let flag (n g : Nat) : Bool := ((l[n]?).getD 0).getLsbD g
          let m := (List.range 8).foldl (fun (m : Memory) g =>
            let m1 := m.setTag (x.out / 16 + g) (x.cappg && flag 128 g)
            if flag 129 g then { m1 with bad := insertNat m1.bad (x.out / 16 + g) } else m1) s2.mem
          ({ s2 with mem := m } : State).reply pkt .ack))

/-- IMAGE_WRITE: image bytes into the image area; the write that ends the image is answered when it has been installed. -/
def execImageWrite (pkt : Flit) (s : State) : Out :=
  .next (s.migrationWrite pkt (pkt.op == 0x3E && pkt.len != 0 && pkt.shaped && pkt.tag == 0) (fun p =>
    let base := (s.part p).inImg * 4096
    let n := pkt.payload.length
    if s.imageArea p < pkt.gpa + n ∨ dramSize < base + pkt.gpa + n then s.reply pkt (.error .machineCheck)
    else
      let s1 := s.takeRange (base + pkt.gpa) n true
      if !(s1.rangeFree (base + pkt.gpa) n true && s1.belowReady (base + pkt.gpa) n false) then s1
      else
        let s2 := (s1.below (base + pkt.gpa) n 0 false true).perform none 0 (cellsAt (base + pkt.gpa) (s1.underMigKey p false pkt.gpa pkt.payload))
        if pkt.gpa + n = (s2.readDWord 0 (base + 16)).toNat then s2.onPart p (fun q => { q with inEnd := some pkt }) else s2.reply pkt .ack))

/-- What a carried-result write says (R432). The bytes of a value wider than eight are free. -/
def State.resultOf (s : State) (q : Outbound) (l : List Byte) : Answer :=
  let b (n : Nat) : Nat := ((l[n]?).getD 0).toNat
  match b 8 with
  | 0 => .data ((l.take 8 ++ (List.range 8).map (fun i => Config.byte (s.free + i))).take q.size)
  | 1 => .ack
  | _ => (errorAnswer (b 9)).getD (.error .machineCheck)

/-- A carried access's result applied to what waits for it (R385). -/
def State.applyResult (s : State) (p index : Nat) (l : List Byte) : State :=
  match s.outbound.find? (fun e => e.2.part == p && e.2.state == .elsewhere index) with
  | some (id, q) => ({ s with outbound := del s.outbound id, free := s.free + 8 } : State).delivered q (s.resultOf q l)
  | none => s

/-- CARRIED_RESULT_WRITE: the result of an access that stayed with the source, applied to its lane, or kept until the image is
installed. -/
def execCarriedResultWrite (pkt : Flit) (s : State) : Out :=
  .next (s.migrationWrite pkt (pkt.op == 0x3D && pkt.len == 1 && pkt.shaped && pkt.tag == 0 && decide (pkt.gpa < 2 ^ 16)) (fun p =>
    let ph := (s.part p).inPhase
    if ph = 2 ∨ ph = 3 then (s.applyResult p pkt.gpa pkt.payload).reply pkt .ack
    else if ph = 1 then (s.onPart p (fun q => { q with carried := put q.carried pkt.gpa pkt.payload })).reply pkt .ack
    else s.refuseWrite pkt))

/-- The image of a partition installed: none where it fails (R435, R436). -/
def State.installed (s : State) (p : Nat) : Option State :=
  let base := (s.part p).inImg * 4096
  let n := (s.readDWord 0 (base + 16)).toNat
  if n < 64 ∨ s.imageArea p < n then none
  else
    match s.parseImage p (s.mem.getsUnder 0 base n) with
    | none => none
    | some (clk, rs) =>
      (Config.ladingOf rs).bind (fun m => (s.installLading p m).map (fun t =>
        let t1 := t.onPart p (fun q => { q with inPhase := 2, inEnd := none, capClock := clk, carried := [] })
        (s.part p).carried.foldl (fun u e => u.applyResult p e.1 e.2) t1))

/-- INSTALL: once END has come, the image is installed and END answered. -/
def execInstall (p : Nat) (s : State) : Out :=
  match (s.part p).inEnd with
  | none => .next s
  | some f =>
    match s.installed p with
    | some t => .next (t.reply f .ack)
    | none => .next ((s.onPart p (fun q => { q with inPhase := 4, inEnd := none })).reply f (.error .machineCheck))

/-! ### Switch, resume, forwarding (R437, R438) -/

/-- The VDNs bound to a partition's functions, with their entries. -/
def State.vdnsOf (s : State) (p : Nat) : List (Nat × DWord) :=
  s.vdn.filter (fun e => vdnV e.2 && vdnLocal e.2 && s.partOf (vdnFn e.2) == some p)

/-- An entry of the partition's VDNs after the switch at the source. -/
def switchedEntry (e dest : DWord) : DWord :=
  BitVec.ofNat 64 (bits e 0 15 + (vdnEpoch e + 1) % 2 ^ 16 * 2 ^ 15 + vdnPorts dest * 2 ^ 31 + vdnDev dest * 2 ^ 49 + bits e 61 3 * 2 ^ 61)

/-- SWITCH: the destination has acknowledged END: the source's entries lead there from now on. -/
def execSwitch (p : Nat) (s : State) : Out :=
  let q := s.part p
  if q.migPhase = 2 ∧ q.migEndAck then
    let dest := s.vdnOf q.migDvdn
    let s1 := s.onPart p (fun q => { q with migPhase := 3, migSwitched := s.clock })
    .next ((s.vdnsOf p).foldl (fun t e => t.writeVdn e.1 (switchedEntry e.2 dest)) s1)
  else .next s

/-- RESUME: the destination's entries become ACTIVE, PCLKOFS takes the partition's CLOCK on, and the partition runs. -/
def execResume (p : Nat) (s : State) : Out :=
  let q := s.part p
  if q.inPhase ≠ 2 then .next s
  else
    let s1 := s.onPart p (fun q => { q with
      inPhase := 3, migHeld := false, pclkofs := BitVec.ofNat 64 (q.capClock + 2400000) - BitVec.ofNat 64 s.clock })
    let s2 := match q.inRun with | some f => s1.runFunction p f | none => s1
    .next ((s2.vdnsOf p).foldl (fun t e => t.writeVdn e.1 (e.2 &&& ~~~(3#64 <<< 61))) (s2.settleAnswers p))

/-- A partition's teams, launches, programs and engine state gone from its clusters. -/
def State.clearPart (s : State) (p : Nat) : State :=
  let gids := s.partGids p
  let cs := s.partCores p
  { s with
    groups := s.groups.filter (fun e => !gids.contains e.1), teams := s.teams.filter (fun e => e.2.ctx.part != p)
    launches := s.launches.filter (fun e => e.2.part != p), ops := s.ops.filter (fun e => e.2.ctx.part != p)
    colls := s.colls.filter (fun e => e.2.ctx.part != p), drains := s.drains.filter (fun e => !gids.contains e.2.gid)
    monitors := s.monitors.filter (fun m => !gids.contains m.gid), cpWrites := s.cpWrites.filter (fun w => w.ctx.part != p)
    stowed := s.stowed.filter (fun e => (look s.teams e.1).map (fun t => t.ctx.part) != some p)
    cores := s.cores.filter (fun e => !cs.contains e.1), shadows := s.shadows.filter (fun e => !cs.contains (e.1 % 512))
    prioTokens := mapAll s.prioTokens (fun l => l.filter (fun g => !gids.contains g))
    outbound := s.outbound.filter (fun e => e.2.part != p || e.2.moved.isSome || (match e.2.owner with | .relay _ _ => true | _ => false))
    parts := alter s.parts p (fun q => { q with
      mapped := [], pendingBits := [], partway := [], resume := [], waiting := [], launches := [], lastLaunch := [], faults := [], worked := [], procs := []
      running := none, next := none, switch := .running, invals := [], vtime := [], ageSince := [] }) }

/-- FORWARDING_END: 200 µs after the switch (R437). -/
def execForwardingEnd (p : Nat) (s : State) : Out :=
  let q := s.part p
  if q.migPhase = 3 ∧ q.migSwitched + 480000 ≤ s.clock then
    .next ((s.clearPart p).onPart p (fun q => { q with migPhase := 4, migRanges := [] }))
  else .next s

end Sys2Proof.Machine
end

