-- ==== Sys2Proof/Machine/Outrider.lean ====
section
/-! DEFINITION. Outrider mode (R111 to R127): the checkpoint, EPOCH_COMMIT, and the release of deferred commands. -/

namespace Sys2Proof.Machine

/-- Whether a group may take a checkpoint, the priority token apart (R111, R120, R123, R124, R136, R308): no lane that a replay
named has still to pass its instruction. -/
def Group.mayCheckpoint (g : Group) : Bool :=
  !g.isGuide && g.epoch.isNone && g.outctl.en && g.outctl.held.isNone && g.outctl.replay.all (fun e => (g.lane e.1).exited) &&
    g.drained.isNone && !g.trapMode

/-- Whether a group may run ahead only with its cluster's priority token, and has not got it (R136). -/
def Group.lacksToken (g : Group) : Bool := decide (16 ≤ g.outctl.rolls) && !g.outctl.token

/-- A group requests its cluster's priority token (R136, R137). -/
def State.requestToken (s : State) (gid : Nat) (g : Group) : State :=
  let c := clusterOf (s.teamOf g).core
  let q := lookD s.prioTokens c []
  if q.contains gid then s else ({ s with prioTokens := put s.prioTokens c (q ++ [gid]) } : State).grantTokens

/-- The checkpoint before an access of a convoy: the group as it stands, the results still to be written, the access as the oldest
(R111, R113, R390). -/
def Group.checkpoint (g : Group) (mask : List Nat) : Group :=
  { g with
    kept := []
    epoch := some { saved := g.arch, older := g.inflight, oldestPc := (g.lane ((mask.head?).getD 0)).pc, oldestMask := mask } }

/-- The checkpoint given up where the access before which it was taken has not entered the epoch. -/
def Group.unopened (g : Group) : Group :=
  match g.epoch with
  | some e => if e.instrs = 0 then { g with epoch := none } else g
  | none => g

/-- Whether a live range refuses a write of an epoch at its commit (R129). -/
def State.refusesWrite (s : State) (c : Ctx) (w : Nat × Nat × Option Xlat) : Bool :=
  match w.2.2 with
  | some x => (s.refuser { ctx := c, gva := w.1, size := w.2.1, x := x } true).isSome
  | none => (s.scratchRefuser w.1 w.2.1 true).isSome

/-- One store-buffer entry written, with the tag of a CSTORE. -/
def State.commitStore (s : State) (gid core : Nat) (b : Buffered) : State :=
  let s1 := s.performCells gid core (b.cells.map (fun c => (b.key, c.1, c.2)))
  match b.tag with
  | some (g, t) => { s1 with mem := s1.mem.setTag g t }
  | none => s1

/-- The group once its epoch has committed: its store flags fall, its deferred commands await their release, and its
instructions count towards a clean run (R117, R136). -/
def Group.committed (g : Group) (e : Epoch) : Group :=
  let g1 := e.storeFlags.foldl (fun g n => g.fall n) { g with epoch := none, kept := [] }
  { g1 with release := g1.release ++ e.dlb, outctl := (List.range e.instrs).foldl (fun o _ => o.step []) g1.outctl }

/-- The core of a group obtains in X the memory lines of its store buffer; the pins of the epoch that commits keep no frame from it
(DESIGN CHOICE). -/
def State.obtainStores (s : State) (core : Nat) (e : Epoch) (gid : Nat) : State × Bool :=
  let ls := (e.stores.filter (fun b => decide (b.line * 128 < scratchBase))).map (fun b =>
    (b.line, b.key, grain (b.cells.foldl (fun m c => m ||| touched b.line c.1 1) 0)))
  let a := ls.foldl (fun (a : State × Bool) l =>
    let t := a.1.obtain core l.1 l.2.1 true l.2.2 false gid
    (t, a.2 && t.holds core l.1 true l.2.2)) (s, true)
  (a.1, a.2 || ls.all (fun l => a.1.holds core l.1 true l.2.2))

/-- An epoch comes to its commit (R117): its lines obtained, its writes judged by the range locks, then its stores performed
as one step and its commands released. -/
def State.commitEpoch (s : State) (gid : Nat) : State :=
  match look s.groups gid with
  | none => s
  | some g =>
    match g.epoch with
    | none => s
    | some e =>
      let t := s.teamOf g
      if !g.release.isEmpty then s
      else
        let (s1, held) := s.obtainStores t.core e gid
        if held = false ∨ (look s1.groups gid).bind (fun h => h.epoch) ≠ some e then s1
        else if e.writes.any (s1.refusesWrite t.ctx) then
          s1.replayPast gid (((e.writes.zip e.writers).filter (fun w => s1.refusesWrite t.ctx w.1)).map (·.2))
        else
          let s2 := e.stores.foldl (fun u b => u.commitStore gid t.core b) s1
          (((s2.onGroup gid (fun g => g.committed e)).giveToken gid).freeDecisions g.team).releaseGroup gid

/-- EPOCH_COMMIT. -/
def execEpochCommit (g : Nat) (s : State) : Out := .next (s.commitEpoch g)

end Sys2Proof.Machine
end

