-- ==== Sys2Proof/Machine/Security.lean ====
section
/-! DEFINITION. The SEC (R449 to R460): its command order, keys, attestation, sealing, debug tokens, firmware, SPDM and IDE keys.
Keys are serial numbers: the cryptography itself, and what signatures, wraps and hashes come to, are constants without a body. -/

namespace Sys2Proof.Machine

/-- The SEC changed. -/
def State.onSec (s : State) (f : Sec → Sec) : State := { s with sec := f s.sec }

/-! ### The command order (R449) -/

/-- Bytes of a command's buffer, stored under the clear key. -/
def State.secRead (s : State) (buf off n : Nat) : List Byte := s.mem.getsUnder 0 (buf + off) n

/-- The buffer bytes a command reads taken from the caches. -/
def State.secTake (s : State) (buf n : Nat) : State := (s.takeRange buf n false).below buf n 0 false false

/-- A number in a command's buffer. -/
def State.secNumber (s : State) (buf off n : Nat) : Nat := ofBytes (s.secRead buf off n)

/-- Bytes the SEC writes to a buffer; what lies beyond DRAM does not exist. -/
def State.secWrite (s : State) (buf off : Nat) (l : List Byte) : State :=
  if buf + off + l.length ≤ dramSize then ((s.takeRange (buf + off) l.length true).below (buf + off) l.length 0 false true).perform none 0 (cellsAt (buf + off) l)
  else s

/-- The command at the head of the SEC's order completes: it leaves the order, DONE counts it, and its status with its number stands
in its buffer, unless a dissolution queued it. -/
def State.secDone (s : State) (c : SecCmd) (status : Nat) : State :=
  let s1 := s.onSec (fun k => { k with queue := k.queue.drop 1, done := if c.op = 0xFF then k.done else k.done + 1 })
  if c.internal then s1 else s1.secWrite c.buf 0 (toBytes 4 status ++ toBytes 4 c.number)

/-- A meaning runs where its command is the one whose turn it is: the status it completes with. -/
def secCommand (op arg buf : Nat) (body : SecCmd → State → State × Nat) (s : State) : Out :=
  match s.sec.queue with
  | c :: _ =>
    if c.op = op ∧ c.arg = arg ∧ c.buf = buf ∧ c.reserved = false then
      let r := body c s
      .next (r.1.secDone c r.2)
    else .next s
  | [] => .next s

/-- A command accepted (R449). A partition is being sealed from here on (R456). -/
def State.secAccept (s : State) (w : DWord) : State :=
  let op := bits w 56 8
  let arg := bits w 44 12
  s.onSec (fun k => { k with
    accepted := k.accepted + 1
    queue := k.queue ++ [{ op := op, arg := arg, buf := bits w 4 36 * 16, number := k.accepted.toNat
                           reserved := bits w 40 4 != 0 || bits w 0 4 != 0, seals := k.sealing }]
    sealing := if op = 4 ∧ arg < 64 then k.sealing ++ [arg] else k.sealing })

/-- A command that R450 does not list, or with a reserved bit. -/
def State.secBad (s : State) (c : SecCmd) : State :=
  (s.onSec (fun k => { k with sealing := if c.op = 4 then k.sealing.erase c.arg else k.sealing })).secDone c 2

/-! ### Keys (R451 to R453) -/

/-- The first seven statuses of R449 by name. -/
def secOk : Nat := 1
def secBadCommand : Nat := 2
def secBadSignature : Nat := 3
def secRollback : Nat := 4
def secKeyBusy : Nat := 5
def secSealed : Nat := 6
def secSealing : Nat := 7
def secBadToken : Nat := 8

/-- KEYINSTALL (R452). -/
def execKeyinstall (arg buf : Nat) (s : State) : Out :=
  secCommand 1 arg buf (fun _ s0 =>
    let s := s0.secTake buf 184
    let w := s.secNumber buf 8 8
    let fn := w % 2 ^ 11
    match s.partOf fn with
    | none => (s, if (look s.sec.keys arg).isSome ∧ arg ≠ 0 then secKeyBusy else secBadCommand)
    | some p =>
      if arg = 0 then (s, secBadCommand)
      else if (look s.sec.keys arg).isSome then (s, secKeyBusy)
      else
        match look s.sec.attKeys p with
        | none => (s, secBadCommand)
        | some k =>
          if Config.verifies (toBytes 8 k ++ s.secRead buf 16 168) = false then (s, secBadSignature)
          else if 2 ^ 11 ≤ w then (s, secBadCommand)
          else (s.onSec (fun c => { c with keys := put c.keys arg { fn := fn, serial := c.nextSerial }, nextSerial := c.nextSerial + 1 }), secOk)) s

/-- The lines the MSC holds under a key serial. -/
def State.mscUnder (s : State) (serial : Nat) : List Nat :=
  s.msc.flatMap (fun e => (span (16 * e.1) 16).filter (fun l =>
    e.2.valid &&& (0xFF#128 <<< (l % 16 * 8)) != 0 && (look e.2.keys (l % 16)).getD (s.mem.keyOf (8 * l)) == serial))

/-- Every L1 and MSC line held under a key serial taken from the cores as by a write from outside them, written back and dropped (R67,
R453). -/
def State.dropKeyLines (s : State) (serial : Nat) : State :=
  let s1 := (s.l1.filter (fun c => c.key == serial)).foldl (fun t (c : L1Line) => t.takeLine c.line true) s
  if s1.l1.any (fun c => c.key == serial) then s1 else (s1.mscUnder serial).foldl State.mscDrop s1

/-- Whether no L1 and no slice of the MSC holds a line under a key serial. -/
def State.keyGone (s : State) (serial : Nat) : Bool := !s.l1.any (fun c => c.key == serial) && (s.mscUnder serial).isEmpty

/-- KEYRETIRE (R453): the key ID becomes EMPTY once its lines are gone; until then the command goes on. -/
def execKeyretire (arg buf : Nat) (s : State) : Out :=
  match s.sec.queue with
  | [] => .next s
  | _ :: _ =>
    match (if arg = 0 then none else look s.sec.keys arg) with
    | none => secCommand 2 arg buf (fun _ s => (s, if arg = 0 then secBadCommand else secOk)) s
    | some k =>
      let t := s.dropKeyLines k.serial
      if t.keyGone k.serial then secCommand 2 arg buf (fun _ s => (s.onSec (fun c => { c with keys := del c.keys arg }), secOk)) t
      else .next t

/-- What the dissolution of a partition queues (R453): a KEYRETIRE for each key ID bound to its functions, then the end of its seal. -/
def State.dissolve (s : State) (p : Nat) : State :=
  let fs := s.functionsOf p
  let ids := (s.sec.keys.filter (fun e => fs.contains e.2.fn)).map (·.1)
  s.onSec (fun k => { k with
    accepted := k.accepted + BitVec.ofNat 32 ids.length
    queue := k.queue ++ ids.zipIdx.map (fun (e : Nat × Nat) => { op := 2, arg := e.1, buf := 0, internal := true, number := k.accepted.toNat + e.2 }) ++
      [{ op := 0xFF, arg := p, buf := 0, internal := true }] })

/-- The end of a dissolved partition's seal. -/
def State.endSeal (s : State) (c : SecCmd) : State :=
  (s.onSec (fun k => { k with sealedParts := removeNat k.sealedParts c.arg, migKeys := del k.migKeys c.arg })).secDone c secOk

/-! ### Attestation (R454) -/

/-- The hash of the running firmware image; that of the image the device was made with is a free value. -/
def Sec.imageHash (k : Sec) : BitVec 384 := k.image.getD (Config.sha384 [])

/-- What the configuration digest of a report is taken over. -/
def State.configBytes (s : State) (p : Nat) : List Byte :=
  let q := s.part p
  let fs := s.functionsOf p
  toBytes 8 q.clusters.toNat ++ toBytes 8 (q.hbmMin * 2 ^ 48 + q.fabMin * 2 ^ 40) ++
    fs.flatMap (fun f => s.mem.getsUnder 0 (s.fnRecord p f) 16) ++
    (s.sec.keys.filter (fun e => fs.contains e.2.fn)).flatMap (fun e => toBytes 2 e.1 ++ toBytes 2 e.2.fn)

/-- Bytes 0 to 167 of a report. -/
def State.reportHead (s : State) (p : Nat) (nonce : List Byte) : List Byte :=
  toBytes 4 0x54525441 ++ toBytes 2 0x0100 ++ toBytes 1 p ++ toBytes 1 (if s.sec.sealedParts.contains p then 1 else 0) ++ toBytes 8 s.clock ++
    nonce ++ toBytes 48 s.sec.imageHash.toNat ++ toBytes 8 (s.sec.svn % 256 + s.sec.fuse % 256 * 256) ++
    toBytes 48 (Config.sha384 (s.configBytes p)).toNat

/-- Bytes of a report. -/
def reportSize : Nat := 16872

/-- A whole report: its public key and signatures are free values. -/
def State.report_ (s : State) (p : Nat) (nonce : List Byte) : List Byte :=
  s.reportHead p nonce ++ (List.range (reportSize - 168)).map (fun i => Config.byte (s.free + i))

/-- ATTEST: a fresh attestation key, and a report over the given nonce. -/
def execAttest (arg buf : Nat) (s : State) : Out :=
  secCommand 3 arg buf (fun _ s0 =>
    if 64 ≤ arg then (s0, secBadCommand)
    else
      let s := s0.secTake buf 56
      let nonce := s.secRead buf 8 48
      let n := BitVec.ofNat 384 (ofBytes nonce)
      let s1 := s.onSec (fun k => { k with
        attKeys := put k.attKeys arg k.nextSerial, nextSerial := k.nextSerial + 1, nonces := put k.nonces arg n, lastNonce := some n })
      ({ s1.secWrite buf 64 (s1.report_ arg nonce) with free := s1.free + reportSize }, secOk)) s

/-! ### Sealing (R456) -/

/-- The breakpoints of a partition's groups disarmed. -/
def State.disarmAll (s : State) (p : Nat) : State :=
  { s with groups := s.groups.map (fun (e : Nat × Group) =>
      if (s.teamOf e.2).ctx.part = p then (e.1, { e.2 with breakpoints := e.2.breakpoints.map (fun _ => none) }) else e) }

/-- SEAL: the partition is sealed from now on, its tokens are revoked. -/
def execSeal (arg buf : Nat) (s : State) : Out :=
  secCommand 4 arg buf (fun _ s =>
    if 64 ≤ arg then (s, secBadCommand)
    else
      let s1 := s.onSec (fun k => { k with sealing := k.sealing.erase arg })
      if s.sec.sealedParts.contains arg then (s1, secSealed)
      else
        ((s1.disarmAll arg).onSec (fun k => { k with
          sealedParts := insertNat k.sealedParts arg, tokens := k.tokens.filter (fun e => e.2.part != arg) }), secOk)) s

/-- MIGKEY: the migration key of a partition, after the peer's report has been verified (R455, R456). -/
def execMigkey (arg buf : Nat) (s : State) : Out :=
  secCommand 8 arg buf (fun _ s0 =>
    if 64 ≤ arg then (s0, secBadCommand)
    else
      let s := s0.secTake buf (8 + reportSize)
      if Config.verifies (s.secRead buf 8 reportSize) then
        (s.onSec (fun k => { k with migKeys := put k.migKeys arg k.nextSerial, nextSerial := k.nextSerial + 1 }), secOk)
      else (s, secBadSignature)) s

/-! ### Debug tokens (R401, R457) -/

/-- Whether a token's fields that must be zero are, and its PART is one. -/
def tokenShaped (l : List Byte) : Bool :=
  let at_ (o n : Nat) : Nat := ofBytes ((l.drop o).take n)
  decide (at_ 64 1 < 64 ∨ at_ 64 1 = 255) && decide (at_ 65 1 < 8) && at_ 66 6 == 0 && at_ 80 944 == 0

/-- Whether a token names this device, the nonce of the right report, not used before, and a time to come. -/
def State.tokenMatches (s : State) (l : List Byte) : Bool :=
  let at_ (o n : Nat) : Nat := ofBytes ((l.drop o).take n)
  let nonce := BitVec.ofNat 384 (at_ 16 48)
  tokenShaped l && at_ 0 16 == Config.serial.toNat &&
    (if at_ 64 1 = 255 then s.sec.lastNonce == some nonce else look s.sec.nonces (at_ 64 1) == some nonce) &&
    !s.sec.usedNonces.contains nonce && decide (s.clock ≤ at_ 72 8)

/-- What UNLOCK answers to a token, given the partitions that were being sealed when it was accepted: the first case of R457 that holds
(R461 gives the outcomes by order of acceptance). -/
def State.judgeToken (s : State) (seals : List Nat) (l sigs : List Byte) : Nat :=
  let part := ofBytes ((l.drop 64).take 1)
  if Config.verifies (l ++ sigs) = false then secBadSignature
  else if s.tokenMatches l = false then secBadToken
  else if (if part = 255 then !seals.isEmpty else seals.contains part) then secSealing
  else if s.sec.sealedParts.contains part then secSealed
  else secOk

/-- UNLOCK: a token in force. -/
def execUnlock (arg buf : Nat) (s : State) : Out :=
  secCommand 5 arg buf (fun c s0 =>
    let s := s0.secTake buf (8 + 1024 + 384 + 16224)
    let l := s.secRead buf 8 1024
    let st := s.judgeToken c.seals l (s.secRead buf 1032 (384 + 16224))
    let at_ (o n : Nat) : Nat := ofBytes ((l.drop o).take n)
    if st = secOk then
      (s.onSec (fun k => { k with
        tokens := put k.tokens k.nextToken { part := at_ 64 1, perm := BitVec.ofNat 3 (at_ 65 1), expiry := at_ 72 8 }
        nextToken := k.nextToken + 1, usedNonces := BitVec.ofNat 384 (at_ 16 48) :: k.usedNonces }), st)
    else (s, st)) s

/-- TOKEN_EXPIRY: a token whose EXPIRY has passed is void. -/
def execTokenExpiry (token : Nat) (s : State) : Out :=
  match look s.sec.tokens token with
  | some t => if t.expiry < s.clock then .next (s.onSec (fun k => { k with tokens := del k.tokens token })) else .next s
  | none => .next s

/-- Whether a token lets breakpoints be armed in a partition. -/
def State.mayBreak (s : State) (p : Nat) : Bool :=
  !s.sec.sealedParts.contains p &&
    s.sec.tokens.any (fun e => (e.2.part == p || e.2.part == 255) && e.2.perm.getLsbD 0 && decide (s.clock ≤ e.2.expiry))

/-- BREAKPOINT_ARM (R401). -/
def execBreakpointArm (g : Nat) (n : Fin 8) (gva : Nat) (s : State) : Out :=
  match look s.groups g with
  | some k =>
    if s.mayBreak (s.teamOf k).ctx.part then .next (s.setGroup g { k with breakpoints := k.breakpoints.set n (some gva) }) else .next s
  | none => .next s

/-! ### Firmware (R458, R459) -/

end Sys2Proof.Machine

namespace Sys2Proof.Config

/-- The SVN, body length and body hash that a firmware header carries: the places of the fields are not stated (R458). -/
opaque fwHeader : List Byte → Nat × Nat × BitVec 384

end Sys2Proof.Config

namespace Sys2Proof.Machine

/-- FWLOAD: four signatures over the header and the body's hash, then the SVN. -/
def execFwload (arg buf : Nat) (s : State) : Out :=
  secCommand 6 arg buf (fun _ s0 =>
    let h := s0.secRead buf 8 128
    let (svn, n, hash) := Config.fwHeader h
    let s := s0.secTake buf (136 + n + 4 * 16608)
    let body := s.secRead buf 136 n
    if Config.verifies (h ++ s.secRead buf (136 + n) (2 * (384 + 16224))) = false ∨ Config.sha384 body ≠ hash then (s, secBadSignature)
    else if svn < s.sec.fuse ∨ 64 < svn then (s, secRollback)
    else (s.onSec (fun k => { k with pending := some (Config.sha384 (h ++ body), svn) }), secOk)) s

/-- FWCOMMIT: the fuse counter reaches the running SVN. -/
def execFwcommit (arg buf : Nat) (s : State) : Out :=
  secCommand 7 arg buf (fun _ s => (s.onSec (fun k => { k with fuse := max k.fuse k.svn }), secOk)) s

/-! ### The SEC's next command -/

/-- The responder answers and moves on. -/
def State.spdm (s : State) (to_ : Spdm) (a : SpdmAnswer) : State := s.onSec (fun k => { k with spdm := to_, answer := some a })

/-- A request the responder does not expect where it stands: an error, and nothing else. -/
def State.spdmError (s : State) : State := s.onSec (fun k => { k with answer := some .error })

/-- Whether a secure session stands. -/
def inSession (p : Spdm) : Bool := p == .session

/-- Where an IDE key set stands: stream, direction, set. -/
def IdeKeySet.key (k : IdeKeySet) : Nat := k.stream * 4 + k.dir.val * 2 + k.set.val

/-- An IDE_KM request executed (R460): QUERY tells the streams, a key is programmed for a set of streams 0 to 3, a programmed set comes
into use for its stream and direction, a set goes out of use. -/
def State.ideKm (s : State) (r : IdeKm) : State :=
  if !inSession s.sec.spdm then s.spdmError
  else
    match r with
    | .query => s.spdm .session (.streams 4)
    | .keyProg ks key =>
      if ks.stream < 4 then (s.spdm .session (.keyProg true)).onSec (fun k => { k with ideKeys := put k.ideKeys (Machine.IdeKeySet.key ks) key })
      else s.spdm .session (.keyProg false)
    | .setGo ks =>
      if (look s.sec.ideKeys (Machine.IdeKeySet.key ks)).isSome then
        (s.spdm .session (.setGo true)).onSec (fun k => { k with ideActive := put k.ideActive (ks.stream * 2 + ks.dir.val) ks.set.val })
      else s.spdm .session (.setGo false)
    | .setStop ks =>
      if look s.sec.ideActive (ks.stream * 2 + ks.dir.val) = some ks.set.val then
        (s.spdm .session (.setStop true)).onSec (fun k => { k with ideActive := del k.ideActive (ks.stream * 2 + ks.dir.val) })
      else s.spdm .session (.setStop false)

/-- An IDE_KM request takes its place in the SEC's order (R460): executed at once where no command stands before it. -/
def State.ideAsk (s : State) (r : IdeKm) : State :=
  if s.sec.queue.isEmpty ∨ !inSession s.sec.spdm then s.ideKm r
  else s.onSec (fun k => { k with queue := k.queue ++ [{ op := 0xFE, arg := 0, buf := 0, internal := true, ide := some r }] })

/-- What the SEC does next. -/
inductive SecTurn where
  | nothing
  | done (s : State)
  | run (f : State → Out)

/-- The next command in the SEC's order: its meaning, or what it comes to where it has none. -/
def State.secTurn (s : State) : SecTurn :=
  match s.sec.queue with
  | [] => .nothing
  | c :: r =>
    match c.ide with
    | some q => .done ((s.onSec (fun k => { k with queue := r })).ideKm q)
    | none =>
    if c.op = 0xFF ∧ c.internal then .done (s.endSeal c)
    else if c.reserved then .done (s.secBad c)
    else
      match c.op with
      | 1 => .run (execKeyinstall c.arg c.buf)
      | 2 => .run (execKeyretire c.arg c.buf)
      | 3 => .run (execAttest c.arg c.buf)
      | 4 => .run (execSeal c.arg c.buf)
      | 5 => .run (execUnlock c.arg c.buf)
      | 6 => .run (execFwload c.arg c.buf)
      | 7 => .run (execFwcommit c.arg c.buf)
      | 8 => .run (execMigkey c.arg c.buf)
      | _ => .done (s.secBad c)

/-! ### SPDM and IDE (R460) -/

/-- A request that is answered where the responder stands at one of some places. -/
def spdmAt (ok : Spdm → Bool) (act : State → State) (s : State) : Out := .next (if ok s.sec.spdm then act s else s.spdmError)

/-- Whether algorithms have been negotiated. -/
def Spdm.ready (p : Spdm) : Bool := match p with | .negotiated | .exchanging | .session => true | _ => false

/-- GET_VERSION: SPDM 1.2; a connection begins anew. -/
def execGetVersion (s : State) : Out := .next (s.spdm .version (.version 0x12))

/-- GET_CAPABILITIES. -/
def execGetCapabilities (s : State) : Out := spdmAt (fun p => p == .version) (fun s => s.spdm .capabilities .capabilities) s

/-- NEGOTIATE_ALGORITHMS: of what is offered, what the SEC supports, which is all three. -/
def execNegotiateAlgorithms (algs : SpdmAlgs) (s : State) : Out :=
  spdmAt (fun p => p == .capabilities) (fun s =>
    (s.spdm .negotiated (.algorithms algs)).onSec (fun k => { k with algs := algs })) s

/-- GET_DIGESTS. -/
def execGetDigests (s : State) : Out := spdmAt Spdm.ready (fun s => s.spdm s.sec.spdm .digests) s

/-- GET_CERTIFICATE. -/
def execGetCertificate (s : State) : Out := spdmAt Spdm.ready (fun s => s.spdm s.sec.spdm .certificate) s

/-- CHALLENGE: signed with RSASSA-3072, where that was negotiated. -/
def execChallenge (nonce : BitVec 256) (s : State) : Out :=
  spdmAt Spdm.ready (fun s => if s.sec.algs.rsa3072Sha384 then s.spdm s.sec.spdm (.challenge nonce) else s.spdmError) s

/-- GET_MEASUREMENTS: the hash of the running image and its SVN. -/
def execGetMeasurements (s : State) : Out :=
  spdmAt Spdm.ready (fun s => s.spdm s.sec.spdm (.measurements s.sec.imageHash s.sec.svn)) s

/-- KEY_EXCHANGE: ECDHE over secp384r1 for an AES-256-GCM session, with all three algorithms negotiated. -/
def execKeyExchange (peerKey : BitVec 768) (s : State) : Out :=
  spdmAt Spdm.ready (fun s =>
    if s.sec.algs.rsa3072Sha384 && s.sec.algs.secp384r1 && s.sec.algs.aes256Gcm && Config.verifies (toBytes 96 peerKey.toNat) then
      (s.spdm .exchanging .keyExchange).onSec (fun k => { k with sessionKey := k.nextSerial, nextSerial := k.nextSerial + 1 })
    else s.spdmError) s

/-- FINISH: the session stands if the requester's MAC verifies. -/
def execFinish (mac : BitVec 384) (s : State) : Out :=
  spdmAt (fun p => p == .exchanging) (fun s =>
    if Config.verifies (toBytes 8 s.sec.sessionKey ++ toBytes 48 mac.toNat) then s.spdm .session .finish else s.spdmError) s

/-- QUERY: the selective IDE streams. -/
def execQuery (s : State) : Out := .next (s.ideAsk .query)

/-- KEY_PROG: a key for a set; a stream beyond 3 is rejected. -/
def execKeyProg (ks : IdeKeySet) (key : BitVec 256) (s : State) : Out := .next (s.ideAsk (.keyProg ks key))

/-- K_SET_GO: a programmed set comes into use for its stream and direction. -/
def execKSetGo (ks : IdeKeySet) (s : State) : Out := .next (s.ideAsk (.setGo ks))

/-- K_SET_STOP: a set is no longer in use. -/
def execKSetStop (ks : IdeKeySet) (s : State) : Out := .next (s.ideAsk (.setStop ks))

end Sys2Proof.Machine
end

