-- ==== Sys2Proof/Machine/Power.lean ====
section
/-! DEFINITION. Power (R462, R463), thermal events (R468), the patrol scrubber (R466), error counters (R465), warm and cold reset (R5,
R97, R296, R451, R457, R458, R467). -/

namespace Sys2Proof.Machine

/-- The host driver's registers changed. -/
def State.onRegs (s : State) (f : Regs → Regs) : State := { s with regs := f s.regs }

/-- CAP as a write of it leaves it. -/
def clampCap (n : Nat) : Nat := min (max n 600) 2000

/-- PWRCAP_WRITE: CAP clamped; a change is recorded. -/
def execPwrcapWrite (value : DWord) (s : State) : Out :=
  let cap := clampCap (bits value 0 12)
  let s1 := s.onRegs (fun r => { r with cap := cap })
  .next (if cap = s.regs.cap then s1 else s1.waybill 0x0020 (BitVec.ofNat 64 cap) (BitVec.ofNat 64 s.regs.cap))

/-- DRAW_WINDOW: a whole 1 ms window has ended. -/
def execDrawWindow (watts : BitVec 16) (s : State) : Out := .next (s.onRegs (fun r => { r with draw := watts.toNat }))

/-- The core clocks after a 10 ms window: down by 100 MHz while the package draws more than CAP, to no less than 1.2 GHz, and back up
otherwise, unless a die is too hot. -/
def Regs.nextFreq (r : Regs) : Nat :=
  if r.cap < r.draw then max 1200 (r.freq - 100) else if r.hotDies.isEmpty then Nat.min 2400 (r.freq + 100) else r.freq

/-- POWER_CAP_WINDOW. -/
def execPowerCapWindow (s : State) : Out := .next (s.onRegs (fun r => { r with freq := r.nextFreq }))

/-- DROOP: a core stretches its clock. -/
def execDroop (core : Nat) (s : State) : Out := .next (s.onCore core (fun c => { c with droop := true }))

/-- DROOP_END. -/
def execDroopEnd (core : Nat) (s : State) : Out := .next (s.onCore core (fun c => { c with droop := false }))

/-- THERMAL: a die above 105 °C: recorded, and the clocks held at 1.2 GHz. -/
def execThermal (die : Fin 4) (temp : Nat) (s : State) : Out :=
  if 105 < temp then
    .next ((s.onRegs (fun r => { r with hotDies := insertNat r.hotDies die.val, freq := 1200 })).waybill 0x0021 (BitVec.ofNat 64 die.val)
      (BitVec.ofNat 64 temp))
  else .next s

/-- DIE_BELOW_95C: the hold ends for that die. -/
def execDieBelow95c (die : Fin 4) (s : State) : Out := .next (s.onRegs (fun r => { r with hotDies := removeNat r.hotDies die.val }))

/-- PATROL_SCRUB: a granule read by the scrubber: an uncorrectable one is recorded, a correctable error (whether there was one is a
free value) is counted and mended; no value changes. -/
def execPatrolScrub (dpa : Nat) (s : State) : Out :=
  if dramSize ≤ dpa then .next s
  else if s.mem.isBad dpa 1 then .next ((s.countError 0 true).waybill 0x0001 (BitVec.ofNat 64 (dpa / 16 * 16)) 0 none 0 0 true)
  else .next (if Config.choice s.free then (s.corrected (channelOf dpa)).bump else s.bump)

/-- RASCNT_WRITE: writing 1 to any bit of a field clears it. -/
def execRascntWrite (n : Fin 8) (value : DWord) (s : State) : Out :=
  let v := lookD s.ras n 0
  let ue := if bits value 32 32 = 0 then bits v 32 32 else 0
  let ce := if bits value 0 32 = 0 then bits v 0 32 else 0
  .next { s with ras := put s.ras n (BitVec.ofNat 64 (ue * 2 ^ 32 + ce)) }

/-! ### Reset -/

/-- WARM_RESET: nothing runs, every register field is at its Reset value but for those marked P; CLOCK runs on, memory and keys
stand, an accepted firmware image runs, and the event is recorded. Tokens stay where the image is unchanged. -/
def execWarmReset (s : State) : Out :=
  let k := s.sec
  let sec : Sec :=
    { keys := k.keys, nextSerial := k.nextSerial, attKeys := k.attKeys, nonces := k.nonces, lastNonce := k.lastNonce, usedNonces := k.usedNonces
      tokens := if (match k.pending with | some (h, _) => some h == k.image | none => true) then k.tokens else []
      nextToken := k.nextToken, fuse := k.fuse
      svn := match k.pending with | some (_, v) => v | none => k.svn
      image := match k.pending with | some (h, _) => some h | none => k.image }
  .next (({ mem := s.mem, clock := s.clock, agenda := s.agenda, rota := s.rota, free := s.free, nextId := s.nextId, retired := s.retired
            dirtyMap := s.dirtyMap, portsDown := s.portsDown, sent := s.sent, sec := sec, ras := s.ras, waybills := s.waybills } : State).waybill 0x0030 0 0)

/-- COLD_RESET: the machine as it starts, but for what is not volatile: the record of retired channels, the fuse counter, the firmware;
host memory is not the device's. -/
def execColdReset (s : State) : Out :=
  let host (k : Nat) : Bool := decide (hostBase ≤ k ∧ k < scratchBase)
  .next { State.reset with
    agenda := s.agenda, rota := s.rota, free := s.free, nextId := s.nextId, retired := s.retired, sent := s.sent
    mem := { bytes := s.mem.bytes.filter (fun c => host c.1), keys := s.mem.keys.filter (fun e => host (16 * e.1)) }
    sec := { nextSerial := s.sec.nextSerial, fuse := s.sec.fuse, svn := s.sec.svn, image := s.sec.image, pending := s.sec.pending } }

end Sys2Proof.Machine
end

