-- ==== Sys2Proof/Machine/Registers.lean ====
section
/-! DEFINITION. The registers that the host driver or the partition runtime writes: partition formation (R421, R422), those with no
row of their own (R5), and what a read of each returns. -/

namespace Sys2Proof.Machine

/-! ### Partitions (R421, R422) -/

/-- Whether any team of a partition is resident, swapped, or evicted. -/
def State.hasTeams (s : State) (p : Nat) : Bool := s.teams.any (fun e => e.2.ctx.part == p && e.2.state != .retired && e.2.state != .waiting)

/-- PARTCLU_WRITE: a partition is formed, changed or dissolved, unless R421 ignores the write. -/
def execPartcluWrite (p : Nat) (value : DWord) (s : State) : Out :=
  let q := s.part p
  if s.hasTeams p ∨ q.migPhase = 1 ∨ q.migPhase = 2 ∨ q.migPhase = 3 ∨ s.parts.any (fun e => e.1 != p && e.2.clusters &&& value != 0) then .next s
  else
    let s1 := s.onPart p (fun q => { q with clusters := value })
    .next (if value = 0 ∧ q.clusters ≠ 0 then s1.dissolve p else s1)

/-- PARTCFG_WRITE: the minimum shares, unless a sum would pass its budget. -/
def execPartcfgWrite (p : Nat) (value : DWord) (s : State) : Out :=
  let others := s.parts.filter (fun e => e.1 != p)
  let h := bits value 48 10
  let f := bits value 40 8
  if 1024 < others.foldl (fun n e => n + e.2.hbmMin) h ∨ 256 < others.foldl (fun n e => n + e.2.fabMin) f then .next s
  else .next (s.onPart p (fun q => { q with hbmMin := h, fabMin := f }))

/-! ### Registers with no row of their own -/

/-- A write-one-to-clear field: cleared by any bit. -/
def clearedBy (w : DWord) (lo n v : Nat) : Nat := if bits w lo n = 0 then v else 0

/-- MIGIN as a write leaves it: EN starts and ends the receiving. -/
def Part.setMigin (q : Part) (w : DWord) : Part :=
  let en := w.getLsbD 63
  { q with
    inEn := en, inSrc := bits w 49 11, inImg := bits w 12 28
    inPhase := if en ∧ q.inEn = false then 1 else if en = false then 0 else q.inPhase }

/-- ROSTSEL's function and word as a key. -/
def rosterKey (sel : DWord) : Nat := bits sel 32 11 * 32 + bits sel 0 5

/-- A write to CHRETIRE: CHAN; with GO, a retirement. -/
def State.writeChretire (s : State) (w : DWord) : State :=
  if w.getLsbD 63 then s.retireGo (bits w 0 9) else { s with retire := { s.retire with field := bits w 0 9 } }

/-- A write to MIGCTL: its fields, then GO, STOP and ABORT. -/
def State.writeMigctl (s : State) (p : Nat) (w : DWord) : State :=
  let s1 := s.onPart p (fun q => q.setMigctl w)
  let s2 := if w.getLsbD 63 then s1.migrateGo p else s1
  let s3 := if w.getLsbD 62 then s2.migrateStop p else s2
  if w.getLsbD 61 then s3.migrateAbort p else s3

/-- A register written; a reserved field is not (R6). -/
def State.writeReg (s : State) (reg : DevReg) (w : DWord) : State :=
  match reg with
  | .hbmpwr => s.onRegs (fun r => { r with hbmpwr := w &&& 0x0000FFFFFFFF0000#64 })
  | .hptctl =>
    { s with hotRegs := { s.hotRegs with
        hothi := bits w 48 16, hotlo := bits w 32 16, epoch := bits w 8 24, en := w.getLsbD 0 } }
  | .hptbase => { s with hotRegs := { s.hotRegs with base := w &&& 0x000000FFFFFFF000#64 } }
  | .hpthead => { s with hotRegs := { s.hotRegs with lost := clearedBy w 32 32 s.hotRegs.lost } }
  | .hpttail => { s with hotRegs := { s.hotRegs with tail := bits w 0 32 } }
  | .chretire => s.writeChretire w
  | .vlogbase p => s.onPart p (fun q => { q with vlogBase := w &&& 0x000000FFFFFFFFFF#64 })
  | .vloghead p => s.onPart p (fun q => { q with vlogLost := clearedBy w 32 32 q.vlogLost })
  | .vlogtail p => s.onPart p (fun q => { q with vlogTail := w.truncate 32 })
  | .fqbase p => s.onPart p (fun q => { q with fqBase := w &&& 0x000000FFFFFFEFFF#64 })
  | .fabwt p => s.onPart p (fun q => { q with fabwt := w &&& 0x00000000FFFFFFFF#64 })
  | .migctl p => s.writeMigctl p w
  | .miglist p => s.onPart p (fun q => { q with migList := w &&& 0xFFFFFFFFFFFFFFE0#64 })
  | .migin p => s.onPart p (fun q => q.setMigin w)
  | .rostsel => s.onRegs (fun r => { r with rostsel := w &&& 0x000007FF0000001F#64 })
  | .rostdata => { s with roster := put s.roster (rosterKey s.regs.rostsel) w }
  | .wbsel => s.onRegs (fun r => { r with wbsel := w &&& 0x0000000000FFFFFF#64 })
  | .seccmd => s.secAccept w
  | .partBlock p n => s.onPart p (fun q => { q with block := q.block.set n w })

/-- REGISTER_WRITE. -/
def execRegisterWrite (reg : DevReg) (value : DWord) (s : State) : Out := .next (s.writeReg reg value)

/-! ### What a read returns (R5) -/

/-- The 32 bytes of a waybill entry as four words (R468); of a sealed partition ADDR and DETAIL read as zero (R469). -/
def State.waybillWord (s : State) (e : Waybill) (n : Fin 4) : DWord :=
  let hidden : Bool := match e.part with | some p => s.sec.sealedParts.contains p | none => false
  match n with
  | 0 => BitVec.ofNat 64 e.time
  | 1 => if hidden then 0 else e.addr
  | 2 => if hidden then 0 else e.detail
  | 3 =>
    BitVec.ofNat 64 ((if e.scrub then 2 ^ 20 else 0) + e.core % 2 ^ 9 * 2 ^ 21 + e.fn % 2 ^ 11 * 2 ^ 30 +
      (match e.part with | some p => p % 64 * 2 ^ 41 + 2 ^ 47 | none => 0) + e.code % 2 ^ 16 * 2 ^ 48)

/-- WBDATA0 to WBDATA3: the entry that WBSEL selects; zero where its ring has none (R469). -/
def State.readWbdata (s : State) (n : Fin 4) : DWord :=
  let ring := bits s.regs.wbsel 16 8
  if 64 < ring then 0
  else
    match (lookD s.waybills ring {}).entries[bits s.regs.wbsel 0 16]? with
    | some e => s.waybillWord e n
    | none => 0

/-- WBSEL, with HEAD. -/
def State.readWbsel (s : State) : DWord :=
  s.regs.wbsel ||| BitVec.ofNat 64 (min (lookD s.waybills (bits s.regs.wbsel 16 8) {}).head (2 ^ 32 - 1) * 2 ^ 32)

/-- MIGSTAT (R426). -/
def Part.readMigstat (q : Part) : DWord :=
  BitVec.ofNat 64 (q.migPhase + q.migStatus * 2 ^ 8 + min q.migRound 65535 * 2 ^ 16 + q.migDirty % 2 ^ 32 * 2 ^ 32)

/-- MIGIN (R429). -/
def Part.readMigin (q : Part) : DWord :=
  BitVec.ofNat 64 (q.inImg * 2 ^ 12 + q.inSrc * 2 ^ 49 + q.inPhase * 2 ^ 60 + (if q.inEn then 2 ^ 63 else 0))

/-- SECSTAT (R449). -/
def State.readSecstat (s : State) : DWord := BitVec.ofNat 64 (s.sec.done.toNat + s.sec.accepted.toNat * 2 ^ 32)

/-- PWRCAP (R462). -/
def State.readPwrcap (s : State) : DWord := BitVec.ofNat 64 (s.regs.cap + s.regs.draw * 2 ^ 32)

/-- ROSTDATA (R413). -/
def State.readRostdata (s : State) : DWord := lookD s.roster (rosterKey s.regs.rostsel) 0

/-- MIGCTL (R426): AUTO, DVDN, PORTS, SELF and GOVRATE; GO, STOP and ABORT are WO and read zero (R5). -/
def Part.readMigctl (q : Part) : DWord :=
  BitVec.ofNat 64 (q.migRate % 2 ^ 16 + q.migSelf % 2 ^ 11 * 2 ^ 20 + q.migPorts.toNat * 2 ^ 31 + q.migDvdn % 2 ^ 11 * 2 ^ 49 +
    (if q.migAuto then 2 ^ 60 else 0))

/-- CHRETIRE (R96); GO is WO and reads zero (R5). -/
def State.readChretire (s : State) : DWord :=
  BitVec.ofNat 64 (s.retire.field + s.retire.status * 2 ^ 32 + (s.retired.foldl (fun n e => n + 2 ^ e.1) 0) * 2 ^ 48 + s.retire.phase * 2 ^ 60 +
    (if s.retire.busy then 2 ^ 62 else 0))

/-- CHRETMAP (R97). -/
def State.readChretmap (s : State) : DWord := BitVec.ofNat 64 (s.retired.foldl (fun n e => n + e.2 % 32 * 2 ^ (5 * e.1)) 0)

/-- VLOGHEAD (R50). -/
def Part.readVloghead (q : Part) : DWord := BitVec.ofNat 64 (q.vlogHead.toNat + q.vlogLost * 2 ^ 32)

/-- HPTHEAD (R100). -/
def HotRegs.readHpthead (h : HotRegs) : DWord := BitVec.ofNat 64 (h.head % 2 ^ 32 + h.lost * 2 ^ 32)

/-- HPTCTL (R100). -/
def HotRegs.readHptctl (h : HotRegs) : DWord :=
  BitVec.ofNat 64 ((if h.en then 1 else 0) + h.epoch % 2 ^ 24 * 2 ^ 8 + h.hotlo % 2 ^ 16 * 2 ^ 32 + h.hothi % 2 ^ 16 * 2 ^ 48)

/-- What a read of a register returns (R5, R6): SECCMD is WO throughout and reads zero. -/
def State.readReg (s : State) (reg : DevReg) : DWord :=
  match reg with
  | .hbmpwr => s.regs.hbmpwr
  | .hptctl => s.hotRegs.readHptctl
  | .hptbase => s.hotRegs.base
  | .hpthead => s.hotRegs.readHpthead
  | .hpttail => BitVec.ofNat 64 (s.hotRegs.tail % 2 ^ 32)
  | .chretire => s.readChretire
  | .vlogbase p => (s.part p).vlogBase
  | .vloghead p => (s.part p).readVloghead
  | .vlogtail p => (s.part p).vlogTail.zeroExtend 64
  | .fqbase p => (s.part p).fqBase
  | .fabwt p => (s.part p).fabwt
  | .migctl p => (s.part p).readMigctl
  | .miglist p => (s.part p).migList
  | .migin p => (s.part p).readMigin
  | .rostsel => s.regs.rostsel
  | .rostdata => s.readRostdata
  | .wbsel => s.readWbsel
  | .seccmd => 0
  | .partBlock p n => ((s.part p).block[n.val]?).getD 0

/-- FQHEAD and FQTAIL (R395). -/
def Part.readFq (q : Part) (tail : Bool) : DWord := (if tail then q.fqTail else q.fqHead).zeroExtend 64

/-- FQRESP: its fields are WO, so a read returns zero (R5, R395). -/
def State.readFqresp (_ : State) (_part : Nat) : DWord := 0

/-- The number of a directory state (R63). -/
def DirState.code (d : DirState) : Nat :=
  match d with
  | .i => 0
  | .s => 1
  | .x => 2
  | .inv => 3
  | .recall => 4

/-- SHARERS (R63): pointers of 9 bits each, or a bit for each cluster. -/
def DirEntry.sharersField (e : DirEntry) : Nat :=
  if e.cv then e.sharers.foldl (fun n c => n + 2 ^ c) 0 else (e.sharers.take 4).foldr (fun q n => q + 2 ^ 9 * n) 0

/-- The 80 bits of a directory entry (R63). -/
def DirEntry.bits80 (e : DirEntry) : BitVec 80 :=
  BitVec.ofNat 80 (e.state.code * 2 ^ 77 + (if e.cv then 2 ^ 76 else min e.sharers.length 4 * 2 ^ 73) + e.sharersField)

/-- Whether a line is held under a key of a sealed partition: such a partition's memory carries no other (R451). -/
def State.sealedLine (s : State) (line : Nat) : Bool :=
  s.sec.keys.any (fun k => k.2.serial == s.mem.keyOf (8 * line) &&
    (match s.partOf k.2.fn with | some p => s.sec.sealedParts.contains p | none => false))

/-- A directory entry as the host driver reads it through the PF diagnostic window (R63): zero for a sealed partition's memory (R456). -/
def State.readDirectory (s : State) (line : Nat) : BitVec 80 := if s.sealedLine line then 0 else (s.entry line).bits80

/-- PARTCFG (R421). -/
def Part.readPartcfg (q : Part) : DWord := BitVec.ofNat 64 (q.hbmMin * 2 ^ 48 + q.fabMin * 2 ^ 40)

end Sys2Proof.Machine
end

