-- ==== Sys2Proof/Machine/Spill.lean ====
section
/-! DEFINITION. SPILL and FILL (R290 to R292): steps of one stack position, progress in SPILLPROG. -/

namespace Sys2Proof.Machine

/-- The lanes of ACTIVE that break SPILL's or FILL's condition (R291). -/
def Issue.spillBreaks (x : Issue) (fill : Bool) (n : Nat) : List Nat :=
  x.act.filter (fun i =>
    let l := x.lane i
    if fill then decide (l.resbase < n ∨ l.resbase - n + l.scap < l.wbase + 24) else decide (l.wbase + 16 < l.resbase + n))

/-- The stack position step j moves in a lane. -/
def Lane.moved (l : Lane) (fill : Bool) (n j : Nat) : Nat := if fill then l.resbase - n + j else l.resbase + j

/-- SPILLPROG as a restarting instruction reads it: the steps already done. -/
def Group.spillDone (g : Group) : Nat := if g.spillprog.getLsbD 8 then g.spillprog.toNat % 256 else 0

/-- The first step a lane still performs: PARTDONE exempts it from the one that was partly performed (R261). -/
def Issue.firstStep (x : Issue) (i : Nat) : Nat := if x.g.partdone.getLsbD i then x.g.spillDone + 1 else x.g.spillDone

/-- The checked accesses of step j (R290): position p of lane i at slot p × W + i. -/
def Issue.spillStep (x : Issue) (fill : Bool) (n c j : Nat) : List (Nat × Checked) :=
  let w := if x.g.isGuide then 1 else x.g.width
  (x.act.filter (fun i => decide (x.firstStep i ≤ j))).map (fun i =>
    let p := (x.lane i).moved fill n j
    let off := 4 * (p * w + i)
    (i, x.viaCap (x.g.cap c) i 0 j off 4 (if fill then permR else permW) (if fill then .read else .write) 4
      (if fill then .load else .store (toBytes 4 ((x.lane i).position p).toNat))))

/-- Whether a step can perform at once: every check passes, no page drains, no granule that it needs is uncorrectable. -/
def Issue.spillReady (x : Issue) (rs : List (Nat × Checked)) : Bool :=
  (failsOf rs).isEmpty && (passed rs).all (fun r => !r.2.1.drains && !x.s.meetsBad x.team.core [r.2.1] r.2.1)

/-- The active lanes whose position of step j SPILL would read and cannot (R400). -/
def Issue.spillStruck (x : Issue) (fill : Bool) (n j : Nat) : List Nat :=
  if fill then []
  else x.act.filter (fun i => decide (x.firstStep i ≤ j) &&
    x.g.arch.struck.contains { lane := i, file := .v, key := 8 + (x.lane i).moved fill n j })

/-- A lane with the positions that FILL's steps loaded. -/
def Lane.filled (l : Lane) (n from_ : Nat) (bs : List Byte) : Lane :=
  ((wordsOf bs (bs.length / 4)).zipIdx.foldl (fun (a : Lane) (e : Word × Nat) => a.setPosition (l.resbase - n + from_ + e.2) e.1) l)

/-- A lane after SPILL or FILL: RESBASE moved. A position that SPILL makes resident holds nothing the manual names, so it
holds a free value. -/
def Lane.shifted (l : Lane) (fill : Bool) (n seed : Nat) : Lane :=
  if fill then { l with resbase := l.resbase - n }
  else
    (List.range n).foldl (fun (a : Lane) j => a.setPosition (l.resbase + l.scap + j) (Config.word (seed + j)))
      { l with resbase := l.resbase + n }

/-- The seed of a lane's free values. -/
def State.seed (s : State) (i : Nat) : Nat := 2 ^ 65 + s.free * 2 ^ 16 + i * 2 ^ 8

/-- The unfinished writes of FILL (R226): the positions it loads. -/
def Issue.fillHazards (x : Issue) (n : Nat) : List Hazard :=
  x.act.flatMap (fun i =>
    let l := x.lane i
    (List.range n).map (fun j =>
      let p := l.moved true n j
      { lane := i, file := .v, reg := 8 + (p - l.wbase), key := 8 + p, old := l.position p, due := x.dist, varLat := true
        flag := x.fm.flag }))

/-- The whole instruction done: what it loaded in place, RESBASE moved; SPILLPROG 0, which speculative execution leaves alone (R292). -/
def Issue.spillEnd (x : Issue) (s : State) (fill : Bool) (n : Nat) (done : List (Nat × Nat × List Byte)) (late : Bool)
    (ep : Epoch → Epoch) : State :=
  x.commitIn s
    { pend := late
      lane := fun i l =>
        let l1 := if fill then l.filled n (x.firstStep i) (bytesOf done i) else l
        l1.shifted fill n (s.seed i)
      group := fun g =>
        { g with
          spillprog := if g.epoch.isSome then g.spillprog else 0, partdone := if g.epoch.isSome then g.partdone else 0
          epoch := g.epoch.map ep
          arch := if fill then { g.arch with
              hazards := g.arch.hazards ++ x.fillHazards n
              struck := g.arch.struck.filter (fun b => !(x.fillHazards n).any (fun h => h.lane == b.lane && h.file == b.file && h.key == b.key)) }
            else g.arch } }

/-- In an epoch every step must be ready and find room, or the instruction waits as the drain kind does (R292). -/
def Issue.spillEpoch (x : Issue) (fill : Bool) (n c : Nat) : State :=
  let j0 := x.g.spillDone
  let reqs := (span j0 (n - j0)).flatMap (fun j => x.spillStep fill n c j)
  if x.spillReady reqs = false ∨ (span j0 (n - j0)).any (fun j => !(x.spillStruck fill n j).isEmpty) then x.stall
  else
    let rs := (passed reqs).map (·.2)
    let qs := rs.map (·.1)
    let got := x.s.obtained x.team.core qs true
    let s1 := got.1
    if !(got.2 || s1.holdsFor x.team.core qs true) || x.undone s1 then x.awaiting s1 qs
    else
      let y : Issue := { x with s := s1 }
      if qs.any y.mustReplay then s1.replay x.gid x.mask
      else
        let p := qs.foldl y.performOne {}
        let lines := y.readLines ((qs.filter (fun r => r.what.reads)).map (fun r => (r.loc, r.size)))
        let bs := (keysOf p.cells).flatMap (fun k => bufferEntries k (underOne p.cells k))
        if y.hasRoom lines bs.length then
          y.spillEnd (s1.installAll (rs.filterMap (·.2))) fill n p.done (!bs.isEmpty)
            (fun e => e.after ((x.mask.head?).getD 0) lines bs qs (if bs.isEmpty then 15 else x.fm.flag))
        else y.stall

/-- What the steps before j have done, when the next fails or drains: loaded positions written, SPILLPROG set (R291). -/
def Issue.spillPart (x : Issue) (s : State) (fill : Bool) (n j : Nat) (done : List (Nat × Nat × List Byte)) : State :=
  s.onGroup x.gid (fun g =>
    { (if fill then g.onLanes x.act (fun i l => l.filled n (x.firstStep i) (bytesOf done i)) else g) with
      spillprog := BitVec.ofNat 9 (256 + j), partdone := 0 })

/-- A step on pages that drain (R292): the convoy parks until its accesses have performed, then the instruction goes on
from SPILLPROG. -/
def Issue.spillDrain (x : Issue) (s : State) (fill : Bool) (n j : Nat) (rs : List (Req × Option Found)) : State :=
  if x.g.drained.isSome ∨ !x.g.release.isEmpty then s
  else
    let id := s.nextId
    let d := x.drainOp s { acc := if fill then .read else .write, reqs := [], place := if fill then .plain false else .none }
      (rs.map (·.1)) (some (j + 1))
    let d1 : DrainOp := { d with dest := rs.map (fun (r : Req × Option Found) => (r.1.lane, if fill then [8 + (x.lane r.1.lane).moved fill n j] else [])) }
    let s1 := { s.installAll (rs.filterMap (·.2)) with nextId := id + 1 }
    let s2 := s1.onGroup x.gid (fun g => { g.parkLanes x.mask (.memorySide id) with drained := some id })
    let after := ((look s2.groups x.gid).map (·.arch)).getD {}
    ({ s2 with drains := put s2.drains id { d1 with after := after } } : State).drive id driveFuel

/-- Outside outrider mode: the steps that can perform do so; the first that cannot ends or holds the instruction. -/
def Issue.spillSteps (x : Issue) (fill : Bool) (n c : Nat) : State :=
  let j0 := x.g.spillDone
  let ready := (span j0 (n - j0)).takeWhile (fun j => (x.spillStruck fill n j).isEmpty && x.spillReady (x.spillStep fill n c j))
  let reqs := ready.flatMap (fun j => x.spillStep fill n c j)
  let rs := (passed reqs).map (·.2)
  let qs := rs.map (·.1)
  let got := x.s.obtained x.team.core qs false
  let s1 := got.1
  if !(got.2 || s1.holdsFor x.team.core qs false) then x.awaiting s1 qs
  else
    let y : Issue := { x with s := s1 }
    let p := qs.foldl y.performOne {}
    let s2 := (s1.installAll (rs.filterMap (·.2))).performCells x.gid x.team.core p.cells
    let j := j0 + ready.length
    if n ≤ j then y.spillEnd s2 fill n p.done false id
    else
      let s3 := if ready.isEmpty then s2 else x.spillPart s2 fill n j p.done
      let z : Issue := { x with s := s3, g := lookD s3.groups x.gid x.g }
      let step := x.spillStep fill n c j
      match failsOf step, x.spillStruck fill n j with
      | [], i :: r =>
        let l := x.lane i
        let a := checkRegAddr .v (8 + (l.moved fill n j - l.wbase)) i
        let s4 := s3.onGroup x.gid (fun g => { g with spillprog := BitVec.ofNat 9 (256 + j) })
        ({ z with s := s4.recordArray 3 a x.team } : Issue).trap .machineCheck a (i :: r)
      | [], [] =>
        let ns := (passed step).map (·.2)
        if ns.any (fun r => r.1.drains) then z.spillDrain s3 fill n j ns
        else
          let bad := (ns.map (·.1)).filter (fun r => s3.meetsBad x.team.core [r] r)
          let s4 := s3.onGroup x.gid (fun g => { g with spillprog := BitVec.ofNat 9 (256 + j) })
          z.failIn (s4.recordReads x.team bad) .read (bad.map (fun r => (r.lane, Fail.cause .machineCheck r.checkAddr none)))
      | fs, _ =>
        let s4 := s3.onGroup x.gid (fun g => { g with spillprog := BitVec.ofNat 9 (256 + j) })
        z.failIn s4 (if fill then .read else .write) fs

/-- SPILL or FILL of n positions. -/
def spillFill (fill : Bool) (n c f w : Nat) (s : State) : Out :=
  issue { varLat := true, flag := f, stall := w, rule := .forbidden, mem := true } (fun x =>
    match x.spillBreaks fill n with
    | [] =>
      if x.g.epoch.isNone then x.spillSteps fill n c
      else if x.g.spillprog.getLsbD 8 then x.stall
      else x.spillEpoch fill n c
    | ls => x.refuseTrap .illegalInstruction s.fetched ls) s

/-- SPILL (R290 to R292). -/
def execSpill (n : Fin 256) (c f : Fin 16) (w : Fin 8) (s : State) : Out := spillFill false n c f w s

/-- FILL (R290 to R292). -/
def execFill (n : Fin 256) (c f : Fin 16) (w : Fin 8) (s : State) : Out := spillFill true n c f w s

end Sys2Proof.Machine
end

