-- ==== Sys2Proof/Machine/Dispatch.lean ====
section
/-! DEFINITION. One arm for each constructor of `Instr`: the direct call of its meaning. -/

namespace Sys2Proof.Machine

def exec (i : Instr) (s : State) : Host.Outcome State Fault Refusal :=
  match i with
  | .add d a b f w => Sys2Proof.Machine.execAdd d a b f w s
  | .sub d a b f w => Sys2Proof.Machine.execSub d a b f w s
  | .mul d a b f w => Sys2Proof.Machine.execMul d a b f w s
  | .mulhi d a b f w => Sys2Proof.Machine.execMulhi d a b f w s
  | .mulhiUns d a b f w => Sys2Proof.Machine.execMulhiUns d a b f w s
  | .mad d a b f w => Sys2Proof.Machine.execMad d a b f w s
  | .and d a b f w => Sys2Proof.Machine.execAnd d a b f w s
  | .or d a b f w => Sys2Proof.Machine.execOr d a b f w s
  | .xor d a b f w => Sys2Proof.Machine.execXor d a b f w s
  | .not d a f w => Sys2Proof.Machine.execNot d a f w s
  | .shl d a b f w => Sys2Proof.Machine.execShl d a b f w s
  | .shr d a b f w => Sys2Proof.Machine.execShr d a b f w s
  | .sar d a b f w => Sys2Proof.Machine.execSar d a b f w s
  | .min d a b f w => Sys2Proof.Machine.execMin d a b f w s
  | .minUns d a b f w => Sys2Proof.Machine.execMinUns d a b f w s
  | .max d a b f w => Sys2Proof.Machine.execMax d a b f w s
  | .maxUns d a b f w => Sys2Proof.Machine.execMaxUns d a b f w s
  | .abs d a f w => Sys2Proof.Machine.execAbs d a f w s
  | .clz d a f w => Sys2Proof.Machine.execClz d a f w s
  | .popc d a f w => Sys2Proof.Machine.execPopc d a f w s
  | .brev d a f w => Sys2Proof.Machine.execBrev d a f w s
  | .bfe d a b f w => Sys2Proof.Machine.execBfe d a b f w s
  | .bfeUns d a b f w => Sys2Proof.Machine.execBfeUns d a b f w s
  | .bfi d a b f w => Sys2Proof.Machine.execBfi d a b f w s
  | .sel p d a b f w => Sys2Proof.Machine.execSel p d a b f w s
  | .cmp c p a b f w => Sys2Proof.Machine.execCmp c p a b f w s
  | .mov d a f w => Sys2Proof.Machine.execMov d a f w s
  | .add64 d a b f w => Sys2Proof.Machine.execAdd64 d a b f w s
  | .sub64 d a b f w => Sys2Proof.Machine.execSub64 d a b f w s
  | .mad64 d a b f w => Sys2Proof.Machine.execMad64 d a b f w s
  | .fadd d a b f w => Sys2Proof.Machine.execFadd d a b f w s
  | .fsub d a b f w => Sys2Proof.Machine.execFsub d a b f w s
  | .fmul d a b f w => Sys2Proof.Machine.execFmul d a b f w s
  | .ffma d a b f w => Sys2Proof.Machine.execFfma d a b f w s
  | .fmin d a b f w => Sys2Proof.Machine.execFmin d a b f w s
  | .fmax d a b f w => Sys2Proof.Machine.execFmax d a b f w s
  | .fcmp c p a b f w => Sys2Proof.Machine.execFcmp c p a b f w s
  | .frcp d a f w => Sys2Proof.Machine.execFrcp d a f w s
  | .frsq d a f w => Sys2Proof.Machine.execFrsq d a f w s
  | .fsqrt d a f w => Sys2Proof.Machine.execFsqrt d a f w s
  | .fex2 d a f w => Sys2Proof.Machine.execFex2 d a f w s
  | .flg2 d a f w => Sys2Proof.Machine.execFlg2 d a f w s
  | .fsin d a f w => Sys2Proof.Machine.execFsin d a f w s
  | .fcos d a f w => Sys2Proof.Machine.execFcos d a f w s
  | .hadd2F16 d a b f w => Sys2Proof.Machine.execHadd2F16 d a b f w s
  | .hadd2Bf16 d a b f w => Sys2Proof.Machine.execHadd2Bf16 d a b f w s
  | .hmul2F16 d a b f w => Sys2Proof.Machine.execHmul2F16 d a b f w s
  | .hmul2Bf16 d a b f w => Sys2Proof.Machine.execHmul2Bf16 d a b f w s
  | .hfma2F16 d a b f w => Sys2Proof.Machine.execHfma2F16 d a b f w s
  | .hfma2Bf16 d a b f w => Sys2Proof.Machine.execHfma2Bf16 d a b f w s
  | .dot4S8 d a b f w => Sys2Proof.Machine.execDot4S8 d a b f w s
  | .dot4E4m3 d a b f w => Sys2Proof.Machine.execDot4E4m3 d a b f w s
  | .dot4E5m2 d a b f w => Sys2Proof.Machine.execDot4E5m2 d a b f w s
  | .dot8S4 d a b f w => Sys2Proof.Machine.execDot8S4 d a b f w s
  | .dot8E2m1 d a b f w => Sys2Proof.Machine.execDot8E2m1 d a b f w s
  | .cvt c d a f w => Sys2Proof.Machine.execCvt c d a f w s
  | .cvtsr c d a f w => Sys2Proof.Machine.execCvtsr c d a f w s
  | .pack d a b f w => Sys2Proof.Machine.execPack d a b f w s
  | .unpk e d a f w => Sys2Proof.Machine.execUnpk e d a f w s
  | .addU d a b w => Sys2Proof.Machine.execAddU d a b w s
  | .subU d a b w => Sys2Proof.Machine.execSubU d a b w s
  | .mulU d a b w => Sys2Proof.Machine.execMulU d a b w s
  | .mulhiU d a b w => Sys2Proof.Machine.execMulhiU d a b w s
  | .mulhiUnsU d a b w => Sys2Proof.Machine.execMulhiUnsU d a b w s
  | .madU d a b w => Sys2Proof.Machine.execMadU d a b w s
  | .andU d a b w => Sys2Proof.Machine.execAndU d a b w s
  | .orU d a b w => Sys2Proof.Machine.execOrU d a b w s
  | .xorU d a b w => Sys2Proof.Machine.execXorU d a b w s
  | .notU d b w => Sys2Proof.Machine.execNotU d b w s
  | .shlU d a b w => Sys2Proof.Machine.execShlU d a b w s
  | .shrU d a b w => Sys2Proof.Machine.execShrU d a b w s
  | .sarU d a b w => Sys2Proof.Machine.execSarU d a b w s
  | .minU d a b w => Sys2Proof.Machine.execMinU d a b w s
  | .minUnsU d a b w => Sys2Proof.Machine.execMinUnsU d a b w s
  | .maxU d a b w => Sys2Proof.Machine.execMaxU d a b w s
  | .maxUnsU d a b w => Sys2Proof.Machine.execMaxUnsU d a b w s
  | .absU d b w => Sys2Proof.Machine.execAbsU d b w s
  | .clzU d b w => Sys2Proof.Machine.execClzU d b w s
  | .popcU d b w => Sys2Proof.Machine.execPopcU d b w s
  | .brevU d b w => Sys2Proof.Machine.execBrevU d b w s
  | .bfeU d a b w => Sys2Proof.Machine.execBfeU d a b w s
  | .bfeUnsU d a b w => Sys2Proof.Machine.execBfeUnsU d a b w s
  | .bfiU d a b w => Sys2Proof.Machine.execBfiU d a b w s
  | .selU p d a b w => Sys2Proof.Machine.execSelU p d a b w s
  | .cmpU c p a b w => Sys2Proof.Machine.execCmpU c p a b w s
  | .movU d b w => Sys2Proof.Machine.execMovU d b w s
  | .add64U d a b w => Sys2Proof.Machine.execAdd64U d a b w s
  | .sub64U d a b w => Sys2Proof.Machine.execSub64U d a b w s
  | .mad64U d a b w => Sys2Proof.Machine.execMad64U d a b w s
  | .faddU d a b w => Sys2Proof.Machine.execFaddU d a b w s
  | .fsubU d a b w => Sys2Proof.Machine.execFsubU d a b w s
  | .fmulU d a b w => Sys2Proof.Machine.execFmulU d a b w s
  | .ffmaU d a b w => Sys2Proof.Machine.execFfmaU d a b w s
  | .fminU d a b w => Sys2Proof.Machine.execFminU d a b w s
  | .fmaxU d a b w => Sys2Proof.Machine.execFmaxU d a b w s
  | .fcmpU c p a b w => Sys2Proof.Machine.execFcmpU c p a b w s
  | .hadd2F16U d a b w => Sys2Proof.Machine.execHadd2F16U d a b w s
  | .hadd2Bf16U d a b w => Sys2Proof.Machine.execHadd2Bf16U d a b w s
  | .hmul2F16U d a b w => Sys2Proof.Machine.execHmul2F16U d a b w s
  | .hmul2Bf16U d a b w => Sys2Proof.Machine.execHmul2Bf16U d a b w s
  | .hfma2F16U d a b w => Sys2Proof.Machine.execHfma2F16U d a b w s
  | .hfma2Bf16U d a b w => Sys2Proof.Machine.execHfma2Bf16U d a b w s
  | .dot4S8U d a b w => Sys2Proof.Machine.execDot4S8U d a b w s
  | .dot4E4m3U d a b w => Sys2Proof.Machine.execDot4E4m3U d a b w s
  | .dot4E5m2U d a b w => Sys2Proof.Machine.execDot4E5m2U d a b w s
  | .dot8S4U d a b w => Sys2Proof.Machine.execDot8S4U d a b w s
  | .dot8E2m1U d a b w => Sys2Proof.Machine.execDot8E2m1U d a b w s
  | .packU d a b w => Sys2Proof.Machine.execPackU d a b w s
  | .addI d n w => Sys2Proof.Machine.execAddI d n w s
  | .mulI d n w => Sys2Proof.Machine.execMulI d n w s
  | .andI d n w => Sys2Proof.Machine.execAndI d n w s
  | .orI d n w => Sys2Proof.Machine.execOrI d n w s
  | .xorI d n w => Sys2Proof.Machine.execXorI d n w s
  | .shlI d n w => Sys2Proof.Machine.execShlI d n w s
  | .shrI d n w => Sys2Proof.Machine.execShrI d n w s
  | .sarI d n w => Sys2Proof.Machine.execSarI d n w s
  | .movI d n w => Sys2Proof.Machine.execMovI d n w s
  | .movHi d n w => Sys2Proof.Machine.execMovHi d n w s
  | .faddI d n w => Sys2Proof.Machine.execFaddI d n w s
  | .fmulI d n w => Sys2Proof.Machine.execFmulI d n w s
  | .movF32 d n w => Sys2Proof.Machine.execMovF32 d n w s
  | .hadd2F16I d n w => Sys2Proof.Machine.execHadd2F16I d n w s
  | .hmul2F16I d n w => Sys2Proof.Machine.execHmul2F16I d n w s
  | .movE4m3x2 d n w => Sys2Proof.Machine.execMovE4m3x2 d n w s
  | .addA16 d r => Sys2Proof.Machine.execAddA16 d r s
  | .subA16 d r => Sys2Proof.Machine.execSubA16 d r s
  | .mulA16 d r => Sys2Proof.Machine.execMulA16 d r s
  | .andA16 d r => Sys2Proof.Machine.execAndA16 d r s
  | .orA16 d r => Sys2Proof.Machine.execOrA16 d r s
  | .xorA16 d r => Sys2Proof.Machine.execXorA16 d r s
  | .shlA16 d r => Sys2Proof.Machine.execShlA16 d r s
  | .shrA16 d r => Sys2Proof.Machine.execShrA16 d r s
  | .minA16 d r => Sys2Proof.Machine.execMinA16 d r s
  | .maxA16 d r => Sys2Proof.Machine.execMaxA16 d r s
  | .movA16 d r => Sys2Proof.Machine.execMovA16 d r s
  | .faddA16 d r => Sys2Proof.Machine.execFaddA16 d r s
  | .fmulA16 d r => Sys2Proof.Machine.execFmulA16 d r s
  | .fminA16 d r => Sys2Proof.Machine.execFminA16 d r s
  | .fmaxA16 d r => Sys2Proof.Machine.execFmaxA16 d r s
  | .ffmaA16 d r => Sys2Proof.Machine.execFfmaA16 d r s
  | .waitf m => Sys2Proof.Machine.execWaitf m s
  | .nop => Sys2Proof.Machine.execNop s
  | .yield => Sys2Proof.Machine.execYield s
  | .ret8 => Sys2Proof.Machine.execRet8 s
  | .ret16 => Sys2Proof.Machine.execRet16 s
  | .mend => Sys2Proof.Machine.execMend s
  | .exit => Sys2Proof.Machine.execExit s
  | .fence => Sys2Proof.Machine.execFence s
  | .stall n => Sys2Proof.Machine.execStall n s
  | .ld d c n z f w => Sys2Proof.Machine.execLd d c n z f w s
  | .ldS d c n z f w => Sys2Proof.Machine.execLdS d c n z f w s
  | .st d c n z f w => Sys2Proof.Machine.execSt d c n z f w s
  | .lds d n z f w => Sys2Proof.Machine.execLds d n z f w s
  | .ldsS d n z f w => Sys2Proof.Machine.execLdsS d n z f w s
  | .sts d n z f w => Sys2Proof.Machine.execSts d n z f w s
  | .ldmx d c n z f w => Sys2Proof.Machine.execLdmx d c n z f w s
  | .stmx d c n z f w => Sys2Proof.Machine.execStmx d c n z f w s
  | .pref c n z w => Sys2Proof.Machine.execPref c n z w s
  | .cload d c n f w => Sys2Proof.Machine.execCload d c n f w s
  | .cstore d c n f w => Sys2Proof.Machine.execCstore d c n f w s
  | .cnarrow d c n w => Sys2Proof.Machine.execCnarrow d c n w s
  | .crestr d c n w => Sys2Proof.Machine.execCrestr d c n w s
  | .cget d c z w => Sys2Proof.Machine.execCget d c z w s
  | .cseal d c a w => Sys2Proof.Machine.execCseal d c a w s
  | .csealUn d c a w => Sys2Proof.Machine.execCsealUn d c a w s
  | .ctestTag p c w => Sys2Proof.Machine.execCtestTag p c w s
  | .ctestUnsealed p c w => Sys2Proof.Machine.execCtestUnsealed p c w s
  | .ctestSub p c k w => Sys2Proof.Machine.execCtestSub p c k w s
  | .ctestIn p c n z w => Sys2Proof.Machine.execCtestIn p c n z w s
  | .bra p o w => Sys2Proof.Machine.execBra p o w s
  | .braN p o w => Sys2Proof.Machine.execBraN p o w s
  | .brl p o w => Sys2Proof.Machine.execBrl p o w s
  | .call8 o w => Sys2Proof.Machine.execCall8 o w s
  | .call16 o w => Sys2Proof.Machine.execCall16 o w s
  | .jmp r w => Sys2Proof.Machine.execJmp r w s
  | .meld p t w => Sys2Proof.Machine.execMeld p t w s
  | .shflIdx d a b z f w => Sys2Proof.Machine.execShflIdx d a b z f w s
  | .shflUp d a b z f w => Sys2Proof.Machine.execShflUp d a b z f w s
  | .shflDown d a b z f w => Sys2Proof.Machine.execShflDown d a b z f w s
  | .shflXor d a b z f w => Sys2Proof.Machine.execShflXor d a b z f w s
  | .voteAll p q f w => Sys2Proof.Machine.execVoteAll p q f w s
  | .voteAny p q f w => Sys2Proof.Machine.execVoteAny p q f w s
  | .voteBallot d q f w => Sys2Proof.Machine.execVoteBallot d q f w s
  | .redux o d a f w => Sys2Proof.Machine.execRedux o d a f w s
  | .matchAny d a f w => Sys2Proof.Machine.execMatchAny d a f w s
  | .matchAll p a f w => Sys2Proof.Machine.execMatchAll p a f w s
  | .fork x q w => Sys2Proof.Machine.execFork x q w s
  | .copy x a b f w => Sys2Proof.Machine.execCopy x a b f w s
  | .copyq x w => Sys2Proof.Machine.execCopyq x w s
  | .chain x a b f w => Sys2Proof.Machine.execChain x a b f w s
  | .coll x a f w => Sys2Proof.Machine.execColl x a f w s
  | .post x f w => Sys2Proof.Machine.execPost x f w s
  | .ecancel x w => Sys2Proof.Machine.execEcancel x w s
  | .estat x w => Sys2Proof.Machine.execEstat x w s
  | .sleept t w => Sys2Proof.Machine.execSleept t w s
  | .waitc n k a d w => Sys2Proof.Machine.execWaitc n k a d w s
  | .bar b m w => Sys2Proof.Machine.execBar b m w s
  | .arrive b m w => Sys2Proof.Machine.execArrive b m w s
  | .await b m w => Sys2Proof.Machine.execAwait b m w s
  | .rvz q w => Sys2Proof.Machine.execRvz q w s
  | .dqpush a m w => Sys2Proof.Machine.execDqpush a m w s
  | .dqpop t w => Sys2Proof.Machine.execDqpop t w s
  | .csrr c d w => Sys2Proof.Machine.execCsrr c d w s
  | .csrw c a w => Sys2Proof.Machine.execCsrw c a w s
  | .trap c w => Sys2Proof.Machine.execTrap c w s
  | .tret => Sys2Proof.Machine.execTret s
  | .spill n c f w => Sys2Proof.Machine.execSpill n c f w s
  | .fill n c f w => Sys2Proof.Machine.execFill n c f w s
  | .redx y t a r f w => Sys2Proof.Machine.execRedx y t a r f w s
  | .movS t a w => Sys2Proof.Machine.execMovS t a w s
  | .atom o z c a d f w => Sys2Proof.Machine.execAtom o z c a d f w s
  | .atomm o z c a d f w => Sys2Proof.Machine.execAtomm o z c a d f w s
  | .mcfg afmt bfmt kb => Sys2Proof.Machine.execMcfg afmt bfmt kb s
  | .mload buf mcast addr => Sys2Proof.Machine.execMload buf mcast addr s
  | .mma acc zero => Sys2Proof.Machine.execMma acc zero s
  | .mdrain acc ofmt rm tr trm mem toff dest => Sys2Proof.Machine.execMdrain acc ofmt rm tr trm mem toff dest s
  | .mwait kind value addr => Sys2Proof.Machine.execMwait kind value addr s
  | .mstep back count addinc => Sys2Proof.Machine.execMstep back count addinc s
  | .chainFadd d a b => Sys2Proof.Machine.execChainFadd d a b s
  | .chainFsub d a b => Sys2Proof.Machine.execChainFsub d a b s
  | .chainFmul d a b => Sys2Proof.Machine.execChainFmul d a b s
  | .chainFfma d a b c => Sys2Proof.Machine.execChainFfma d a b c s
  | .chainFmin d a b => Sys2Proof.Machine.execChainFmin d a b s
  | .chainFmax d a b => Sys2Proof.Machine.execChainFmax d a b s
  | .chainFex2 d a => Sys2Proof.Machine.execChainFex2 d a s
  | .chainFlg2 d a => Sys2Proof.Machine.execChainFlg2 d a s
  | .chainFrcp d a => Sys2Proof.Machine.execChainFrcp d a s
  | .chainFrsq d a => Sys2Proof.Machine.execChainFrsq d a s
  | .chainFsqrt d a => Sys2Proof.Machine.execChainFsqrt d a s
  | .chainSel d a b c => Sys2Proof.Machine.execChainSel d a b c s
  | .sumr d a => Sys2Proof.Machine.execSumr d a s
  | .maxr d a => Sys2Proof.Machine.execMaxr d a s
  | .outq o a m k => Sys2Proof.Machine.execOutq o a m k s
  | .chainMov d a => Sys2Proof.Machine.execChainMov d a s
  | .send a => Sys2Proof.Machine.execSend a s
  | .recv a => Sys2Proof.Machine.execRecv a s
  | .recvadd a => Sys2Proof.Machine.execRecvadd a s
  | .waitw a => Sys2Proof.Machine.execWaitw a s
  | .signal a => Sys2Proof.Machine.execSignal a s
  | .sparse a => Sys2Proof.Machine.execSparse a s
  | .recvsparse a => Sys2Proof.Machine.execRecvsparse a s
  | .endStep a => Sys2Proof.Machine.execEndStep a s
  | .descriptorRelease core => Sys2Proof.Machine.execDescriptorRelease core s
  | .engineOperationCompletion op => Sys2Proof.Machine.execEngineOperationCompletion op s
  | .epochCommit g => Sys2Proof.Machine.execEpochCommit g s
  | .tokenHoldExpiry cluster => Sys2Proof.Machine.execTokenHoldExpiry cluster s
  | .pathRotation g slice => Sys2Proof.Machine.execPathRotation g slice s
  | .sleeptWake g lane => Sys2Proof.Machine.execSleeptWake g lane s
  | .waitcReread g lane => Sys2Proof.Machine.execWaitcReread g lane s
  | .read core line => Sys2Proof.Machine.execRead core line s
  | .own core line => Sys2Proof.Machine.execOwn core line s
  | .grant core line => Sys2Proof.Machine.execGrant core line s
  | .invalidation core line => Sys2Proof.Machine.execInvalidation core line s
  | .recall core line => Sys2Proof.Machine.execRecall core line s
  | .acknowledgement core line => Sys2Proof.Machine.execAcknowledgement core line s
  | .evictionNotice core line => Sys2Proof.Machine.execEvictionNotice core line s
  | .writeBack core line mask => Sys2Proof.Machine.execWriteBack core line mask s
  | .data ch => Sys2Proof.Machine.execData ch s
  | .ack ch => Sys2Proof.Machine.execAck ch s
  | .retry ch hint => Sys2Proof.Machine.execRetry ch hint s
  | .retryReissue ch => Sys2Proof.Machine.execRetryReissue ch s
  | .error ch => Sys2Proof.Machine.execError ch s
  | .refresh ch bank cycles => Sys2Proof.Machine.execRefresh ch bank cycles s
  | .powerDown ch => Sys2Proof.Machine.execPowerDown ch s
  | .selfRefresh ch => Sys2Proof.Machine.execSelfRefresh ch s
  | .powerStateExit ch => Sys2Proof.Machine.execPowerStateExit ch s
  | .memorySideAccess id => Sys2Proof.Machine.execMemorySideAccess id s
  | .nmuCommand id stack => Sys2Proof.Machine.execNmuCommand id stack s
  | .partialSum id => Sys2Proof.Machine.execPartialSum id s
  | .snpdata line => Sys2Proof.Machine.execSnpdata line s
  | .snpinv line => Sys2Proof.Machine.execSnpinv line s
  | .snpcur line => Sys2Proof.Machine.execSnpcur line s
  | .cxlCacheResponse line half bytes => Sys2Proof.Machine.execCxlCacheResponse line half bytes s
  | .cxlMemRead dpa => Sys2Proof.Machine.execCxlMemRead dpa s
  | .cxlMemWrite dpa bytes => Sys2Proof.Machine.execCxlMemWrite dpa bytes s
  | .bisnpAnswer line => Sys2Proof.Machine.execBisnpAnswer line s
  | .epochEnd die => Sys2Proof.Machine.execEpochEnd die s
  | .chretireGo chan => Sys2Proof.Machine.execChretireGo chan s
  | .retirementSwitch chan => Sys2Proof.Machine.execRetirementSwitch chan s
  | .backgroundSweep leaf => Sys2Proof.Machine.execBackgroundSweep leaf s
  | .notifyStore p fn q value => Sys2Proof.Machine.execNotifyStore p fn q value s
  | .queueMap p q => Sys2Proof.Machine.execQueueMap p q s
  | .queueUnmap p q => Sys2Proof.Machine.execQueueUnmap p q s
  | .nopCommand h => Sys2Proof.Machine.execNopCommand h s
  | .launch h record ordered => Sys2Proof.Machine.execLaunch h record ordered s
  | .launchi h record ordered dims => Sys2Proof.Machine.execLaunchi h record ordered dims s
  | .waitmem h gva value cond => Sys2Proof.Machine.execWaitmem h gva value cond s
  | .write h gva value => Sys2Proof.Machine.execWrite h gva value s
  | .branch h cond value target => Sys2Proof.Machine.execBranch h cond value target s
  | .loop h count target => Sys2Proof.Machine.execLoop h count target s
  | .qprio h queue prio => Sys2Proof.Machine.execQprio h queue prio s
  | .process h gpa proc => Sys2Proof.Machine.execProcess h gpa proc s
  | .kill h fn result => Sys2Proof.Machine.execKill h fn result s
  | .invS1Va h fn asid base len leafOnly => Sys2Proof.Machine.execInvS1Va h fn asid base len leafOnly s
  | .invS1Asid h fn asid => Sys2Proof.Machine.execInvS1Asid h fn asid s
  | .invS2Gpa h fn base len => Sys2Proof.Machine.execInvS2Gpa h fn base len s
  | .invFn h fn => Sys2Proof.Machine.execInvFn h fn s
  | .invPart h => Sys2Proof.Machine.execInvPart h s
  | .invalidationCompletion p id => Sys2Proof.Machine.execInvalidationCompletion p id s
  | .biasflip h fn gpa bias ho => Sys2Proof.Machine.execBiasflip h fn gpa bias ho s
  | .deferred p q => Sys2Proof.Machine.execDeferred p q s
  | .migrate64k h fn gpa newOut kind key => Sys2Proof.Machine.execMigrate64k h fn gpa newOut kind key s
  | .cancel h target => Sys2Proof.Machine.execCancel h target s
  | .admission p => Sys2Proof.Machine.execAdmission p s
  | .ageing p q => Sys2Proof.Machine.execAgeing p q s
  | .eviction p set => Sys2Proof.Machine.execEviction p set s
  | .sliceEnd p => Sys2Proof.Machine.execSliceEnd p s
  | .staging p => Sys2Proof.Machine.execStaging p s
  | .exchange p => Sys2Proof.Machine.execExchange p s
  | .contextWriteBack p => Sys2Proof.Machine.execContextWriteBack p s
  | .fqrespRetry p id runtime => Sys2Proof.Machine.execFqrespRetry p id runtime s
  | .fqrespDeny p id runtime => Sys2Proof.Machine.execFqrespDeny p id runtime s
  | .fqtailWrite p tail => Sys2Proof.Machine.execFqtailWrite p tail s
  | .peerRd pkt => Sys2Proof.Machine.execPeerRd pkt s
  | .peerWr pkt => Sys2Proof.Machine.execPeerWr pkt s
  | .peerAtom pkt => Sys2Proof.Machine.execPeerAtom pkt s
  | .peerAtomm pkt => Sys2Proof.Machine.execPeerAtomm pkt s
  | .launchPacket pkt => Sys2Proof.Machine.execLaunchPacket pkt s
  | .cdata pkt => Sys2Proof.Machine.execCdata pkt s
  | .clear pkt => Sys2Proof.Machine.execClear pkt s
  | .sparseFlit pkt => Sys2Proof.Machine.execSparseFlit pkt s
  | .spend pkt => Sys2Proof.Machine.execSpend pkt s
  | .peerData id bytes => Sys2Proof.Machine.execPeerData id bytes s
  | .peerAck id => Sys2Proof.Machine.execPeerAck id s
  | .peerError id cause => Sys2Proof.Machine.execPeerError id cause s
  | .peerRetry id hint => Sys2Proof.Machine.execPeerRetry id hint s
  | .resend id => Sys2Proof.Machine.execResend id s
  | .moved id => Sys2Proof.Machine.execMoved id s
  | .movedReread id => Sys2Proof.Machine.execMovedReread id s
  | .linkTimeout id => Sys2Proof.Machine.execLinkTimeout id s
  | .portDown port => Sys2Proof.Machine.execPortDown port s
  | .vdnTableWrite vdn value => Sys2Proof.Machine.execVdnTableWrite vdn value s
  | .migctlGo p value => Sys2Proof.Machine.execMigctlGo p value s
  | .migctlStop p => Sys2Proof.Machine.execMigctlStop p s
  | .migctlAbort p => Sys2Proof.Machine.execMigctlAbort p s
  | .precopyRoundEnd p us => Sys2Proof.Machine.execPrecopyRoundEnd p us s
  | .governorWindow p => Sys2Proof.Machine.execGovernorWindow p s
  | .migrationDataWrite pkt => Sys2Proof.Machine.execMigrationDataWrite pkt s
  | .imageWrite pkt => Sys2Proof.Machine.execImageWrite pkt s
  | .carriedResultWrite pkt => Sys2Proof.Machine.execCarriedResultWrite pkt s
  | .install p => Sys2Proof.Machine.execInstall p s
  | .switch p => Sys2Proof.Machine.execSwitch p s
  | .resume p => Sys2Proof.Machine.execResume p s
  | .forwardingEnd p => Sys2Proof.Machine.execForwardingEnd p s
  | .partcluWrite p value => Sys2Proof.Machine.execPartcluWrite p value s
  | .partcfgWrite p value => Sys2Proof.Machine.execPartcfgWrite p value s
  | .keyinstall arg buf => Sys2Proof.Machine.execKeyinstall arg buf s
  | .keyretire arg buf => Sys2Proof.Machine.execKeyretire arg buf s
  | .attest arg buf => Sys2Proof.Machine.execAttest arg buf s
  | .seal arg buf => Sys2Proof.Machine.execSeal arg buf s
  | .unlock arg buf => Sys2Proof.Machine.execUnlock arg buf s
  | .fwload arg buf => Sys2Proof.Machine.execFwload arg buf s
  | .fwcommit arg buf => Sys2Proof.Machine.execFwcommit arg buf s
  | .migkey arg buf => Sys2Proof.Machine.execMigkey arg buf s
  | .tokenExpiry token => Sys2Proof.Machine.execTokenExpiry token s
  | .breakpointArm g n gva => Sys2Proof.Machine.execBreakpointArm g n gva s
  | .getVersion => Sys2Proof.Machine.execGetVersion s
  | .getCapabilities => Sys2Proof.Machine.execGetCapabilities s
  | .negotiateAlgorithms algs => Sys2Proof.Machine.execNegotiateAlgorithms algs s
  | .getDigests => Sys2Proof.Machine.execGetDigests s
  | .getCertificate => Sys2Proof.Machine.execGetCertificate s
  | .challenge nonce => Sys2Proof.Machine.execChallenge nonce s
  | .getMeasurements => Sys2Proof.Machine.execGetMeasurements s
  | .keyExchange peerKey => Sys2Proof.Machine.execKeyExchange peerKey s
  | .finish mac => Sys2Proof.Machine.execFinish mac s
  | .query => Sys2Proof.Machine.execQuery s
  | .keyProg ks key => Sys2Proof.Machine.execKeyProg ks key s
  | .kSetGo ks => Sys2Proof.Machine.execKSetGo ks s
  | .kSetStop ks => Sys2Proof.Machine.execKSetStop ks s
  | .pwrcapWrite value => Sys2Proof.Machine.execPwrcapWrite value s
  | .drawWindow watts => Sys2Proof.Machine.execDrawWindow watts s
  | .powerCapWindow => Sys2Proof.Machine.execPowerCapWindow s
  | .droop core => Sys2Proof.Machine.execDroop core s
  | .thermal die temp => Sys2Proof.Machine.execThermal die temp s
  | .patrolScrub dpa => Sys2Proof.Machine.execPatrolScrub dpa s
  | .rascntWrite n value => Sys2Proof.Machine.execRascntWrite n value s
  | .warmReset => Sys2Proof.Machine.execWarmReset s
  | .coldReset => Sys2Proof.Machine.execColdReset s
  | .registerWrite reg value => Sys2Proof.Machine.execRegisterWrite reg value s
  | .portRetrain port => Sys2Proof.Machine.execPortRetrain port s
  | .dieBelow95c die => Sys2Proof.Machine.execDieBelow95c die s
  | .droopEnd core => Sys2Proof.Machine.execDroopEnd core s

end Sys2Proof.Machine
end

