-- ==== Sys2Proof/Machine/Strike.lean ====
section
/-! DEFINITION. Errors of the memory arrays as they come about (R81, R400, R464, R465): a mark that the reader meets later, the
launches whose state an array of no single instruction holds, or a count. -/

namespace Sys2Proof.Machine

/-- The launches whose state one of the arrays holds that belong to no single instruction (R400). -/
def State.launchesIn (s : State) (x : Struck) : List Nat :=
  let ofTeams (l : List Team) : List Nat := l.foldl (fun r t => insertNat r t.launch) []
  let on (core : Nat) : List (Nat × Team) := s.teams.filter (fun e => e.2.state == .resident && e.2.core == core)
  match x with
  | .checkpoint gid => (match look s.groups gid with | some g => if g.holdsTrap then ofTeams [s.teamOf g] else [] | none => [])
  | .lockEntry id =>
    (match look s.ops id with | some o => ofTeams (match look s.teams o.team with | some t => [t] | none => []) | none => [])
  | .meldStore core => (ofTeams ((on core).map (·.2))).filter (fun n => !(lookD s.launches n {}).melds.isEmpty)
  | .chainStore core =>
    ofTeams (((on core).filter (fun e => (s.core core).slots.any (fun q => q.2.team == some e.1))).map (·.2))
  | .decisions tid => ofTeams (match look s.teams tid with | some t => if t.dq.isEmpty then [] else [t] | none => [])
  | .shadow core fn =>
    ofTeams ((s.teams.filter (fun e => e.2.state == .swapped && e.2.core == core && e.2.ctx.fn == fn)).map (·.2))
  | .granule _ _ | .word _ | .register _ _ | .corrected _ => []

/-- The copies of a granule in the MSC and the L1s lost: an error of one of them stands as one of DRAM does (R464). -/
def State.loseGranule (s : State) (g : Nat) : State :=
  { s with
    msc := s.msc.map (fun (e : Nat × MscLine) =>
      if e.1 = g / 128 then (e.1, { e.2 with valid := e.2.valid &&& ~~~(1#128 <<< (g % 128)), dirty := e.2.dirty &&& ~~~(1#128 <<< (g % 128)) }) else e)
    l1 := s.l1.map (fun (l : L1Line) =>
      if l.line = g / 8 then { l with valid := l.valid &&& ~~~(1#8 <<< (g % 8)), dirty := l.dirty &&& ~~~(1#8 <<< (g % 8)) } else l) }

/-- An error comes about. What a reader meets is marked, and counted as the reader meets it, those of the MSC, of an L1 or of the
directory at once; every launch whose state a control array holds ends FAULTED, with no trap. -/
def State.struck (s : State) (x : Struck) : State :=
  match x with
  | .granule source loc =>
    if dramSize ≤ loc ∧ (source ≠ 2 ∨ loc < hostBase ∨ scratchBase ≤ loc) then s
    else
      let s1 : State := { s with mem := { s.mem with bad := insertNat s.mem.bad (granule loc) } }
      if source = 1 ∨ source = 2 then (s1.loseGranule (granule loc)).countError source true else s1
  | .word loc => if loc < scratchBase then s else { s with mem := { s.mem with badWords := insertNat s.mem.badWords ((loc - scratchBase) / 4) } }
  | .register gid r =>
    s.onGroup gid (fun g =>
      if g.arch.struck.contains r ∨ (r.file = .p ∧ r.key = 0) then g else { g with arch := { g.arch with struck := r :: g.arch.struck } })
  | .corrected source =>
    if 1 ≤ source ∧ source < 8 then s.countError source false else s
  | .checkpoint _ | .lockEntry _ | .meldStore _ | .chainStore _ | .decisions _ | .shadow _ _ =>
    (s.launchesIn x).foldl (fun t n => t.endLaunch n 0x30) (s.countError 5 true)

end Sys2Proof.Machine
end

