-- ==== Sys2Proof/Machine/Fetch.lean ====
section
/-! DEFINITION. What a turn brings to execution: the choice of a convoy and the fetch of its instruction (R46, R59, R153 to R158,
R208, R209, R400, R401), the next word of a matrix program (R322), micro-op of a chain run (R337), step of a collective program
(R346), packet of a queue (R371). -/

namespace Sys2Proof.Machine

/-- What a turn comes to: a machine in which nothing is left to execute, an instruction, an instruction of an epoch that opens with it, or
an action of the machine itself. -/
inductive Coming where
  | done (s : State)
  | instr (i : Instr) (s : State)
  | open_ (gid : Nat) (i : Instr) (s : State)
  | act (f : State → Out) (s : State)

/-! ### Which lanes issue (R155, R156, R158) -/

/-- Whether every unexited lane of a group waits in one rendezvous with a lane (R300, R170), as comes about when the last
other lane exits. -/
def Group.standsAt (g : Group) (l : Lane) (p : Park) : Bool :=
  g.unexited.all (fun i => let k := g.lane i; k.park == some p && k.pc == l.pc && k.counter == l.counter)

/-- Whether the command that a lane waits with can be released, its turn having come (R130). -/
def State.commandFree (s : State) (gid : Nat) (g : Group) (i : Nat) : Bool :=
  match g.cmdWait.find? (fun w => w.1.contains i) with
  | some w => s.canRelease gid w.2 && !(w.2.cmd.locks && g.waitsBefore w.1)
  | none => true

/-- Whether a lane's wait has come to its end, so that its instruction can execute again. -/
def State.released (s : State) (gid : Nat) (g : Group) (i : Nat) (p : Park) : Bool :=
  let t := s.teamOf g
  let l := g.lane i
  match p with
  | .waitf m => (flagsIn m).all (fun n => (g.settleBy (fun k => (flagsIn m).contains k)).flag n == 0)
  | .sleept k => decide (g.spair k ≤ s.partClock t.ctx.part)
  | .await b => s.isOpen t b || l.phasePassed b (t.barrier b)
  | .bar b => g.standsAt l (.bar b)
  | .dqpop => g.standsAt l .dqpop && (s.nextDecision t g).isSome
  | .dqpush => decide (t.dq.length < 64)
  | .rvz q => !(seqsIn q).any t.busyOn && !g.forks (seqsIn q)
  | .fork q => !(seqsIn q).any t.busyOn
  | .release => s.commandFree gid g i
  | .engines => s.quiet gid t
  | .access => !s.waitsFar g
  | .home line own =>
    !s.flipping line && s.hostReady line own && (!s.retiring (128 * line) || !s.mscStalls line)
  | .waitc | .barred _ _ | .arrive _ | .record | .memorySide _ => false

/-- The lanes of a group whose waits have come to their ends wait no longer, and their paths merge with others (R153, R155). -/
def State.wakeLanes (s : State) (gid : Nat) (g : Group) : Group :=
  let free (i : Nat) (l : Lane) : Bool := match l.park with | some p => s.released gid g i p | none => false
  if (List.range g.arch.lanes.length).any (fun i => free i (g.lane i)) then
    { g with arch := g.arch.wake (fun i l => if free i l then { l with park := none } else l) }
  else g

/-- Whether a lane may issue: not exited, in trap mode of the trapping convoy and not yet at its TRET, not parked, its group not stopped
by a cause in a shadow (R123). -/
def Group.mayIssue (g : Group) (l : Lane) : Bool := !g.stuck && !l.exited && !l.atTret && (!g.trapMode || l.tmeld.conv) && l.park.isNone

/-- The path slice j issues from now: the path of a region before all others, the lowest lane's where there are several (DESIGN CHOICE), else
its current path, else the next one that is not parked. -/
def Group.pathNow (g : Group) (j : Nat) : Option Nat :=
  let ls := (g.arch.sliceLanes j).filter (fun e => g.mayIssue e.2)
  match ls.find? (fun e => e.2.meld.isSome) with
  | some e => some e.2.path
  | none =>
    let ps := ls.foldl (fun l e => insertNat l e.2.path) []
    let cur := ((g.arch.slices[j]?).map (·.current)).getD 0
    if ps.isEmpty then none else if ps.contains cur then some cur else some (pathAfter ps cur)

/-- Whether two current paths are ganged: outside regions at one PC and counter, or bonded: entered in one MELD, or sent on as one convoy
by a trap or a TRET (R156, R308, R311). -/
def Lane.gangs (a b : Lane) : Bool :=
  match a.bond, b.bond with
  | none, none => a.pc == b.pc && a.counter == b.counter
  | some m, some n => m == n
  | _, _ => false

/-- The lanes of slice j on the path it issues from. -/
def Group.pathLanes (g : Group) (j : Nat) : List (Nat × Lane) :=
  match g.pathNow j with
  | some p => (g.arch.sliceLanes j).filter (fun e => e.2.path == p && g.mayIssue e.2)
  | none => []

/-- The convoy a slice's issue decision forms. -/
def Group.convoyOf (g : Group) (j : Nat) : List Nat :=
  match g.pathLanes j with
  | [] => []
  | (_, l) :: _ =>
    ((List.range g.arch.slices.length).flatMap g.pathLanes).filterMap (fun e => if l.gangs e.2 then some e.1 else none)

/-- The slices of a convoy issue from its paths. -/
def Group.takeUp (g : Group) (mask : List Nat) : Group :=
  let path (j : Nat) : Option Nat := (mask.find? (fun i => i / 4 == j)).map (fun i => (g.lane i).path)
  { g with arch := { g.arch with
      slices := g.arch.slices.mapIdx (fun j sl =>
        match path j with
        | some p => if sl.current = p then sl else { current := p, issued := 0 }
        | none => sl) } }

/-! ### The bytes of an instruction (R46, R59, R208, R400) -/

/-- A fetch that failed: why, the halfword's address, and the place of an uncorrectable granule. -/
structure FetchFail where
  fail : Fail
  at_ : Nat
  bad : Option Nat := none
  deriving DecidableEq, Repr

/-- A halfword put in a core's instruction cache of 32 KiB; in a full one another gives way, a free choice (R59). -/
def Core.keepCode (c : Core) (loc h free : Nat) : Core :=
  let old := if (look c.icache loc).isSome ∨ c.icache.length < 16384 then c.icache else c.icache.eraseIdx ((Config.word free).toNat % 16384)
  { c with icache := put old loc (BitVec.ofNat 16 h) }

/-- Whether the MSC, through which code is fetched with no recall, may hold an older value of a byte: an L1 holds it dirty (R57, R59). -/
def State.codeStale (s : State) (loc : Nat) : Bool := s.l1.any (fun l => l.line == lineOf loc && l.dirty.getLsbD (loc % 128 / 16))

/-- One halfword: checked, translated, from the core's instruction cache, or through the MSC from memory. Where the cache holds other
bytes than memory the fetch may return either, and where an L1 holds newer ones than the MSC it may return the older, which are not held
and free (R59). Peer memory is outside the machine, and what it holds is a free value. -/
def State.fetchHalf (s : State) (g : Group) (a : Nat) (k : Nat) : Except FetchFail (State × Nat) :=
  let t := s.teamOf g
  let c := if g.trapMode then g.cap 0 else g.cap 15
  let rq : Requester := { ctx := t.ctx, cluster := t.cluster, core := t.core, guide := g.isGuide, team := g.team }
  let check : Except Fail Grant :=
    if a < c.base then
      match s.checkCap rq c permX 0 0 with
      | .error e => .error e
      | .ok _ => .error (.cause .capBounds (BitVec.ofNat 64 a) (some c.owner))
    else s.checkAccess rq c (a - c.base) 2 permX .fetch 2 (1024 + k)
  match check with
  | .error e => .error { fail := e, at_ := a }
  | .ok gr =>
    let s1 := s.install gr.f
    let loc := outLoc gr.f.x.kind gr.f.x.out
    if gr.f.x.kind = .peer then .ok (s1.bump, (Config.word s.free).toNat % 2 ^ 16)
    else
      let j := s.serialOf gr.f.x.key
      let now := ofBytes (s.mem.getsUnder j loc 2)
      let h := if s.codeStale loc && Config.choice (2 ^ 71 + 2 * s.free + k) then (Config.word (2 ^ 71 + 2 * s.free + k)).toNat % 2 ^ 16 else now
      let fill : Except FetchFail (State × Nat) :=
        if s.isBad loc 2 then .error { fail := .cause .machineCheck (BitVec.ofNat 64 (3 * 2 ^ 60 + a)) none, at_ := a, bad := some loc }
        else .ok ((s1.below loc 2 j false false).onCore t.core (fun c => c.keepCode loc h s.free), h)
      match look (s.core t.core).icache loc with
      | some old => if old.toNat = now ∨ Config.choice (2 ^ 70 + 2 * s.free + k) then .ok (s1, old.toNat) else fill
      | none => fill

/-- The halfwords of the instruction at an address (R208). -/
def State.fetchAt (s : State) (g : Group) (a : Nat) : Except FetchFail (State × Nat) :=
  match s.fetchHalf g a 0 with
  | .error e => .error e
  | .ok (s1, lo) =>
    if isLong lo then
      match s1.fetchHalf g (a + 2) 1 with
      | .error e => .error e
      | .ok (s2, hi) => .ok (s2, lo + hi * 2 ^ 16)
    else .ok (s1, lo)

/-- A fetch failure of a convoy: the log entry and the trap, or the park of a page fault. -/
def State.fetchFails (s : State) (gid : Nat) (g : Group) (mask : List Nat) (pc : BitVec 57) (e : FetchFail) : State :=
  let t := s.teamOf g
  match e.fail with
  | .page p gva =>
    s.pageFault gid { cause := p.cause, addr := BitVec.ofNat 64 gva, lanes := mask, pc := pc, convoy := mask } p gva .fetch
  | .cause c ad o =>
    let s1 := match e.bad with | some loc => s.recordBad loc 2 (some t.ctx.part) t.ctx.fn | none => s
    let s2 := match o with | some k => s1.logLanes g pc [(c, ad, k, mask)] | none => s1
    s2.trap gid
      { cause := c, addr := if c = .machineCheck then ad else BitVec.ofNat 64 e.at_, lanes := mask, pc := pc, convoy := mask }

/-! ### A lane's instruction -/

/-- The breakpoint of a group at an address: never in trap mode, nor in a protected context without a token (R401, R457). -/
def State.breakAt (s : State) (g : Group) (pc : BitVec 57) : Option Nat :=
  let c := (s.teamOf g).ctx
  if g.trapMode ∨ (c.prot ∧ !s.sec.tokens.any (fun k => (k.2.part == c.part || k.2.part == 255) && k.2.perm.getLsbD 0)) then none
  else g.breakpoints.findIdx? (fun b => b == some pc.toNat)

/-- A convoy's instruction fetched and decoded. -/
def State.comingLane (s : State) (gid : Nat) (g : Group) (mask : List Nat) : Coming :=
  let pc := (g.lane ((mask.head?).getD 0)).pc
  match s.fetchAt g pc.toNat with
  | .error e => .done (if g.holdsTrap then s.stick gid else s.fetchFails gid g mask pc e)
  | .ok (s1, w) =>
    let s2 := { s1 with fetched := BitVec.ofNat 64 w, cur := .convoy gid mask }
    let trap (c : Cause) (a : DWord) : Coming :=
      .done (s1.refuseTrap gid { cause := c, addr := a, lanes := mask, pc := pc, convoy := mask })
    match s.breakAt g pc with
    | some n => trap .debugBreak (BitVec.ofNat 64 n)
    | none =>
      match decodeLane w with
      | none => trap .illegalInstruction (BitVec.ofNat 64 w)
      | some i => .instr i s2

/-- Whether a group comes to issue decisions: its team runs, and no STALL holds it (R294). -/
def State.decides (s : State) (g : Group) : Bool := s.teamRuns g.team && decide (g.idle ≤ s.ownClock (s.teamOf g).core)

/-- An issue decision of a slice: answers that waited take effect, lanes wake, and the slice's convoy issues. -/
def State.comingIssue (s0 : State) (gid j : Nat) : Coming :=
  let s := s0.takeAnswers gid
  match look s.groups gid with
  | none => .done s
  | some g =>
    if s.decides g = false then .done s
    else
      let g0 := s.wakeLanes gid g
      match g0.convoyOf j with
      | [] => .done (s.setGroup gid g0)
      | i :: r =>
        let g1 := g0.takeUp (i :: r)
        (s.setGroup gid g1).comingLane gid g1 (i :: r)

/-- Whether an instruction makes accesses that an epoch can hold (R122): where one of them is unperformed, the group takes its checkpoint
before it. -/
def isCached (i : Instr) : Bool :=
  match i with
  | .ld _ _ _ _ _ _ | .ldS _ _ _ _ _ _ | .st _ _ _ _ _ _ | .lds _ _ _ _ _ | .ldsS _ _ _ _ _ | .sts _ _ _ _ _ | .ldmx _ _ _ _ _ _
  | .stmx _ _ _ _ _ _ | .cstore _ _ _ _ _ | .atom _ _ _ _ _ _ _ | .spill _ _ _ _ | .fill _ _ _ _ => true
  | _ => false

/-- An issue decision of a slice at which its group takes a checkpoint, where the coming instruction makes accesses that an epoch can
hold; from 16 counted events on only while the group holds its cluster's priority token, which it requests (R111, R136, R137). -/
def State.comingOpen (s0 : State) (gid j : Nat) : Coming :=
  let s := s0.takeAnswers gid
  match look s.groups gid with
  | none => .done s
  | some g =>
    if s.decides g = false ∨ g.mayCheckpoint = false then .done s
    else
      let g0 := s.wakeLanes gid g
      match g0.convoyOf j with
      | [] => .done s
      | i :: r =>
        let g1 := g0.takeUp (i :: r)
        match (s.setGroup gid (g1.checkpoint (i :: r))).comingLane gid (g1.checkpoint (i :: r)) (i :: r) with
        | .instr n t =>
          if isCached n = false then .done s
          else if g1.lacksToken then .done (s.requestToken gid g1)
          else .open_ gid n t
        | _ => .done s

/-! ### The engines -/

/-- The next word of a core's matrix program. -/
def State.comingMatrix (s0 : State) (core : Nat) : Coming :=
  if (s0.core core).matrixHalted then .done s0
  else
    let s := s0.startMatrix core
    match (s.core core).matrix with
    | none => .done s
    | some r =>
      let tid := r.entry.team
      let t := lookD s.teams tid {}
      if r.pending.isSome ∨ s.teamRuns tid = false then .done s
      else if r.refill then .done (s.refill core r)
      else
        match s.scratchRead (t.requester tid) ((r.entry.addr + 8 * r.index) % 2 ^ 32) 8 with
        | .error f => .done (s.faultProgram tid 0 (f.hitch false) r.entry.cap)
        | .ok loc =>
          match decodeMatrix (ofBytes (s.mem.getsUnder 0 loc 8)) with
          | none => .done (s.faultProgram tid 0 (.fault eBadField none) r.entry.cap)
          | some i => .instr i { s with cur := .matrix core }

/-- The next micro-op of the run a core's chain engine works on. -/
def State.comingChain (s0 : State) (core : Nat) : Coming :=
  if (s0.core core).chainHalted then .done s0
  else
    let s := s0.chainSequencer core
    match s.chainHead core with
    | none => .done s
    | some (id, o) =>
      if o.run.begun = false then .done (s.beginRun id o)
      else
        match decodeChain o.run.word.toNat with
        | none => .done { s with ops := put s.ops id (o.withRun (o.run.finish (some (eBadField, none)))) }
        | some i => .instr i { s with cur := .chain core id }

/-- The next step of a collective program. -/
def State.comingStep (s : State) (p : Nat) : Coming :=
  match look s.colls p with
  | none => .done s
  | some c =>
    match look s.ops c.fetchOp with
    | none => .done s
    | some o =>
      if c.canStart = false ∨ o.state ≠ .live ∨ o.out.isSome ∨ s.opRuns o = false then .done s
      else
        let r := s.readInto (s.opRequester o) o {} (some c.cap) (c.offset + 32 * c.next) 32
        match peerRead r.1.needs, r.1.hitch with
        | some q, _ => .done (s.opSend c.fetchOp o r.1 q)
        | none, some (.fault code log) => .done (s.collFault p code log)
        | none, some (.page f gva w) => .done (s.parkOp c.fetchOp o f gva w)
        | none, none =>
          let s1 := s.installAll (r.1.founds.map (fun f => f.2.2))
          let s2 := { s1 with ops := put s1.ops c.fetchOp { o with got := [], broken := none } }
          match decodeStep (ofBytes r.2) with
          | none => .done (s2.collFault p eBadField none)
          | some i => .instr i { s2 with cur := .coll p }

/-! ### The CP -/

/-- The next packet of a mapped queue; in the stop of a migration only of a queue whose command has begun (R433). -/
def State.comingPacket (s : State) (p q : Nat) : Coming :=
  if (s.part p).migHeld && !(s.part p).waiting.any (fun w => w.queue == q) then .done s
  else
    match s.fetchPacket p q with
    | .nothing => .done s
    | .stopped t => .done t
    | .packet t f => .act f t

/-- Whether an instruction is a queue command: those come from their packets only. -/
def isCommand (i : Instr) : Bool :=
  match i with
  | .nopCommand _ | .launch _ _ _ | .launchi _ _ _ _ | .waitmem _ _ _ _ | .write _ _ _ | .branch _ _ _ _ | .loop _ _ _
  | .qprio _ _ _ | .process _ _ _ | .kill _ _ _ | .invS1Va _ _ _ _ _ _ | .invS1Asid _ _ _ | .invS2Gpa _ _ _ _ | .invFn _ _
  | .invPart _ | .biasflip _ _ _ _ _ | .migrate64k _ _ _ _ _ _ | .cancel _ _ => true
  | _ => false

/-! ### Turns -/

/-- What a turn brings. -/
def State.coming (s : State) (t : Turn) : Coming :=
  match t with
  | .issue gid j => s.comingIssue gid j
  | .speculate gid j => s.comingOpen gid j
  | .settle gid f => .done (s.onGroup gid (fun g => g.settleBy (fun n => n == f)))
  | .matrix core => s.comingMatrix core
  | .chain core => s.comingChain core
  | .coll p => s.comingStep p
  | .cp p q => s.comingPacket p q
  | .release gid =>
    .done (match look s.groups gid with | some g => if s.teamRuns g.team then s.releaseGroup gid else s | none => s)
  | .report => .done s.report
  | .precopy p => .done (s.precopy p)
  | .sec => (match s.secTurn with | .nothing => .done s | .done t => .done t | .run f => .act f s)
  | .walk team gva =>
    .done (match look s.teams team with | some t => s.walkOn (t.core / 256) t.ctx gva | none => s)
  | .tick n => .done (s.tick n)
  | .strike x => .done (s.struck x)
  | .event i => if isCommand i then .done s else .instr i s

end Sys2Proof.Machine
end

