-- ==== Sys2Proof/Machine/Sched.lean ====
section
/-! DEFINITION. What moves when no turn is given: every party that may have something to do, taken in rotation. The single order
of R106 does not say which issuer performs next; this is one order among those it allows. -/

namespace Sys2Proof.Machine

/-- A meaning as what comes next. -/
def always (f : State → Out) (s : State) : Coming := .act f s

/-- A turn as what comes next. -/
def turn (t : Turn) (s : State) : Coming := s.coming t

/-- What a group may do. -/
def groupChoices (e : Nat × Group) : List (State → Coming) :=
  (if e.2.epoch.isSome then [always (execEpochCommit e.1)] else []) ++
    (if e.2.release.isEmpty then [] else [turn (.release e.1)]) ++
    (List.range e.2.arch.slices.length).map (fun j => turn (.issue e.1 j)) ++
    ((e.2.inflight ++ (e.2.arch.hazards.filter (fun h => h.varLat && !h.drained)).map (·.flag)).foldl insertNat []).map
      (fun f => turn (.settle e.1 f))

/-- What a core's engines may do. -/
def coreChoices (e : Nat × Core) : List (State → Coming) :=
  (if e.2.matrix.isSome || !e.2.matrixQ.isEmpty then [turn (.matrix e.1)] else []) ++
    (if e.2.chain.isSome || !e.2.chainQ.isEmpty then [turn (.chain e.1)] else []) ++
    (if e.2.copy.isSome || !e.2.copyQ.isEmpty then [always (execDescriptorRelease e.1)] else [])

/-- What an engine operation may do: a chain run goes on, or the event comes. -/
def opChoices (e : Nat × EngineOp) : List (State → Coming) :=
  match e.2.kind with
  | .chain r => if r.ended then [always (execEngineOperationCompletion e.1)] else [turn (.chain e.2.core)]
  | _ => [always (execEngineOperationCompletion e.1)]

/-- What a partition's CP may do. -/
def partChoices (e : Nat × Part) : List (State → Coming) :=
  e.2.mapped.map (fun q => turn (.cp e.1 q.1)) ++
    e.2.mapped.map (fun q => always (execQueueUnmap e.1 q.1)) ++
    e.2.pendingBits.map (fun q => always (execQueueMap e.1 q)) ++
    e.2.invals.map (fun v => always (execInvalidationCompletion e.1 v.id)) ++
    [always (execAdmission e.1), always (execStaging e.1), always (execSliceEnd e.1), always (execExchange e.1)] ++
    (if !e.2.writingBack.isEmpty then [always (execContextWriteBack e.1)] else []) ++
    (if e.2.migPhase == 1 || e.2.migPhase == 2 then [turn (.precopy e.1)] else []) ++
    (if e.2.migPhase == 2 then [always (execSwitch e.1)] else []) ++ (if e.2.migPhase == 3 then [always (execForwardingEnd e.1)] else []) ++
    (if e.2.inEnd.isSome then [always (execInstall e.1)] else []) ++ (if e.2.inPhase == 2 then [always (execResume e.1)] else [])

/-- What a channel may do. -/
def channelChoices (e : Nat × Channel) : List (State → Coming) :=
  if e.2.requests.isEmpty then []
  else [always (execPowerStateExit e.1), always (execRetryReissue e.1), always (execData e.1), always (execAck e.1), always (execError e.1)]

/-- The first message on its way that nothing makes wait arrives. -/
def messageChoice (s : State) : Coming :=
  .done (match s.msgs.find? (fun m => !(m.isCall && s.heldBack m) && !s.mscWaits m) with | some m => s.deliver m | none => s)

/-- What the fabric interface may do with an outbound packet (R416). -/
def outChoices (e : Nat × Outbound) : List (State → Coming) :=
  match e.2.state with
  | .retry _ => [always (execResend e.1)]
  | .within => [always (execResend e.1)]
  | .moved _ _ => [always (execMovedReread e.1)]
  | _ => []

/-- Everything that may happen next; the clock advances as the last of them. -/
def State.choices (s : State) : List (State → Coming) :=
  (if s.cpWrites.isEmpty then [] else [turn .report]) ++ (if s.msgs.isEmpty then [] else [messageChoice]) ++
    s.groups.flatMap groupChoices ++ s.drains.map (fun e => always (execMemorySideAccess e.1)) ++
    s.reduces.flatMap (fun e => always (execPartialSum e.1) :: (List.range 12).map (fun k => always (execNmuCommand e.1 k))) ++
    s.ops.flatMap opChoices ++ s.cores.flatMap coreChoices ++ s.colls.map (fun e => turn (.coll e.1)) ++
    s.outbound.flatMap outChoices ++ s.heldLines.map (fun f => always (execPeerWr f)) ++ s.parts.flatMap partChoices ++ s.channels.flatMap channelChoices ++ [turn .sec, turn (.tick 1)]

/-- What comes next while no turn is given: the choice at the rotation's place, which moves on. -/
def State.byRotation (s : State) : Coming :=
  let cs := s.choices
  match cs[s.rota % cs.length]? with
  | some f => f { s with rota := s.rota + 1 }
  | none => .done { s with rota := s.rota + 1 }

/-- What the next step brings: the first turn given, or the rotation's. -/
def State.upcoming (s : State) : Coming :=
  match s.agenda with
  | t :: r => ({ s with agenda := r } : State).coming t
  | [] => s.byRotation

/-- The machine after an instruction, on nobody's behalf. -/
def settled (o : Out) : Out :=
  match o with
  | .next s => .next { s with cur := .none }
  | .fault f => .fault f
  | .refused r => .refused r

/-- What comes is carried out. -/
def Coming.carry (c : Coming) : Out :=
  match c with
  | .done s => .next s
  | .act f s => f s
  | .instr i s => settled (exec i s)
  | .open_ gid i s => (match settled (exec i s) with | .next t => .next (t.onGroup gid Group.unopened) | o => o)

end Sys2Proof.Machine
end

