-- ==== Sys2Proof/Machine/Place.lean ====
section
/-! DEFINITION. One instruction put where the next step fetches it. A program runs on this machine only after the host has formed
a partition and the CP has accepted a launch and admitted a team (R374, R380), or after a sequencer has been given a program; the
functions here stand for that. -/

namespace Sys2Proof.Machine

/-- The DPA at which the instruction stands. -/
def placeAt : Nat := 0x100000

/-- A root capability over the whole address space with every permission but SEAL and PEER. -/
def placeRoot : Cap := Cap.make 0 31 0 (permR + permW + permX + permATOM + permMS + permENG + permDERIVE) 0 0 0 0

/-- A launch of one team of one group of 16 lanes, function 0, both stages of translation off. -/
def placeLaunch : Launch :=
  { width := 16, scratch := 1024, codebase := placeAt, codelen := 64, roles := [{ entry := 0, regs := 28, lanes := 16 }]
    root := placeRoot, code := codeCap placeRoot placeAt 64 }

/-- A machine in which partition 0 holds cluster 0 and runs function 0, whose one team has just been admitted to core 0. -/
def State.withTeam (s : State) : State :=
  let s1 := { s with
    nextId := s.nextId + 1, launches := put s.launches s.nextId placeLaunch, tlb := [], cur := .none
    parts := put s.parts 0 { s.part 0 with clusters := (s.part 0).clusters ||| 1, running := some 0, switch := .running, migHeld := false }
    cores := put s.cores 0 { s.core 0 with matrixHalted := false, chainHalted := false, chain := none, chainQ := [], matrix := none } }
  s1.addTeam s.nextId 0 0 0 0 0 0

/-- The team so admitted. -/
def State.placedTeam (s : State) : Nat := s.nextId + 1

/-- The group of that team. -/
def State.placedGroup (s : State) : Nat := s.nextId + 2

/-- The context of that team. -/
def placeCtx : Ctx := {}

/-- n bytes of a word stored in DRAM or scratch. -/
def State.placeBytes (s : State) (loc n w : Nat) : State :=
  { s with mem := ({ s.mem with
      bad := s.mem.bad.filter (fun g => !decide (loc < 16 * g + 16 ∧ 16 * g < loc + n))
      badWords := s.mem.badWords.filter (fun w => !decide (loc < wordLoc w + 4 ∧ wordLoc w < loc + n)) } : Memory).write 0
                    (cellsAt loc (toBytes n w)) }

/-- A lane instruction at the pc of the group. -/
def State.placeLane (s : State) (w : Nat) : State :=
  { s.withTeam.placeBytes placeAt 4 w with agenda := [.issue s.placedGroup 0] }

/-- A micro-op as the only one of a run that has begun. -/
def State.placeChain (s : State) (w : Nat) : State :=
  let t := s.withTeam
  let r : ChainRun :=
    { begun := true, desc := [1, 1], image := { head := 1, consts := [0, 0, 0, 0], uops := [BitVec.ofNat 32 w] }, temps := Image.start {}
      pass := 2 }
  { t with
    ops := [(t.nextId, { core := 0, team := s.placedTeam, gid := s.placedGroup, flag := 15, kind := .chain r, ctx := placeCtx
                         capA := placeRoot, capB := placeRoot })]
    nextId := t.nextId + 1, agenda := [.chain 0] }

/-- A matrix command as the first word of a program. -/
def State.placeMatrix (s : State) (w : Nat) : State :=
  let t := s.withTeam
  let run : MatrixRun := { entry := { team := s.placedTeam, addr := 0, cap := placeRoot, seed := 0 } }
  let u := (t.onCore 0 (fun c => { c with matrix := some run })).onTeam s.placedTeam (fun m => m.onSeq 0 (fun p => { p with state := 2 }))
  { u.placeBytes (scratchLoc 0 0) 8 w with agenda := [.matrix 0] }

/-- A step as the first of a collective program. -/
def State.placeStep (s : State) (w : Nat) : State :=
  let t := s.withTeam
  let c : CollProg :=
    { sequencer := 0, team := s.placedTeam, gid := s.placedGroup, flag := 15, ctx := placeCtx
      cap := Cap.make 0 31 0 (permR + permW + permENG + permPEER) 4 0 0 0, offset := placeAt, handle := 0, fetchOp := t.nextId
      status := { state := 2, forker := s.placedGroup } }
  { t.placeBytes placeAt 32 w with
    ops := [(t.nextId, c.fetcher 0)], colls := put t.colls 0 c, nextId := t.nextId + 1, agenda := [.coll 0] }

/-- The instruction in bits w of the opcode table's numbering put where the next step fetches it. -/
def State.placeWord (s : State) (nbits w : Nat) : State :=
  match nbits with
  | 16 => s.placeLane (w % 2 ^ 16)
  | 32 => if (if isLong w then (decode32 (w % 2 ^ 32)).isSome else false) then s.placeLane (w % 2 ^ 32) else s.placeChain (w % 2 ^ 32)
  | 64 => s.placeMatrix (w % 2 ^ 64)
  | 256 => s.placeStep (w % 2 ^ 256)
  | _ => s

end Sys2Proof.Machine
end

