-- ==== Sys2Proof/Machine/Step.lean ====
section
/-! DEFINITION. One step: the next turn is taken, or, while none is given, the next party in rotation moves. -/

namespace Sys2Proof.Machine

/-- One step of the machine: one place in the single order (R106). -/
def step (s : State) : Host.Outcome State Fault Refusal := s.upcoming.carry

/-- The machine with one instruction placed where the next step fetches it. -/
def State.withFetchWord (s : State) (nbits w : Nat) : State := s.placeWord nbits w

end Sys2Proof.Machine
end

