-- ==== Sys2Proof/Safety.lean ====
section
/-! DEFINITION. What every state that the machine reaches keeps, in the terms the statements use. -/

namespace Sys2Proof.Machine

/-- The memory stands in its canonical form: locations rise strictly and no listed byte is 0, which an unlisted one reads as. -/
def State.memOk (s : State) : Bool := s.mem.wf

end Sys2Proof.Machine
end

