-- ==== Sys2Proof/Certificates/Slice0/Obligations.lean ====
section
/-! DEFINITION. The statements put to the provers, with the words they are made of. -/

open Sys2Proof Sys2Proof.Machine

namespace Sys2Proof.Claims

/-! ### Lane instructions -/

/-- A convoy of a group is about to execute an instruction outside melded regions, outside outrider mode, with no drained access of its
group in flight and no register of it uncorrectable. -/
structure Plain (s : State) (gid : Nat) (mask : List Nat) (g : Group) : Prop where
  cur : s.cur = .convoy gid mask
  here : look s.groups gid = some g
  some : mask ≠ []
  order : mask.Pairwise (· < ·)
  lanes : ∀ i ∈ mask, i < g.arch.lanes.length
  outside : ∀ i ∈ mask, (g.lane i).meld = none
  epoch : g.epoch = none
  drained : g.drained = none
  release : g.release = []
  struck : g.arch.struck = []

/-- Every earlier result is whole when an instruction of this length and STALL issues (R225), and the flag it names can
rise (R8). -/
structure Whole (g : Group) (short : Bool) (stall flag : Nat) : Prop where
  hazards : ∀ h ∈ g.arch.hazards, h.live short (g.arch.distance + (if short then 1 else max stall 1)) = false
  flag : flag < 12 → g.flag flag ≠ 63

/-- The named v-registers of these lanes are in the register file (R146). -/
def Resident (g : Group) (mask regs : List Nat) : Prop :=
  ∀ i ∈ mask, ∀ r ∈ regs, 8 ≤ r → (g.lane i).resbase ≤ (g.lane i).wbase + (r - 8)

/-- The address of the convoy's instruction. -/
def pcOf (g : Group) (mask : List Nat) : BitVec 57 := (g.lane ((mask.head?).getD 0)).pc

/-- The convoy's lanes after an instruction are what `f` makes of them, no longer bound together by a trap's entry or return; every other
lane is as it was; only the numbers of paths (R153) are left to the sequencers. -/
structure LanesAfter (g g' : Group) (mask : List Nat) (f : Nat → Lane → Lane) : Prop where
  length : g'.arch.lanes.length = g.arch.lanes.length
  lane : ∀ i < g.arch.lanes.length, 
    ∃ p, g'.lane i = { (if i ∈ mask then { f i (g.lane i) with resumed := none } else g.lane i) with path := p }

/-- The rest of a group after an instruction that raises these FP conditions, writes these s-registers and names this flag: all
else is as it was but for the sequencers, the record of unfinished results, the counts of R120 and R136, and the convoy's wait for a release
(R130). -/
def RestAfter (g g' : Group) (mask : List Nat) (flag : Nat) (settled : Bool) (conds : Nat) (sregs : List (Nat × Word)) : Prop :=
  g' = { g with
    arch := { g.arch with
      lanes := g'.arch.lanes, slices := g'.arch.slices, nextPath := g'.arch.nextPath
      hazards := g'.arch.hazards, distance := g'.arch.distance
      fpcsr := fpRaise g.arch.fpcsr conds
      sregs := sregs.foldl (fun t w => put t w.1 w.2) g.arch.sregs
      bound := sregs.foldl (fun (t : List (Nat × Nat)) w => t.filter (fun b => b.1 != w.1 / 2 * 2)) g.arch.bound }
    flags := if flag < 12 then put g.flags flag (g.flag flag + 1) else g.flags
    inflight := if flag < 12 ∧ settled then g.inflight ++ [flag] else g.inflight
    outctl := g.outctl.step mask
    cmdWait := g.cmdWait.filter (fun e => !e.1.any mask.contains)
    issuedCount := g.issuedCount + 1 }

/-- Instruction i completes in s: only its group differs afterwards (and the counter of free values), and there its lanes, s-registers, flag
and FP conditions are as said. -/
def Completes (i : Instr) (s : State) (gid : Nat) (mask : List Nat) (g : Group) (flag conds : Nat) (sregs : List (Nat × Word))
    (f : Nat → Lane → Lane) : Prop :=
  ∃ t g', exec i s = .next t ∧ t = { s with groups := put s.groups gid g', free := t.free } ∧
    LanesAfter g g' mask f ∧ RestAfter g g' mask flag true conds sregs

/-- A lane as an instruction leaves it that writes register d and goes on to the next instruction. -/
def wrote (g : Group) (mask : List Nat) (size d : Nat) (v : Lane → Word) (l : Lane) : Lane :=
  { l.setReg d (v l) with pc := pcOf g mask + BitVec.ofNat 57 size }

/-- A lane as an instruction leaves it that writes the pair d, d + 1. -/
def wrotePair (g : Group) (mask : List Nat) (d : Nat) (v : Lane → DWord) (l : Lane) : Lane :=
  { (l.setReg d ((v l).truncate 32)).setReg (d + 1) ((v l >>> 32).truncate 32) with pc := pcOf g mask + 4 }

/-- A lane as an instruction leaves it that writes predicate n. -/
def judged (g : Group) (mask : List Nat) (n : Nat) (v : Lane → Bool) (l : Lane) : Lane :=
  { l.setPred n (v l) with pc := pcOf g mask + 4 }

/-- The pair of a lane from register r (R182). -/
def pairOf (l : Lane) (r : Nat) : DWord := l.reg (r + 1) ++ l.reg r

/-- The pair of s-registers from r. -/
def spairOf (g : Group) (r : Nat) : DWord := g.sreg (r + 1) ++ g.sreg r

/-- d := op of v(a), v(b) and the old v(d), with a flag. -/
def ThreeV (mk : Fin 32 → Fin 32 → Fin 32 → Fin 16 → Fin 8 → Instr) (op : Word → Word → Word → Word) : Prop :=
  ∀ (d a b : Fin 32) (f : Fin 16) (w : Fin 8) (s : State) (gid : Nat) (mask : List Nat) (g : Group),
    Plain s gid mask g → Whole g false w f → Resident g mask [d, a, b] →
      Completes (mk d a b f w) s gid mask g f 0 [] (fun _ => wrote g mask 4 d (fun l => op (l.reg a) (l.reg b) (l.reg d)))

/-- d := op of v(a), s(b) and the old v(d). -/
def ThreeU (mk : Fin 32 → Fin 32 → Fin 256 → Fin 8 → Instr) (op : Word → Word → Word → Word) : Prop :=
  ∀ (d a : Fin 32) (b : Fin 256) (w : Fin 8) (s : State) (gid : Nat) (mask : List Nat) (g : Group),
    Plain s gid mask g → Whole g false w 15 → Resident g mask [d, a] →
      Completes (mk d a b w) s gid mask g 15 0 [] (fun _ => wrote g mask 4 d (fun l => op (l.reg a) (g.sreg b) (l.reg d)))

/-- d := op of the old v(d) and an immediate. -/
def TwoI (mk : Fin 32 → BitVec 16 → Fin 8 → Instr) (op : Word → BitVec 16 → Word) : Prop :=
  ∀ (d : Fin 32) (n : BitVec 16) (w : Fin 8) (s : State) (gid : Nat) (mask : List Nat) (g : Group),
    Plain s gid mask g → Whole g false w 15 → Resident g mask [d] →
      Completes (mk d n w) s gid mask g 15 0 [] (fun _ => wrote g mask 4 d (fun l => op (l.reg d) n))

/-- d := op of the old v(d) and an immediate count of five bits. -/
def ShiftI (mk : Fin 32 → Fin 32 → Fin 8 → Instr) (op : Word → Nat → Word) : Prop :=
  ∀ (d n : Fin 32) (w : Fin 8) (s : State) (gid : Nat) (mask : List Nat) (g : Group),
    Plain s gid mask g → Whole g false w 15 → Resident g mask [d] →
      Completes (mk d n w) s gid mask g 15 0 [] (fun _ => wrote g mask 4 d (fun l => op (l.reg d) n))

/-- d := op of the old v(d) and v(r), in sixteen bits (R212). -/
def TwoA16 (mk : Fin 32 → Fin 32 → Instr) (op : Word → Word → Word) : Prop :=
  ∀ (d r : Fin 32) (s : State) (gid : Nat) (mask : List Nat) (g : Group),
    Plain s gid mask g → Whole g true 0 15 → Resident g mask [d, r] →
      Completes (mk d r) s gid mask g 15 0 [] (fun _ => wrote g mask 2 d (fun l => op (l.reg d) (l.reg r)))

/-- d := op of v(a), with a flag. -/
def OneV (mk : Fin 32 → Fin 32 → Fin 16 → Fin 8 → Instr) (op : Word → Word) : Prop :=
  ∀ (d a : Fin 32) (f : Fin 16) (w : Fin 8) (s : State) (gid : Nat) (mask : List Nat) (g : Group),
    Plain s gid mask g → Whole g false w f → Resident g mask [d, a] →
      Completes (mk d a f w) s gid mask g f 0 [] (fun _ => wrote g mask 4 d (fun l => op (l.reg a)))

/-- d := op of s(b). -/
def OneU (mk : Fin 32 → Fin 256 → Fin 8 → Instr) (op : Word → Word) : Prop :=
  ∀ (d : Fin 32) (b : Fin 256) (w : Fin 8) (s : State) (gid : Nat) (mask : List Nat) (g : Group),
    Plain s gid mask g → Whole g false w 15 → Resident g mask [d] →
      Completes (mk d b w) s gid mask g 15 0 [] (fun _ => wrote g mask 4 d (fun _ => op (g.sreg b)))

/-- The pair d := op of the pairs a, b and the old d, with a flag; pairs stand at even numbers (R182). -/
def WideV (mk : Fin 32 → Fin 32 → Fin 32 → Fin 16 → Fin 8 → Instr) (op : DWord → DWord → DWord → DWord) : Prop :=
  ∀ (d a b : Fin 32) (f : Fin 16) (w : Fin 8) (s : State) (gid : Nat) (mask : List Nat) (g : Group),
    (mk d a b f w).wf = true → Plain s gid mask g → Whole g false w f → Resident g mask [d, d + 1, a, a + 1, b, b + 1] →
      Completes (mk d a b f w) s gid mask g f 0 []
        (fun _ => wrotePair g mask d (fun l => op (pairOf l a) (pairOf l b) (pairOf l d)))

/-- The pair d := op of the pair a, the pair of s-registers b and the old d. -/
def WideU (mk : Fin 32 → Fin 32 → Fin 256 → Fin 8 → Instr) (op : DWord → DWord → DWord → DWord) : Prop :=
  ∀ (d a : Fin 32) (b : Fin 256) (w : Fin 8) (s : State) (gid : Nat) (mask : List Nat) (g : Group),
    (mk d a b w).wf = true → Plain s gid mask g → Whole g false w 15 → Resident g mask [d, d + 1, a, a + 1] →
      Completes (mk d a b w) s gid mask g 15 0 []
        (fun _ => wrotePair g mask d (fun l => op (pairOf l a) (spairOf g b) (pairOf l d)))

/-- d := op of FPCSR, v(a), v(b) and the old v(d), with a flag; the conditions of every lane become sticky, none of them
being enabled (R201, R203). -/
def FpV (mk : Fin 32 → Fin 32 → Fin 32 → Fin 16 → Fin 8 → Instr) (op : BitVec 16 → Word → Word → Word → Word × Nat) : Prop :=
  ∀ (d a b : Fin 32) (f : Fin 16) (w : Fin 8) (s : State) (gid : Nat) (mask : List Nat) (g : Group),
    let r := fun (l : Lane) => op g.arch.fpcsr (l.reg a) (l.reg b) (l.reg d)
    Plain s gid mask g → Whole g false w f → Resident g mask [d, a, b] →
      (∀ i ∈ mask, (r (g.lane i)).2 &&& fpEnabled g.arch.fpcsr = 0) →
      Completes (mk d a b f w) s gid mask g f (mask.foldl (fun c i => c ||| (r (g.lane i)).2) 0) []
        (fun _ => wrote g mask 4 d (fun l => (r l).1))

/-- d := op of FPCSR, v(a), s(b) and the old v(d). -/
def FpU (mk : Fin 32 → Fin 32 → Fin 256 → Fin 8 → Instr) (op : BitVec 16 → Word → Word → Word → Word × Nat) : Prop :=
  ∀ (d a : Fin 32) (b : Fin 256) (w : Fin 8) (s : State) (gid : Nat) (mask : List Nat) (g : Group),
    let r := fun (l : Lane) => op g.arch.fpcsr (l.reg a) (g.sreg b) (l.reg d)
    Plain s gid mask g → Whole g false w 15 → Resident g mask [d, a] →
      (∀ i ∈ mask, (r (g.lane i)).2 &&& fpEnabled g.arch.fpcsr = 0) →
      Completes (mk d a b w) s gid mask g 15 (mask.foldl (fun c i => c ||| (r (g.lane i)).2) 0) []
        (fun _ => wrote g mask 4 d (fun l => (r l).1))

/-- d := op of FPCSR, the old v(d) and an immediate. -/
def FpI (mk : Fin 32 → BitVec 16 → Fin 8 → Instr) (op : BitVec 16 → Word → BitVec 16 → Word × Nat) : Prop :=
  ∀ (d : Fin 32) (n : BitVec 16) (w : Fin 8) (s : State) (gid : Nat) (mask : List Nat) (g : Group),
    let r := fun (l : Lane) => op g.arch.fpcsr (l.reg d) n
    Plain s gid mask g → Whole g false w 15 → Resident g mask [d] →
      (∀ i ∈ mask, (r (g.lane i)).2 &&& fpEnabled g.arch.fpcsr = 0) →
      Completes (mk d n w) s gid mask g 15 (mask.foldl (fun c i => c ||| (r (g.lane i)).2) 0) []
        (fun _ => wrote g mask 4 d (fun l => (r l).1))

/-- d := op of FPCSR, the old v(d), v(r) and v0, in sixteen bits (R212). -/
def FpA16 (mk : Fin 32 → Fin 32 → Instr) (op : BitVec 16 → Word → Word → Word → Word × Nat) : Prop :=
  ∀ (d r : Fin 32) (s : State) (gid : Nat) (mask : List Nat) (g : Group),
    let y := fun (l : Lane) => op g.arch.fpcsr (l.reg d) (l.reg r) (l.reg 0)
    Plain s gid mask g → Whole g true 0 15 → Resident g mask [d, r] →
      (∀ i ∈ mask, (y (g.lane i)).2 &&& fpEnabled g.arch.fpcsr = 0) →
      Completes (mk d r) s gid mask g 15 (mask.foldl (fun c i => c ||| (y (g.lane i)).2) 0) []
        (fun _ => wrote g mask 2 d (fun l => (y l).1))

/-- d := op of FPCSR and v(a), with a flag. -/
def FpOne (mk : Fin 32 → Fin 32 → Fin 16 → Fin 8 → Instr) (op : BitVec 16 → Word → Word × Nat) : Prop :=
  ∀ (d a : Fin 32) (f : Fin 16) (w : Fin 8) (s : State) (gid : Nat) (mask : List Nat) (g : Group),
    let r := fun (l : Lane) => op g.arch.fpcsr (l.reg a)
    Plain s gid mask g → Whole g false w f → Resident g mask [d, a] →
      (∀ i ∈ mask, (r (g.lane i)).2 &&& fpEnabled g.arch.fpcsr = 0) →
      Completes (mk d a f w) s gid mask g f (mask.foldl (fun c i => c ||| (r (g.lane i)).2) 0) []
        (fun _ => wrote g mask 4 d (fun l => (r l).1))

end Sys2Proof.Claims

open Sys2Proof.Claims

/-- The integer instructions of R240 give their results in every form the opcode table lists: three registers, an s-register
operand, an immediate, sixteen bits. All other lane registers, predicates, s-registers, flags but the one named, special registers,
lanes outside the convoy and the rest of the machine are unchanged. -/
def Sys2Proof.Claims.integer_arithmetic_results : Prop :=
  (ThreeV .add (fun x y _ => x + y) ∧ ThreeU .addU (fun x y _ => x + y) ∧ TwoA16 .addA16 (fun x y => x + y) ∧
    TwoI .addI (fun x n => x + n.signExtend 32)) ∧
  (ThreeV .sub (fun x y _ => x - y) ∧ ThreeU .subU (fun x y _ => x - y) ∧ TwoA16 .subA16 (fun x y => x - y)) ∧
  (ThreeV .mul (fun x y _ => x * y) ∧ ThreeU .mulU (fun x y _ => x * y) ∧ TwoA16 .mulA16 (fun x y => x * y) ∧
    TwoI .mulI (fun x n => x * n.signExtend 32)) ∧
  (ThreeV .mulhi (fun x y _ => ((x.signExtend 64 * y.signExtend 64) >>> 32).truncate 32) ∧
    ThreeU .mulhiU (fun x y _ => ((x.signExtend 64 * y.signExtend 64) >>> 32).truncate 32)) ∧
  (ThreeV .mulhiUns (fun x y _ => ((x.zeroExtend 64 * y.zeroExtend 64) >>> 32).truncate 32) ∧
    ThreeU .mulhiUnsU (fun x y _ => ((x.zeroExtend 64 * y.zeroExtend 64) >>> 32).truncate 32)) ∧
  (ThreeV .mad (fun x y z => x * y + z) ∧ ThreeU .madU (fun x y z => x * y + z))

/-- The logical, shift and comparison-select instructions of R240 in every form; a shift uses the low five bits of its
count. -/
def Sys2Proof.Claims.integer_logic_results : Prop :=
  (ThreeV .and (fun x y _ => x &&& y) ∧ ThreeU .andU (fun x y _ => x &&& y) ∧ TwoA16 .andA16 (fun x y => x &&& y) ∧
    TwoI .andI (fun x n => x &&& n.signExtend 32)) ∧
  (ThreeV .or (fun x y _ => x ||| y) ∧ ThreeU .orU (fun x y _ => x ||| y) ∧ TwoA16 .orA16 (fun x y => x ||| y) ∧
    TwoI .orI (fun x n => x ||| n.signExtend 32)) ∧
  (ThreeV .xor (fun x y _ => x ^^^ y) ∧ ThreeU .xorU (fun x y _ => x ^^^ y) ∧ TwoA16 .xorA16 (fun x y => x ^^^ y) ∧
    TwoI .xorI (fun x n => x ^^^ n.signExtend 32)) ∧
  (ThreeV .shl (fun x y _ => x <<< (y.toNat % 32)) ∧ ThreeU .shlU (fun x y _ => x <<< (y.toNat % 32)) ∧
    TwoA16 .shlA16 (fun x y => x <<< (y.toNat % 32)) ∧ ShiftI .shlI (fun x n => x <<< n)) ∧
  (ThreeV .shr (fun x y _ => x >>> (y.toNat % 32)) ∧ ThreeU .shrU (fun x y _ => x >>> (y.toNat % 32)) ∧
    TwoA16 .shrA16 (fun x y => x >>> (y.toNat % 32)) ∧ ShiftI .shrI (fun x n => x >>> n)) ∧
  (ThreeV .sar (fun x y _ => x.sshiftRight (y.toNat % 32)) ∧ ThreeU .sarU (fun x y _ => x.sshiftRight (y.toNat % 32)) ∧
    ShiftI .sarI (fun x n => x.sshiftRight n)) ∧
  (ThreeV .min (fun x y _ => if x.toInt < y.toInt then x else y) ∧ ThreeU .minU (fun x y _ => if x.toInt < y.toInt then x else y) ∧
    TwoA16 .minA16 (fun x y => if x.toInt < y.toInt then x else y)) ∧
  (ThreeV .minUns (fun x y _ => if x.toNat < y.toNat then x else y) ∧
    ThreeU .minUnsU (fun x y _ => if x.toNat < y.toNat then x else y)) ∧
  (ThreeV .max (fun x y _ => if y.toInt < x.toInt then x else y) ∧ ThreeU .maxU (fun x y _ => if y.toInt < x.toInt then x else y) ∧
    TwoA16 .maxA16 (fun x y => if y.toInt < x.toInt then x else y)) ∧
  (ThreeV .maxUns (fun x y _ => if y.toNat < x.toNat then x else y) ∧
    ThreeU .maxUnsU (fun x y _ => if y.toNat < x.toNat then x else y))

/-- The one-source, bit-field, move and packing instructions (R241, R243, R219) in every form. The functions on one word are
characterised bit by bit in `bit_field_functions`. -/
def Sys2Proof.Claims.bit_and_move_results : Prop :=
  (OneV .not (fun x => ~~~x) ∧ OneU .notU (fun x => ~~~x)) ∧
  (OneV .abs (fun x => if x.toInt < 0 then -x else x) ∧ OneU .absU (fun x => if x.toInt < 0 then -x else x)) ∧
  (OneV .clz leadingZeros ∧ OneU .clzU leadingZeros) ∧ (OneV .popc oneBits ∧ OneU .popcU oneBits) ∧
  (OneV .brev reverseBits ∧ OneU .brevU reverseBits) ∧
  (ThreeV .bfe (fun x y _ => extractField x y true) ∧ ThreeU .bfeU (fun x y _ => extractField x y true)) ∧
  (ThreeV .bfeUns (fun x y _ => extractField x y false) ∧ ThreeU .bfeUnsU (fun x y _ => extractField x y false)) ∧
  (ThreeV .bfi insertField ∧ ThreeU .bfiU insertField) ∧
  (ThreeV .pack (fun x y _ => y.truncate 16 ++ x.truncate 16) ∧ ThreeU .packU (fun x y _ => y.truncate 16 ++ x.truncate 16)) ∧
  (∀ e : Fin 32, OneV (.unpk e) (unpack e)) ∧
  (OneV .mov id ∧ OneU .movU id ∧ TwoA16 .movA16 (fun _ y => y) ∧ TwoI .movI (fun _ n => n.signExtend 32) ∧
    TwoI .movHi (fun x n => n ++ x.truncate 16) ∧ TwoI .movF32 (fun _ n => n ++ 0#16) ∧ TwoI .movE4m3x2 (fun _ n => n ++ n))

/-- What the bit-field functions of R241 give, bit by bit: reversal; the count of leading zeros; a field extracted, the bits above it
zero or copies of its top bit; a field inserted, bits above bit 31 dropped; the count of one bits of a word with bit i set
and of the word without it. -/
def Sys2Proof.Claims.bit_field_functions : Prop :=
  (∀ (x : Word) (i : Nat), i < 32 → (reverseBits x).getLsbD i = x.getLsbD (31 - i)) ∧
  (leadingZeros 0 = 32 ∧ ∀ (x : Word) (k : Nat), k < 32 → 2 ^ (31 - k) ≤ x.toNat → x.toNat < 2 ^ (32 - k) →
    leadingZeros x = BitVec.ofNat 32 k) ∧
  (oneBits 0 = 0 ∧ ∀ (x : Word) (i : Nat), i < 32 → x.getLsbD i = true → oneBits x = oneBits (x &&& ~~~(1#32 <<< i)) + 1) ∧
  (∀ (x b : Word) (i : Nat), i < 32 →
    let pos := b.toNat % 32
    let len := b.toNat / 2 ^ 8 % 32
    ((extractField x b false).getLsbD i = (decide (i < len) && x.getLsbD (pos + i))) ∧
    ((extractField x b true).getLsbD i =
      (decide (len ≠ 0) && (x.signExtend 64).getLsbD (pos + (if i < len then i else len - 1))))) ∧
  (∀ (x b z : Word) (i : Nat), i < 32 →
    let pos := b.toNat % 32
    let len := b.toNat / 2 ^ 8 % 32
    (insertField x b z).getLsbD i = if pos ≤ i ∧ i < pos + len then x.getLsbD (i - pos) else z.getLsbD i)

/-- The 64-bit integer instructions of R244 on register pairs, low word first. -/
def Sys2Proof.Claims.wide_integer_results : Prop :=
  (WideV .add64 (fun x y _ => x + y) ∧ WideU .add64U (fun x y _ => x + y)) ∧
  (WideV .sub64 (fun x y _ => x - y) ∧ WideU .sub64U (fun x y _ => x - y)) ∧
  (WideV .mad64 (fun x y z => x * y + z) ∧ WideU .mad64U (fun x y z => x * y + z))

/-- CMP writes the predicate of its condition, SEL chooses by a predicate, and MOV.s writes an s-register from the lowest active
lane (R242, R252, R253). A predicate p0 takes no write (R3). -/
def Sys2Proof.Claims.compare_select_uniform_results : Prop :=
  (∀ (c : Fin 8) (p : Fin 4) (a b : Fin 32) (f : Fin 16) (w : Fin 8) (s : State) (gid : Nat) (mask : List Nat) (g : Group),
    Plain s gid mask g → Whole g false w f → Resident g mask [a, b] →
      Completes (.cmp c p a b f w) s gid mask g f 0 [] (fun _ => judged g mask p (fun l => compareInt c (l.reg a) (l.reg b)))) ∧
  (∀ (c : Fin 8) (p : Fin 4) (a : Fin 32) (b : Fin 256) (w : Fin 8) (s : State) (gid : Nat) (mask : List Nat) (g : Group),
    Plain s gid mask g → Whole g false w 15 → Resident g mask [a] →
      Completes (.cmpU c p a b w) s gid mask g 15 0 [] (fun _ => judged g mask p (fun l => compareInt c (l.reg a) (g.sreg b)))) ∧
  (∀ x y : Word, (compareInt 0 x y = true ↔ x = y) ∧ (compareInt 1 x y = true ↔ x ≠ y) ∧
    (compareInt 2 x y = true ↔ x.toInt < y.toInt) ∧ (compareInt 3 x y = true ↔ x.toInt ≤ y.toInt) ∧
    (compareInt 4 x y = true ↔ y.toInt < x.toInt) ∧ (compareInt 5 x y = true ↔ y.toInt ≤ x.toInt) ∧
    (compareInt 6 x y = true ↔ x.toNat < y.toNat) ∧ (compareInt 7 x y = true ↔ x.toNat ≤ y.toNat)) ∧
  (∀ (p : Fin 4) (d a b : Fin 32) (f : Fin 16) (w : Fin 8) (s : State) (gid : Nat) (mask : List Nat) (g : Group),
    Plain s gid mask g → Whole g false w f → Resident g mask [d, a, b] →
      Completes (.sel p d a b f w) s gid mask g f 0 []
        (fun _ => wrote g mask 4 d (fun l => if l.pred p then l.reg a else l.reg b))) ∧
  (∀ (p : Fin 4) (d a : Fin 32) (b : Fin 256) (w : Fin 8) (s : State) (gid : Nat) (mask : List Nat) (g : Group),
    Plain s gid mask g → Whole g false w 15 → Resident g mask [d, a] →
      Completes (.selU p d a b w) s gid mask g 15 0 []
        (fun _ => wrote g mask 4 d (fun l => if l.pred p then l.reg a else g.sreg b))) ∧
  (∀ (t : Fin 256) (a : Fin 32) (w : Fin 8) (s : State) (gid : Nat) (mask : List Nat) (g : Group),
    Plain s gid mask g → Whole g false w 15 → Resident g mask [a] →
      Completes (.movS t a w) s gid mask g 15 0 [(t.val, (g.lane ((mask.head?).getD 0)).reg a)]
        (fun _ l => { l with pc := pcOf g mask + 4 }))

/-- The FP32 instructions of R245 to R247 give the model's exactly rounded results under FPCSR in every form, their conditions become
sticky, and nothing else changes; here no lane raises an enabled condition (`enabled_condition_traps` says what happens then). -/
def Obligations.fp32_results : Prop :=
  (FpV .fadd fpAdd ∧ FpU .faddU fpAdd ∧ FpA16 .faddA16 fpAdd ∧ FpI .faddI (fun c x n => fpAdd c x (n ++ 0#16) 0)) ∧
  (FpV .fsub fpSub ∧ FpU .fsubU fpSub) ∧
  (FpV .fmul fpMul ∧ FpU .fmulU fpMul ∧ FpA16 .fmulA16 fpMul ∧ FpI .fmulI (fun c x n => fpMul c x (n ++ 0#16) 0)) ∧
  (FpV .ffma fpFma ∧ FpU .ffmaU fpFma ∧ FpA16 .ffmaA16 fpFma) ∧
  (FpV .fmin fpMin ∧ FpU .fminU fpMin ∧ FpA16 .fminA16 fpMin) ∧ (FpV .fmax fpMax ∧ FpU .fmaxU fpMax ∧ FpA16 .fmaxA16 fpMax) ∧
  (FpOne .frcp (special 0) ∧ FpOne .frsq (special 1) ∧ FpOne .fsqrt (special 2) ∧ FpOne .fex2 (special 3) ∧
    FpOne .flg2 (special 4) ∧ FpOne .fsin (special 5) ∧ FpOne .fcos (special 6)) ∧
  (∀ (c : Fin 8) (p : Fin 4) (a b : Fin 32) (f : Fin 16) (w : Fin 8) (s : State) (gid : Nat) (mask : List Nat) (g : Group),
    let r := fun (l : Lane) => fpCompare c g.arch.fpcsr (l.reg a) (l.reg b)
    Plain s gid mask g → Whole g false w f → Resident g mask [a, b] →
      (∀ i ∈ mask, (r (g.lane i)).2 &&& fpEnabled g.arch.fpcsr = 0) →
      Completes (.fcmp c p a b f w) s gid mask g f (mask.foldl (fun n i => n ||| (r (g.lane i)).2) 0) []
        (fun _ => judged g mask p (fun l => (r l).1))) ∧
  (∀ (c : Fin 8) (p : Fin 4) (a : Fin 32) (b : Fin 256) (w : Fin 8) (s : State) (gid : Nat) (mask : List Nat) (g : Group),
    let r := fun (l : Lane) => fpCompare c g.arch.fpcsr (l.reg a) (g.sreg b)
    Plain s gid mask g → Whole g false w 15 → Resident g mask [a] →
      (∀ i ∈ mask, (r (g.lane i)).2 &&& fpEnabled g.arch.fpcsr = 0) →
      Completes (.fcmpU c p a b w) s gid mask g 15 (mask.foldl (fun n i => n ||| (r (g.lane i)).2) 0) []
        (fun _ => judged g mask p (fun l => (r l).1)))

/-- The packed, dot-product and conversion instructions of R248 to R250 in every form. CVTSR draws once in each active lane and
advances its count of draws (R194, R195). -/
def Obligations.packed_and_conversion_results : Prop :=
  let add : Fmt → BitVec 16 → Word → Word → Word → Word × Nat := fun k => halves k (fun g m z x y _ => g.addW m z x y)
  let mul : Fmt → BitVec 16 → Word → Word → Word → Word × Nat := fun k => halves k (fun g m z x y _ => g.mulW m z x y)
  let fma : Fmt → BitVec 16 → Word → Word → Word → Word × Nat := fun k => halves k (fun g m z x y c => g.fmaW m z x y c)
  (FpV .hadd2F16 (add .fp16) ∧ FpU .hadd2F16U (add .fp16) ∧ FpI .hadd2F16I (fun c x n => add .fp16 c x (n ++ n) 0)) ∧
  (FpV .hadd2Bf16 (add .bf16) ∧ FpU .hadd2Bf16U (add .bf16)) ∧
  (FpV .hmul2F16 (mul .fp16) ∧ FpU .hmul2F16U (mul .fp16) ∧ FpI .hmul2F16I (fun c x n => mul .fp16 c x (n ++ n) 0)) ∧
  (FpV .hmul2Bf16 (mul .bf16) ∧ FpU .hmul2Bf16U (mul .bf16)) ∧
  (FpV .hfma2F16 (fma .fp16) ∧ FpU .hfma2F16U (fma .fp16)) ∧ (FpV .hfma2Bf16 (fma .bf16) ∧ FpU .hfma2Bf16U (fma .bf16)) ∧
  (FpV .dot4S8 (dotInt 4 8) ∧ FpU .dot4S8U (dotInt 4 8)) ∧ (FpV .dot8S4 (dotInt 8 4) ∧ FpU .dot8S4U (dotInt 8 4)) ∧
  (FpV .dot4E4m3 (dotFloat 4 8 .e4m3) ∧ FpU .dot4E4m3U (dotFloat 4 8 .e4m3)) ∧
  (FpV .dot4E5m2 (dotFloat 4 8 .e5m2) ∧ FpU .dot4E5m2U (dotFloat 4 8 .e5m2)) ∧
  (FpV .dot8E2m1 (dotFloat 8 4 .e2m1) ∧ FpU .dot8E2m1U (dotFloat 8 4 .e2m1)) ∧
  (∀ c : Fin 32, FpOne (.cvt c) (fun fc x => cvt c (fpMode fc) (fpFtz fc) x)) ∧
  (∀ (c d a : Fin 32) (f : Fin 16) (w : Fin 8) (s : State) (gid : Nat) (mask : List Nat) (g : Group),
    let r := fun (i : Nat) (l : Lane) =>
      cvt c (.sr (srdraw g.arch.srseed (g.laneId i) l.convCount.toNat)) (fpFtz g.arch.fpcsr) (l.reg a)
    Plain s gid mask g → Whole g false w f → Resident g mask [d, a] →
      (∀ i ∈ mask, (r i (g.lane i)).2 &&& fpEnabled g.arch.fpcsr = 0) →
      Completes (.cvtsr c d a f w) s gid mask g f (mask.foldl (fun n i => n ||| (r i (g.lane i)).2) 0) []
        (fun i l => { wrote g mask 4 d (fun l => (r i l).1) l with convCount := l.convCount + 1 }))

/-- What the format has is written as it stands: rounding the value of an FP32 encoding that is no NaN gives that encoding back, under
every mode, and raises nothing (R184, R191). So does FADD of it and a zero of its sign. -/
def Sys2Proof.Claims.representable_values_stand : Prop :=
  (∀ (m : Mode) (w : Word), (Fmt.fp32.decode w.toNat).isNan = false →
    Fmt.fp32.write m false (Fmt.fp32.decode w.toNat) = (w.toNat, 0)) ∧
  (∀ (m : Mode) (w : BitVec 16), (Fmt.bf16.decode w.toNat).isNan = false →
    Fmt.bf16.write m false (Fmt.bf16.decode w.toNat) = (w.toNat, 0)) ∧
  (∀ (m : Mode) (w : BitVec 16), (Fmt.fp16.decode w.toNat).isNan = false →
    Fmt.fp16.write m false (Fmt.fp16.decode w.toNat) = (w.toNat, 0)) ∧
  (∀ (c : BitVec 16) (x : Word), c.getLsbD 15 = false → (Fmt.fp32.decode x.toNat).isNan = false →
    fpAdd c x (x &&& 0x80000000#32) 0 = (x, 0))

/-- A NaN operand gives the canonical NaN and raises nothing in FADD, FSUB, FMUL and FFMA; FMIN and FMAX take the other
operand (R187, R196). -/
def Sys2Proof.Claims.nan_operands : Prop :=
  ∀ (c : BitVec 16) (x y z : Word), (Fmt.fp32.decode x.toNat).isNan = true →
    fpAdd c x y z = (0x7FC00000#32, 0) ∧ fpSub c x y z = (0x7FC00000#32, 0) ∧ fpMul c x y z = (0x7FC00000#32, 0) ∧
    (fpFma c y z x).1 = 0x7FC00000#32 ∧
    (c.getLsbD 15 = false → (Fmt.fp32.decode y.toNat).isNan = false → fpMin c x y z = (y, 0) ∧ fpMax c y x z = (y, 0)) ∧
    ((Fmt.fp32.decode y.toNat).isNan = true → fpMin c x y z = (0x7FC00000#32, 0) ∧ fpMax c x y z = (0x7FC00000#32, 0))

/-- An enabled condition traps FP_EXCEPTION (R203): the group enters trap mode at its handler with cause 0x20, TADDR the conditions
that were enabled, TPC the instruction, TMASK the lanes that raised one; no destination register, flag or sticky bit changes. Here
for FADD. -/
def Sys2Proof.Claims.enabled_condition_traps : Prop :=
  ∀ (d a b : Fin 32) (f : Fin 16) (w : Fin 8) (s : State) (gid : Nat) (mask : List Nat) (g : Group),
    let hit := fun (i : Nat) => (fpAdd g.arch.fpcsr ((g.lane i).reg a) ((g.lane i).reg b) 0).2 &&& fpEnabled g.arch.fpcsr
    Plain s gid mask g → Whole g false w f → Resident g mask [d, a, b] → g.trapMode = false → (∃ i ∈ mask, hit i ≠ 0) →
      ∃ t g', exec (.fadd d a b f w) s = .next t ∧ look t.groups gid = some g' ∧ t.mem = s.mem ∧
        g'.trapMode = true ∧ g'.tcause = 0x20 ∧ g'.tpc = pcOf g mask ∧
        g'.taddr = BitVec.ofNat 64 (mask.foldl (fun n i => n ||| hit i) 0) ∧
        g'.tmask = maskOf (mask.filter (fun i => decide (hit i ≠ 0))) ∧
        g'.arch.fpcsr = g.arch.fpcsr ∧ g'.flags = g.flags ∧ g'.arch.sregs = g.arch.sregs ∧ g'.caps = g.caps ∧
        (∀ i ∈ mask, (g'.lane i).pc = g.tvec ∧ (g'.lane i).v = (g.lane i).v)

namespace Sys2Proof.Claims

/-- A shuffle whose lane i takes v(a) of lane src W i b, where b is the lane's selector (R255): it completes where `.z` stands or every
source is active, an inactive source giving zero; without `.z`, an inactive source traps INACTIVE_LANE_READ, TMASK the lanes that
named one, TADDR the sources (R254). -/
def Shuffles (mk : Fin 32 → Fin 32 → Fin 32 → Bool → Fin 16 → Fin 8 → Instr) (src : Nat → Nat → Nat → Nat) : Prop :=
  ∀ (d a b : Fin 32) (z : Bool) (f : Fin 16) (w : Fin 8) (s : State) (gid : Nat) (mask : List Nat) (g : Group),
    let from_ := fun (i : Nat) => src g.width i ((g.lane i).reg b).toNat
    let lost := mask.filter (fun i => decide (from_ i ≠ i ∧ from_ i ∉ mask))
    Plain s gid mask g → Whole g false w f → Resident g mask [d, a, b] →
      (z = true ∨ lost = [] →
        Completes (mk d a b z f w) s gid mask g f 0 []
          (fun i => wrote g mask 4 d (fun _ => if from_ i ∈ mask then (g.lane (from_ i)).reg a else 0))) ∧
      (z = false → lost ≠ [] → g.trapMode = false →
        ∃ t g', exec (mk d a b z f w) s = .next t ∧ look t.groups gid = some g' ∧ t.mem = s.mem ∧
          g'.trapMode = true ∧ g'.tcause = 0x05 ∧ g'.tpc = pcOf g mask ∧ g'.tmask = maskOf lost ∧
          g'.taddr = maskOf (lost.map from_) ∧ g'.flags = g.flags ∧ g'.arch.sregs = g.arch.sregs ∧
          ∀ i ∈ mask, (g'.lane i).pc = g.tvec ∧ (g'.lane i).v = (g.lane i).v)

/-- The two halves of a 64-bit mask in the pair d, d + 1. -/
def wroteMask (g : Group) (mask : List Nat) (d : Nat) (m : DWord) (l : Lane) : Lane := wrotePair g mask d (fun _ => m) l

end Sys2Proof.Claims

/-- The four shuffles (R254, R255). -/
def Sys2Proof.Claims.shuffle_results : Prop :=
  Shuffles .shflIdx (fun wd _ b => b % wd) ∧
  Shuffles .shflUp (fun wd i b => if b < wd ∧ b ≤ i then i - b else i) ∧
  Shuffles .shflDown (fun wd i b => if b < wd ∧ i + b < wd then i + b else i) ∧
  Shuffles .shflXor (fun wd i b => i ^^^ (b % wd))

/-- VOTE and MATCH over the active lanes (R256, R258), and REDUX (R257): every active lane takes the value of the fixed tree of R207
over the active lanes, here said for the tree function of the model, which `redux_tree` describes. -/
def Sys2Proof.Claims.vote_match_redux_results : Prop :=
  (∀ (p q : Fin 4) (f : Fin 16) (w : Fin 8) (s : State) (gid : Nat) (mask : List Nat) (g : Group),
    Plain s gid mask g → Whole g false w f →
      Completes (.voteAll p q f w) s gid mask g f 0 []
        (fun _ => judged g mask p (fun _ => mask.all (fun i => (g.lane i).pred q))) ∧
      Completes (.voteAny p q f w) s gid mask g f 0 []
        (fun _ => judged g mask p (fun _ => mask.any (fun i => (g.lane i).pred q)))) ∧
  (∀ (d : Fin 32) (q : Fin 4) (f : Fin 16) (w : Fin 8) (s : State) (gid : Nat) (mask : List Nat) (g : Group),
    d.val % 2 = 0 → Plain s gid mask g → Whole g false w f → Resident g mask [d, d + 1] →
      Completes (.voteBallot d q f w) s gid mask g f 0 []
        (fun _ => wroteMask g mask d (maskOf (mask.filter (fun i => (g.lane i).pred q))))) ∧
  (∀ (d a : Fin 32) (f : Fin 16) (w : Fin 8) (s : State) (gid : Nat) (mask : List Nat) (g : Group),
    d.val % 2 = 0 → Plain s gid mask g → Whole g false w f → Resident g mask [d, d + 1, a] →
      Completes (.matchAny d a f w) s gid mask g f 0 []
        (fun i => wroteMask g mask d (maskOf (mask.filter (fun j => (g.lane j).reg a == (g.lane i).reg a))))) ∧
  (∀ (p : Fin 4) (a : Fin 32) (f : Fin 16) (w : Fin 8) (s : State) (gid : Nat) (mask : List Nat) (g : Group),
    Plain s gid mask g → Whole g false w f → Resident g mask [a] →
      Completes (.matchAll p a f w) s gid mask g f 0 []
        (fun _ => judged g mask p (fun _ => mask.all (fun j => mask.all (fun k => (g.lane j).reg a == (g.lane k).reg a))))) ∧
  (∀ (o d a : Fin 32) (f : Fin 16) (w : Fin 8) (s : State) (gid : Nat) (mask : List Nat) (g : Group) (y : Word) (ls : List (Nat × Nat)),
    let isFp := o.val = 1 ∨ o.val = 6 ∨ o.val = 7
    let leaf := fun (i : Nat) =>
      if i ∈ mask then some ((if isFp then fpClean g.arch.fpcsr ((g.lane i).reg a) else (g.lane i).reg a), [(i, 0)]) else none
    sumTree (reduxOp o g.arch.fpcsr) ((List.range g.width).map leaf) 6 = some (y, ls) → (∀ e ∈ ls, e.2 &&& fpEnabled g.arch.fpcsr = 0) →
    Plain s gid mask g → Whole g false w f → Resident g mask [d, a] →
      Completes (.redux o d a f w) s gid mask g f
        (mask.foldl (fun n i => n ||| ((ls.find? (fun e => e.1 == i)).map (·.2)).getD 0) 0) [] (fun _ => wrote g mask 4 d (fun _ => y)))

/-- The tree of R207: with every value present it adds neighbours level by level, so four values give (a + b) + (c + d); an absent
value leaves its neighbour as it is; and on integers the tree over any set of lanes gives their sum modulo 2^32. -/
def Sys2Proof.Claims.redux_tree : Prop :=
  (∀ (add : Word → Word → Word × Nat) (a b c d : Word),
    ((sumTree add [some (a, []), some (b, []), some (c, []), some (d, [])] 2).map (·.1)) =
      some (add (add a b).1 (add c d).1).1) ∧
  (∀ (add : Word → Word → Word × Nat) (a b : Word),
    ((sumTree add [some (a, []), none, none, some (b, [])] 2).map (·.1)) = some (add a b).1) ∧
  (∀ (c : BitVec 16) (l : List (Option Word)), l.length ≤ 64 → l.any Option.isSome = true →
    ((sumTree (reduxOp 0 c) (l.map (fun o => o.map (fun w => (w, [])))) 6).map (·.1)) =
      some (l.foldl (fun n o => n + o.getD 0) 0))

namespace Sys2Proof.Claims

/-- A lane that takes a branch from address p to address t: its convergence counter rises when the target is not ahead (R154). -/
def branched (p t : BitVec 57) (l : Lane) : Lane := { l with pc := t, counter := if t ≤ p then l.counter + 1 else l.counter }

/-- A lane that goes on to the next instruction. -/
def onTo (p : BitVec 57) (size : Nat) (l : Lane) : Lane := { l with pc := p + BitVec.ofNat 57 size }

/-- An address of the code section (R287). -/
def codeAt (s : State) (g : Group) (off : Word) : BitVec 57 := BitVec.ofNat 57 ((s.teamOf g).codebase + off.toNat)

/-- The group after a trap is taken outside trap mode (R308): trap mode, cause, detail, address and lanes in the trap CSRs; the convoy at
the handler, outside any region, its registers as they were; every other lane where it was; every other register of the group
as it was. -/
def TrapTaken (g g' : Group) (mask : List Nat) (cause : Nat) (addr : DWord) (pc : BitVec 57) (lanes : List Nat) : Prop :=
  g'.trapMode = true ∧ g'.tcause = cause ∧ g'.taddr = addr ∧ g'.tpc = pc ∧ g'.tmask = maskOf lanes ∧
  g'.tvec = g.tvec ∧ g'.caps = g.caps ∧ g'.flags = g.flags ∧ g'.faultBits = g.faultBits ∧ g'.spillprog = g.spillprog ∧
  g'.partdone = g.partdone ∧ g'.arch.sregs = g.arch.sregs ∧ g'.arch.fpcsr = g.arch.fpcsr ∧ g'.arch.srseed = g.arch.srseed ∧
  g'.arch.lanes.length = g.arch.lanes.length ∧
  ∀ i < g.arch.lanes.length,
    let l := g.lane i
    let l' := g'.lane i
    l'.v = l.v ∧ l'.p1 = l.p1 ∧ l'.p2 = l.p2 ∧ l'.p3 = l.p3 ∧ l'.wbase = l.wbase ∧ l'.resbase = l.resbase ∧
    l'.counter = l.counter ∧ l'.tmeld.conv = decide (i ∈ mask) ∧ l'.tmeld.inRegion = l.meld.isSome ∧
    (i ∈ mask → l'.pc = g.tvec ∧ l'.meld = none ∧ l'.park = none) ∧ (i ∉ mask → l'.pc = l.pc ∧ l'.meld = l.meld ∧ l'.park = l.park)

/-- Instruction i, issued by a convoy outside trap mode, takes a trap: its group stands as `TrapTaken` says and memory is unchanged. -/
def Traps (i : Instr) (s : State) (gid : Nat) (mask : List Nat) (g : Group) (cause : Nat) (addr : DWord) (lanes : List Nat) : Prop :=
  ∃ t g', exec i s = .next t ∧ look t.groups gid = some g' ∧ t.mem = s.mem ∧ t.teams = s.teams ∧
    TrapTaken g g' mask cause addr (pcOf g mask) lanes

/-- A CALL by k (R288): where no lane breaks a condition, the link goes to v(7 + k), the window moves up by k, and every lane goes to the
target; otherwise no lane calls and the trap reports the failing lanes with the lowest one's detail. -/
def Calls (mk : BitVec 19 → Fin 8 → Instr) (k : Nat) : Prop :=
  ∀ (o : BitVec 19) (w : Fin 8) (s : State) (gid : Nat) (mask : List Nat) (g : Group),
    let p := pcOf g mask
    let t := p + (o.signExtend 57 <<< 1)
    let link := BitVec.ofNat 32 ((p + 4).toNat - (s.teamOf g).codebase)
    Plain s gid mask g → Whole g false w 15 →
      ((∀ i ∈ mask, let l := g.lane i
        l.wbase + k + 24 ≤ 65536 ∧ l.wbase + k + 24 ≤ l.resbase + l.scap ∧ l.resbase ≤ l.wbase + k - 1) →
        Completes (mk o w) s gid mask g 15 0 []
          (fun _ l => branched p t { l.setPosition (l.wbase + k - 1) link with wbase := l.wbase + k })) ∧
      (∀ (i : Nat) (r : List Nat), g.trapMode = false →
        mask.filter (fun i => (((g.lane i).callFail k).isSome)) = i :: r →
        (∀ j ∈ i :: r, let l := g.lane j; l.wbase + k + 24 ≤ 65536 ∧ l.resbase + l.scap < l.wbase + k + 24) →
        Traps (mk o w) s gid mask g 0x03
          (let l := g.lane i; BitVec.ofNat 64 (l.wbase + k + 24 - (l.resbase + l.scap))) (i :: r))

/-- A RET by k (R289). -/
def Returns (i : Instr) (k : Nat) : Prop :=
  ∀ (s : State) (gid : Nat) (mask : List Nat) (g : Group),
    let p := pcOf g mask
    let link := fun (l : Lane) => l.position (l.wbase - 1)
    Plain s gid mask g → Whole g true 0 15 →
      ((∀ j ∈ mask, let l := g.lane j; k ≤ l.wbase ∧ l.resbase ≤ l.wbase - k ∧ (link l).toNat % 2 = 0) →
        Completes i s gid mask g 15 0 []
          (fun _ l => branched p (codeAt s g (link l)) { l with wbase := l.wbase - k })) ∧
      ((∀ j ∈ mask, (g.lane j).wbase < k) → g.trapMode = false →
        Traps i s gid mask g 0x04 0xFFFFFFFFFFFFFFFF#64 mask)

end Sys2Proof.Claims

/-- The branches of R286: which lanes go to the target, the address plus twice the signed offset, and their counters. -/
def Sys2Proof.Claims.branch_results : Prop :=
  ∀ (n : Fin 4) (o : BitVec 19) (w : Fin 8) (s : State) (gid : Nat) (mask : List Nat) (g : Group),
    let p := pcOf g mask
    let t := p + (o.signExtend 57 <<< 1)
    Plain s gid mask g → Whole g false w 15 →
      Completes (.bra n o w) s gid mask g 15 0 [] (fun _ l => if l.pred n then branched p t l else onTo p 4 l) ∧
      Completes (.braN n o w) s gid mask g 15 0 [] (fun _ l => if l.pred n then onTo p 4 l else branched p t l) ∧
      Completes (.brl n o w) s gid mask g 15 0 []
        (fun _ l => if (g.lane ((mask.head?).getD 0)).pred n then branched p t l else onTo p 4 l)

/-- JMP, CALL and RET (R287 to R289): the targets, the link, the window; and the traps of an odd target and of a window that
does not fit. The link of a CALL below CODEBASE is 0 (the model's choice, log entry 28). -/
def Sys2Proof.Claims.jump_call_return_results : Prop :=
  (∀ (r : Fin 32) (w : Fin 8) (s : State) (gid : Nat) (mask : List Nat) (g : Group),
    Plain s gid mask g → Whole g false w 15 → Resident g mask [r] →
      ((∀ i ∈ mask, ((g.lane i).reg r).toNat % 2 = 0) →
        Completes (.jmp r w) s gid mask g 15 0 [] (fun _ l => branched (pcOf g mask) (codeAt s g (l.reg r)) l)) ∧
      (∀ (i : Nat) (rest : List Nat), mask.filter (fun j => decide (((g.lane j).reg r).toNat % 2 = 1)) = i :: rest →
        g.trapMode = false →
        Traps (.jmp r w) s gid mask g 0x12 ((codeAt s g ((g.lane i).reg r)).zeroExtend 64) (i :: rest))) ∧
  Calls .call8 8 ∧ Calls .call16 16 ∧ Returns .ret8 8 ∧ Returns .ret16 16

/-- MELD enters its region at position 0, each lane on the path its predicate says, when the descriptor is present and starts at the
next instruction; otherwise it is MELD_VIOLATION. A MEND at the last position ends the region for the convoy; outside a region it
is MELD_VIOLATION (R164, R166, R293). -/
def Obligations.meld_results : Prop :=
  (∀ (n : Fin 4) (t : Fin 64) (w : Fin 8) (s : State) (gid : Nat) (mask : List Nat) (g : Group) (d : Region),
    Plain s gid mask g → Whole g false w 15 → (s.launchOf g).melds[t.val]? = some d → d.count ≠ 0 →
      BitVec.ofNat 57 ((s.teamOf g).codebase + d.start) = pcOf g mask + 4 →
      ∃ t' g', exec (.meld n t w) s = .next t' ∧ look t'.groups gid = some g' ∧ t'.mem = s.mem ∧
        ∀ i ∈ mask, (g'.lane i).pc = pcOf g mask + 4 ∧ (g'.lane i).v = (g.lane i).v ∧
          (g'.lane i).meld = some { region := t, position := 0, path := (g.lane i).pred n, convoy := g.arch.nextConvoy }) ∧
  (∀ (n : Fin 4) (t : Fin 64) (w : Fin 8) (s : State) (gid : Nat) (mask : List Nat) (g : Group),
    Plain s gid mask g → Whole g false w 15 → (s.launchOf g).melds[t.val]? = none → g.trapMode = false →
      Traps (.meld n t w) s gid mask g 0x06 s.fetched mask) ∧
  (∀ (s : State) (gid : Nat) (mask : List Nat) (g : Group), Plain s gid mask g → Whole g true 0 15 → g.trapMode = false →
      Traps .mend s gid mask g 0x06 s.fetched mask) ∧
  (∀ (s : State) (gid : Nat) (mask : List Nat) (g : Group) (d : Region) (m : Meld),
    s.cur = .convoy gid mask → look s.groups gid = some g → mask ≠ [] → (∀ i ∈ mask, i < g.arch.lanes.length) → g.epoch = none →
      g.drained = none → g.release = [] → Whole g true 0 15 → (g.lane ((mask.head?).getD 0)).meld = some m →
      (s.launchOf g).melds[m.region]? = some d → d.count = m.position + 1 → d.code m.position = 0 →
      ∃ t g', exec .mend s = .next t ∧ look t.groups gid = some g' ∧ t.mem = s.mem ∧
        ∀ i ∈ mask, (g'.lane i).meld = none ∧ (g'.lane i).pc = pcOf g mask + 2 ∧ (g'.lane i).v = (g.lane i).v)

namespace Sys2Proof.Claims

/-- What lane i of a group reads from a CSR (R306, R307): the identities of R145, CLOCK, WINDOW, FPCSR, SRSEED, DEPCHK, OUTCTL and the trap
CSRs. -/
def csrOf (s : State) (g : Group) (i c : Nat) : Nat :=
  let t := s.teamOf g
  let l := g.lane i
  if c = 0x00 then (if g.isGuide then 2 ^ 32 - 1 else g.index * g.width + i)
  else if c = 0x01 then (if g.isGuide then 2 ^ 32 - 1 else g.index)
  else if c = 0x02 then t.teamId
  else if c = 0x03 then t.gridX
  else if c = 0x04 then t.gridY
  else if c = 0x05 then t.gridZ
  else if c = 0x06 then s.partClock t.ctx.part
  else if c = 0x07 then l.window
  else if c = 0x08 then g.arch.fpcsr.toNat
  else if c = 0x09 then g.arch.srseed.toNat
  else if c = 0x0A then (if g.depchk then 1 else 0)
  else if c = 0x0B then g.outctlWord
  else if c = 0x10 then g.tvec.toNat
  else if c = 0x11 then g.tcause + (if g.trapMode then 2 ^ 8 else 0)
  else if c = 0x12 then g.taddr.toNat
  else if c = 0x13 then g.tpc.toNat
  else if c = 0x14 then g.tmask.toNat
  else if c = 0x15 then l.tmeld.word
  else if c = 0x16 then g.spillprog.toNat
  else g.partdone.toNat

end Sys2Proof.Claims

/-- NOP and FENCE only go on; YIELD goes on and its slices move to their next paths; STALL keeps its group from issuing for n cycles
of its core's own clock (R135, R155, R294, R463). -/
def Sys2Proof.Claims.simple_forms : Prop :=
  ∀ (s : State) (gid : Nat) (mask : List Nat) (g : Group), Plain s gid mask g → Whole g true 0 15 →
    Completes .nop s gid mask g 15 0 [] (fun _ => onTo (pcOf g mask) 2) ∧
    Completes .yield s gid mask g 15 0 [] (fun _ => onTo (pcOf g mask) 2) ∧
    Completes .fence s gid mask g 15 0 [] (fun _ => onTo (pcOf g mask) 2) ∧
    (∀ n : Fin 256, ∃ t g', exec (.stall n) s = .next t ∧ look t.groups gid = some g' ∧ t.mem = s.mem ∧ g'.idle = s.ownClock (s.teamOf g).core + n ∧
      LanesAfter g g' mask (fun _ => onTo (pcOf g mask) 2)) ∧
    (∃ t g', exec .yield s = .next t ∧ look t.groups gid = some g' ∧
      ∀ (j : Nat) (sl : Slice), j ∈ slicesOf mask → g'.arch.slices[j]? = some sl → sl.issued = 0)

/-- CSRR gives each lane its CSR's value in an even pair, CSRW writes a per-group CSR from the lowest active lane and TMELD from each lane;
in trap mode the trap CSRs are written, outside it the write traps ILLEGAL_INSTRUCTION (R305 to R307). -/
def Sys2Proof.Claims.csr_results : Prop :=
  (∀ (c : Fin 64) (d : Fin 32) (w : Fin 8) (s : State) (gid : Nat) (mask : List Nat) (g : Group),
    (Instr.csrr c d w).wf = true → Plain s gid mask g → Whole g false w 15 → Resident g mask [d, d + 1] →
      Completes (.csrr c d w) s gid mask g 15 0 [] (fun i => wrotePair g mask d (fun _ => BitVec.ofNat 64 (csrOf s g i c)))) ∧
  (∀ (c : Fin 64) (a : Fin 32) (w : Fin 8) (s : State) (gid : Nat) (mask : List Nat) (g : Group),
    let v := pairOf (g.lane ((mask.head?).getD 0)) a
    (Instr.csrw c a w).wf = true → Plain s gid mask g → Whole g false w 15 → Resident g mask [a, a + 1] →
      (c.val = 0x15 → g.trapMode = true → ∃ t g', exec (.csrw c a w) s = .next t ∧ look t.groups gid = some g' ∧ t.mem = s.mem ∧
        LanesAfter g g' mask (fun _ l => { onTo (pcOf g mask) 4 l with tmeld := l.tmeld.write (pairOf l a) })) ∧
      (c.val ≠ 0x15 → 8 ≤ c.val → (c.val < 0x10 ∨ g.trapMode = true) →
        ∃ t g', exec (.csrw c a w) s = .next t ∧ look t.groups gid = some g' ∧ t.mem = s.mem ∧
          (∀ i ∈ mask, (g'.lane i).pc = pcOf g mask + 4 ∧ (g'.lane i).v = (g.lane i).v) ∧
          g'.caps = g.caps ∧ g'.flags = g.flags ∧ g'.arch.sregs = g.arch.sregs ∧
          (c.val = 8 → g'.arch.fpcsr = fpWrite g.arch.fpcsr v) ∧ (c.val ≠ 8 → g'.arch.fpcsr = g.arch.fpcsr) ∧
          (c.val = 9 → g'.arch.srseed = v.truncate 32 ∧ ∀ i < g.arch.lanes.length, (g'.lane i).convCount = 0) ∧
          (c.val ≠ 9 → g'.arch.srseed = g.arch.srseed) ∧
          (g'.depchk = if c.val = 0x0A then v.getLsbD 0 else g.depchk) ∧
          (c.val = 0x0B → g.isGuide = false → g'.outctl.en = v.getLsbD 0) ∧
          (g'.tvec = if c.val = 0x10 then codeField v else g.tvec) ∧ (g'.tcause = if c.val = 0x11 then bits v 0 6 else g.tcause) ∧
          (g'.taddr = if c.val = 0x12 then v else g.taddr) ∧ (g'.tpc = if c.val = 0x13 then codeField v else g.tpc) ∧
          (g'.tmask = if c.val = 0x14 then v else g.tmask) ∧
          (g'.spillprog = if c.val = 0x16 then v.truncate 9 else g.spillprog) ∧
          (g'.partdone = if c.val = 0x17 then v else g.partdone) ∧ g'.trapMode = g.trapMode) ∧
      (0x10 ≤ c.val → g.trapMode = false → Traps (.csrw c a w) s gid mask g 0x01 s.fetched mask))

/-- TRAP raises TRAP_INSTRUCTION with its code and the next instruction's address (R310). TRET, in trap mode, stops its lanes, and with the
last lane of the trapping convoy ends trap mode: the lanes resume at TPC (R311). Outside trap mode it traps ILLEGAL_INSTRUCTION. -/
def Obligations.trap_and_return : Prop :=
  (∀ (c : Fin 64) (w : Fin 8) (s : State) (gid : Nat) (mask : List Nat) (g : Group),
    Plain s gid mask g → Whole g false w 15 → g.trapMode = false →
      ∃ t g', exec (.trap c w) s = .next t ∧ look t.groups gid = some g' ∧ t.mem = s.mem ∧
        g'.trapMode = true ∧ g'.tcause = 0x30 ∧ g'.taddr = BitVec.ofNat 64 c ∧ g'.tpc = pcOf g mask + 4 ∧ g'.tmask = maskOf mask ∧
        g'.flags = g.flags ∧ g'.arch.sregs = g.arch.sregs ∧ g'.arch.fpcsr = g.arch.fpcsr ∧ g'.caps = g.caps ∧
        (∀ i ∈ mask, (g'.lane i).pc = g.tvec ∧ (g'.lane i).v = (g.lane i).v) ∧
        (∀ i < g.arch.lanes.length, i ∉ mask → (g'.lane i).pc = (g.lane i).pc ∧ (g'.lane i).v = (g.lane i).v)) ∧
  (∀ (s : State) (gid : Nat) (mask : List Nat) (g : Group), Plain s gid mask g → Whole g false 0 15 → g.trapMode = true →
    (∀ i < g.arch.lanes.length, (g.lane i).tmeld.conv = true → (g.lane i).exited = false → i ∈ mask ∨ (g.lane i).atTret = true) →
    (∀ i ∈ mask, (g.lane i).tmeld.conv = true ∧ (g.lane i).tmeld.inRegion = false ∧ (g.lane i).exited = false) →
    (∀ i < g.arch.lanes.length, (g.lane i).tmeld.conv = true → (g.lane i).tmeld.inRegion = false) →
      ∃ t g', exec .tret s = .next t ∧ look t.groups gid = some g' ∧ t.mem = s.mem ∧ g'.trapMode = false ∧
        g'.tcause = g.tcause ∧ g'.taddr = g.taddr ∧ g'.tpc = g.tpc ∧ g'.tmask = g.tmask ∧ g'.caps = g.caps ∧
        ∀ i ∈ mask, (g'.lane i).pc = g.tpc ∧ (g'.lane i).meld = none ∧ (g'.lane i).v = (g.lane i).v) ∧
  (∀ (s : State) (gid : Nat) (mask : List Nat) (g : Group), Plain s gid mask g → Whole g false 0 15 → g.trapMode = false →
    Traps .tret s gid mask g 0x01 s.fetched mask)

namespace Sys2Proof.Claims

/-- Instruction i makes its convoy wait: the lanes stand parked at their instruction for what `p` says, their registers as they were; memory is
unchanged. -/
def Waits (i : Instr) (s : State) (gid : Nat) (mask : List Nat) (g : Group) (p : Park) : Prop :=
  ∃ t g', exec i s = .next t ∧ look t.groups gid = some g' ∧ t.mem = s.mem ∧
    (∀ i ∈ mask, (g'.lane i).park = some p ∧ (g'.lane i).pc = (g.lane i).pc ∧ (g'.lane i).v = (g.lane i).v) ∧
    g'.arch.sregs = g.arch.sregs ∧ g'.caps = g.caps ∧ g'.trapMode = g.trapMode

/-- The instruction a convoy outside regions issues, as the model's operations take it. -/
def issueAt (fm : Form) (s : State) (gid : Nat) (mask : List Nat) (g : Group) : Issue :=
  { s := s, gid := gid, g := g, mask := mask, act := mask, rg := none, fm := fm, pc := pcOf g mask
    dist := g.arch.distance + (if fm.short then 1 else max fm.stall 1) }

end Sys2Proof.Claims

/-- WAITF (R295): with every named flag at zero and no fault bit the lanes go on; while one stands above the group's own results under it
they park; a fault bit of a named flag traps ENGINE_FAULT and is cleared (R316). -/
def Sys2Proof.Claims.waitf_results : Prop :=
  ∀ (m : BitVec 12) (s : State) (gid : Nat) (mask : List Nat) (g : Group), Plain s gid mask g → Whole g true 0 15 →
    ((∀ i < 12, m.getLsbD i = true → g.flag i = 0 ∧ look g.faultBits i = none) →
      Completes (.waitf m) s gid mask g 15 0 [] (fun _ => onTo (pcOf g mask) 2)) ∧
    ((∃ i < 12, m.getLsbD i = true ∧ g.inflight.count i < g.flag i) → Waits (.waitf m) s gid mask g (.waitf m)) ∧
    (∀ (k cause : Nat), (∀ i < 12, m.getLsbD i = true → g.flag i = 0 ∧ (i ≠ k → look g.faultBits i = none)) → k < 12 →
      m.getLsbD k = true → look g.faultBits k = some cause → g.trapMode = false →
      ∃ t g', exec (.waitf m) s = .next t ∧ look t.groups gid = some g' ∧ t.mem = s.mem ∧
        g'.trapMode = true ∧ g'.tcause = 0x1A ∧ g'.taddr = engineFaultAddr 1 cause (2 ^ k) ∧ g'.tpc = pcOf g mask ∧
        g'.tmask = maskOf mask ∧ look g'.faultBits k = none)

/-- SLEEPT (R297): once CLOCK, as the partition reads it, has come to the pair's time the lanes go on, unless the pair is bound to a copy that
has not completed, which traps LATE_COPY; before that they park. SLEEPT_WAKE ends the park of a lane whose time has come. -/
def Sys2Proof.Claims.sleept_results : Prop :=
  (∀ (p : Fin 256) (w : Fin 8) (s : State) (gid : Nat) (mask : List Nat) (g : Group), Plain s gid mask g → Whole g false w 15 →
    let now := s.partClock (s.teamOf g).ctx.part
    let bound := g.arch.bound.find? (fun b => b.1 == p.val)
    (now < (spairOf g p).toNat → Waits (.sleept p w) s gid mask g (.sleept p)) ∧
    ((spairOf g p).toNat ≤ now → (∀ b, bound = some b → look s.ops b.2 = none) →
      Completes (.sleept p w) s gid mask g 15 0 [] (fun _ => onTo (pcOf g mask) 4)) ∧
    (∀ b, (spairOf g p).toNat ≤ now → bound = some b → (look s.ops b.2).isSome = true → g.trapMode = false →
      Traps (.sleept p w) s gid mask g 0x19 (BitVec.ofNat 64 p) mask)) ∧
  (∀ (gid lane p : Nat) (s : State) (g : Group), look s.groups gid = some g → lane < g.arch.lanes.length →
    (g.lane lane).park = some (.sleept p) → g.spair p ≤ s.partClock (s.teamOf g).ctx.part →
    ∃ t g', exec (.sleeptWake gid lane) s = .next t ∧ look t.groups gid = some g' ∧ (g'.lane lane).park = none ∧
      (g'.lane lane).pc = (g.lane lane).pc ∧ (g'.lane lane).v = (g.lane lane).v ∧
      t = { s with groups := put s.groups gid g', drains := t.drains, reduces := t.reduces })

/-- WAITC (R298): a lane whose word meets the condition goes on, one whose word does not is parked, with a monitor on the line where its core has one
free or watches the line already; memory is unchanged but for translation bits. WAITC_REREAD ends a lane's park, to read again. -/
def Sys2Proof.Claims.waitc_results : Prop :=
  (∀ (n : Fin 4) (k : Fin 16) (a d : Fin 32) (w : Fin 8) (s : State) (gid : Nat) (i : Nat) (g : Group) (r : Req) (f : Option Found),
    let x := issueAt { vr := [a.val, d.val], stall := w, rule := .forbidden, drain := true, mem := true } s gid [i] g
    let got := x.s.obtainReads x.team.core [r]
    let met := waitCond n (BitVec.ofNat 32 (ofBytes (got.1.mem.getsUnder r.key r.loc 4))) ((g.lane i).reg d)
    Plain s gid [i] g → Whole g false w 15 → Resident g [i] [a, d] →
      localWord (x.viaCap (g.cap k) i 0 i (((g.lane i).reg a).toNat * 4) 4 permR .read 4 .load) = .ok (r, f) → r.lane = i →
      (g.lane i).park = none → got.2 = true → got.1.groups = s.groups → got.1.badRead x.team.core r = false →
      ∃ t g', exec (.waitc n k a d w) s = .next t ∧ look t.groups gid = some g' ∧ t.mem = (got.1.installAll f.toList).mem ∧
        (g'.lane i).v = (g.lane i).v ∧
        (met = true → (g'.lane i).pc = pcOf g [i] + 4 ∧ (g'.lane i).park = none) ∧
        (met = false → (g'.lane i).pc = (g.lane i).pc ∧ (g'.lane i).park = some .waitc)) ∧
  (∀ (gid lane : Nat) (s : State) (g : Group), look s.groups gid = some g → lane < g.arch.lanes.length →
    (g.lane lane).park = some .waitc →
    ∃ t g', exec (.waitcReread gid lane) s = .next t ∧ look t.groups gid = some g' ∧ (g'.lane lane).park = none ∧
      (g'.lane lane).pc = (g.lane lane).pc ∧ t = { s with groups := put s.groups gid g', drains := t.drains, reduces := t.reduces }) ∧
  (∀ (x c : Word), (waitCond 0 x c = true ↔ x = c) ∧ (waitCond 1 x c = true ↔ x ≠ c) ∧ (waitCond 2 x c = true ↔ c.toNat ≤ x.toNat) ∧
    (waitCond 3 x c = true ↔ x.toNat < c.toNat))

namespace Sys2Proof.Claims

/-- A team of one group whose only unexited lane is lane 0: what a barrier or rendezvous asks of it can be read off. -/
structure Alone (s : State) (gid : Nat) (g : Group) (t : Team) : Prop where
  cur : s.cur = .convoy gid [0]
  plain : Plain s gid [0] g
  one : g.arch.lanes.length = 1
  live : (g.lane 0).exited = false
  team : look s.teams g.team = some t
  groups : t.groups = [gid]
  index : g.isGuide = false

/-- The set of arrivals of a barrier in a state. -/
def arrivalsOf (s : State) (tid b : Nat) : List (Nat × Nat) := ((lookD s.teams tid {}).barrier b).arrived

/-- The completed phases of a barrier in a state. -/
def phaseOf (s : State) (tid b : Nat) : Word := ((lookD s.teams tid {}).barrier b).phase

end Sys2Proof.Claims

/-- BAR, ARRIVE and AWAIT of a team of one lane, whose role the mask names (R299, R300): BAR and ARRIVE complete the phase at once, counted in
PHASE, and the lane goes on; BAR counts it as awaited and sets the convergence counter to 0; AWAIT goes on when the phase count differs from the lane's,
otherwise it parks. -/
def Obligations.barrier_results : Prop :=
  ∀ (b : Fin 16) (m : BitVec 4) (w : Fin 8) (s : State) (gid : Nat) (g : Group) (t : Team), Alone s gid g t → Whole g false w 15 →
    m ≠ 0 → m.getLsbD g.role = true → ((t.barrier b).mask = 0 ∨ (t.barrier b).mask = m) →
    ((t.barrier b).arrived = [] → (g.lane 0).park = none →
      (∃ t' g', exec (.arrive b m w) s = .next t' ∧ look t'.groups gid = some g' ∧ t'.mem = s.mem ∧
        (g'.lane 0).pc = pcOf g [0] + 4 ∧ (g'.lane 0).v = (g.lane 0).v ∧ phaseOf t' g.team b = (t.barrier b).phase + 1 ∧
        arrivalsOf t' g.team b = []) ∧
      ((t.barrier b).phase.toNat % 16 = lookD (g.lane 0).awaited b 0 →
        ∃ t' g', exec (.bar b m w) s = .next t' ∧ look t'.groups gid = some g' ∧ t'.mem = s.mem ∧
          (g'.lane 0).pc = (g.lane 0).pc + 4 ∧ (g'.lane 0).v = (g.lane 0).v ∧ (g'.lane 0).park = none ∧ (g'.lane 0).counter = 0 ∧
          lookD (g'.lane 0).awaited b 0 = (lookD (g.lane 0).awaited b 0 + 1) % 16 ∧
          phaseOf t' g.team b = (t.barrier b).phase + 1 ∧ arrivalsOf t' g.team b = [])) ∧
    ((t.barrier b).phase.toNat % 16 ≠ lookD (g.lane 0).awaited b 0 →
      ∃ t' g', exec (.await b m w) s = .next t' ∧ look t'.groups gid = some g' ∧ t'.mem = s.mem ∧
        (g'.lane 0).pc = pcOf g [0] + 4 ∧ (g'.lane 0).v = (g.lane 0).v ∧
        lookD (g'.lane 0).awaited b 0 = (lookD (g.lane 0).awaited b 0 + 1) % 16) ∧
    ((t.barrier b).phase.toNat % 16 = lookD (g.lane 0).awaited b 0 → Waits (.await b m w) s gid [0] g (.await b))

/-- The decision queue (R169, R170, R301): DQPUSH by the guide appends its decision under the next number while fewer than 64 wait, and parks on a
full queue; DQPOP gives the group's s-register the oldest decision for its role that it has not popped; by the wrong party each traps
ILLEGAL_INSTRUCTION. -/
def Sys2Proof.Claims.decision_queue_results : Prop :=
  (∀ (a : Fin 32) (m : BitVec 4) (w : Fin 8) (s : State) (gid : Nat) (g : Group) (t : Team),
    Plain s gid [0] g → Whole g false w 15 → Resident g [0] [a] → look s.teams g.team = some t →
    (g.isGuide = true → t.dq.length < 64 →
      (s.groupsOf t).any (fun e => e.2.inRole m && !e.2.unexited.isEmpty && decide (e.2.popped ≤ t.dqCount)) = true →
      ∃ t' g', exec (.dqpush a m w) s = .next t' ∧ look t'.groups gid = some g' ∧ t'.mem = s.mem ∧
        (g'.lane 0).pc = pcOf g [0] + 4 ∧ (g'.lane 0).v = (g.lane 0).v ∧
        (lookD t'.teams g.team {}).dqCount = t.dqCount + 1 ∧
        (lookD t'.teams g.team {}).dq.getLast? = some { seq := t.dqCount, value := (g.lane 0).reg a, mask := m }) ∧
    (g.isGuide = true → 64 ≤ t.dq.length → Waits (.dqpush a m w) s gid [0] g .dqpush) ∧
    (g.isGuide = false → g.trapMode = false → Traps (.dqpush a m w) s gid [0] g 0x01 s.fetched [0])) ∧
  (∀ (p : Fin 256) (w : Fin 8) (s : State) (gid : Nat) (g : Group) (t : Team) (d : Decision), Alone s gid g t → Whole g false w 15 →
    t.dq.find? (fun d => g.inRole d.mask && decide (g.arch.dqPos ≤ d.seq)) = some d →
    ∃ t' g', exec (.dqpop p w) s = .next t' ∧ look t'.groups gid = some g' ∧ t'.mem = s.mem ∧
      g'.sreg p = d.value ∧ g'.arch.dqPos = d.seq + 1 ∧ (∀ q, q ≠ p.val → g'.sreg q = g.sreg q) ∧
      (g'.lane 0).pc = pcOf g [0] + 4 ∧ (g'.lane 0).v = (g.lane 0).v ∧ (g'.lane 0).counter = 0) ∧
  (∀ (p : Fin 256) (w : Fin 8) (s : State) (gid : Nat) (mask : List Nat) (g : Group), Plain s gid mask g → Whole g false w 15 →
    g.isGuide = true → g.trapMode = false → Traps (.dqpop p w) s gid mask g 0x01 s.fetched mask)

/-- RVZ (R303): with no program queued or running on a named sequencer and no fault recorded the lanes go on; with one they park; a recorded fault
traps ENGINE_FAULT and is consumed (R174). -/
def Sys2Proof.Claims.rvz_results : Prop :=
  ∀ (q w : Fin 8) (s : State) (gid : Nat) (mask : List Nat) (g : Group) (t : Team), Plain s gid mask g → Whole g false w 15 →
    look s.teams g.team = some t →
    ((∀ n ∈ seqsIn q, t.busyOn n = false ∧ (t.seq n).fault = none) →
      Completes (.rvz q w) s gid mask g 15 0 [] (fun _ => onTo (pcOf g mask) 4)) ∧
    ((∃ n ∈ seqsIn q, t.busyOn n = true) → Waits (.rvz q w) s gid mask g (.rvz q)) ∧
    (∀ n c, seqsIn q = [n] → t.busyOn n = false → (t.seq n).fault = some c → g.trapMode = false →
      ∃ t' g', exec (.rvz q w) s = .next t' ∧ look t'.groups gid = some g' ∧ t'.mem = s.mem ∧ g'.trapMode = true ∧
        g'.tcause = 0x1A ∧ g'.taddr = engineFaultAddr 2 c (2 ^ n) ∧ g'.tpc = pcOf g mask ∧ g'.tmask = maskOf mask ∧
        ((lookD t'.teams g.team {}).seq n).fault = none)

/-- EXIT (R304): the lanes of the convoy have ended; where another lane of the group has not, the group stands as before but for them. -/
def Sys2Proof.Claims.exit_results : Prop :=
  ∀ (s : State) (gid : Nat) (mask : List Nat) (g : Group) (t : Team) (k : Nat), Plain s gid mask g → Whole g true 0 15 →
    g.trapMode = false → look s.teams g.team = some t → t.groups = [gid] → t.barriers = [] → t.dq = [] → g.isGuide = false → t.guide = none →
    k < g.arch.lanes.length → k ∉ mask → (g.lane k).exited = false → (∀ i < g.arch.lanes.length, (g.lane i).park = none) →
    ∃ t' g', exec .exit s = .next t' ∧ look t'.groups gid = some g' ∧ t'.mem = s.mem ∧
      (∀ i ∈ mask, (g'.lane i).exited = true) ∧ (g'.lane k).exited = false ∧ (g'.lane k).pc = (g.lane k).pc ∧ (g'.lane k).v = (g.lane k).v ∧
      g'.caps = g.caps ∧ g'.arch.sregs = g.arch.sregs

namespace Sys2Proof.Claims

/-- Memory as one key reads it, after an access. -/
def storedBy (r : Req) (new : Option (List Byte)) (m : Nat → Byte) : Nat → Byte := fun k =>
  match new with
  | some l => if r.loc ≤ k ∧ k < r.loc + l.length then (l[k - r.loc]?).getD 0 else m k
  | none => m k

/-- Accesses one after another (R107, R279): what each returns, and memory after the last. -/
def inOrder (m : Nat → Byte) (rs : List Req) : List (Nat × Nat × List Byte) × (Nat → Byte) :=
  match rs with
  | [] => ([], m)
  | r :: rest =>
    let y := r.what.apply ((span r.loc r.size).map m)
    let z := inOrder (storedBy r y.2 m) rest
    ((r.lane, r.part, y.1) :: z.1, z.2)

/-- A checked list of accesses that an instruction may perform in its core's L1 or in scratch: every lane's check passed, none is of the drain
kind, all are under one key, the core holds what they need once it has asked for it, no group in outrider mode has read their lines
(`store_rolls_readers_back` says what happens to one that has), and no granule is uncorrectable. -/
structure Granted (x : Issue) (reqs : List (Nat × Checked)) (rs : List (Req × Option Found)) (key : Nat) : Prop where
  checked : reqs = rs.map (fun r => (r.1.lane, .ok r))
  near : ∀ r ∈ rs, r.1.drains = false
  one : ∀ r ∈ rs, r.1.key = key ∧ (r.1.x = none → key = 0)
  held : (x.s.obtainAll x.team.core (byUnit (rs.map (·.1))) false).holdsFor x.team.core (byUnit (rs.map (·.1))) false = true
  same : (x.s.obtainAll x.team.core (byUnit (rs.map (·.1))) false).groups = x.s.groups
  apart : ∀ r ∈ rs, r.1.x.isSome = true → r.1.loc + r.1.size ≤ scratchBase
  unread : ∀ e ∈ x.s.groups, ∀ ep, e.2.epoch = some ep → ∀ n ∈ ep.reads, ∀ r ∈ rs, n < lineOf r.1.loc ∨ lineOf (r.1.loc + r.1.size - 1) < n
  canonical : x.s.mem.wf = true
  sound : (x.s.obtainAll x.team.core (byUnit (rs.map (·.1))) false).mem.bad = [] ∧ (x.s.obtainAll x.team.core (byUnit (rs.map (·.1))) false).mem.badWords = []

/-- The memory an instruction's accesses begin with: after the core has obtained its lines and the A and D bits are set (R23, R24). -/
def memBefore (x : Issue) (rs : List (Req × Option Found)) : Memory :=
  ((x.s.obtainAll x.team.core (byUnit (rs.map (·.1))) false).installAll (rs.filterMap (·.2))).mem

/-- A memory instruction with these checked accesses completes: each lane takes what its accesses return, in the registers the form gives; the
bytes its accesses store are stored, in lane order, and every other byte of memory is as it was; nothing else of the group's registers
changes but the flag it names. -/
def Accesses (i : Instr) (fm : Form) (place : Place) (regs : List Nat) (reqs : Issue → List (Nat × Checked))
    (s : State) (gid : Nat) (mask : List Nat) (g : Group) : Prop :=
  let x := issueAt fm s gid mask g
  ∀ (rs : List (Req × Option Found)) (key : Nat), Granted x (reqs x) rs key → (∀ l ∈ mask, ∃ r ∈ rs, r.1.lane = l) → g.partdone = 0 →
    (∀ r ∈ rs, ∀ f, r.2 = some f → f.ad = none) →
    let qs := byUnit (rs.map (·.1))
    let y := inOrder (fun k => x.s.mem.getUnder key k) qs
    memBefore x rs = x.s.mem →
    ∃ t g', exec i s = .next t ∧ look t.groups gid = some g' ∧
      (∀ k, t.mem.getUnder key k = y.2 k) ∧
      (∀ k, (∀ r ∈ qs, granule k < granule r.loc ∨ granule (r.loc + r.size - 1) < granule k) → t.mem.get k = x.s.mem.get k) ∧
      (∀ l ∈ mask, (g'.lane l).pc = pcOf g mask + 4 ∧
        (g'.lane l).v = ((regs.zip (place.words (bytesOf y.1 l))).foldl (fun a w => a.setReg w.1 w.2) (g.lane l)).v ∧
        (g'.lane l).p1 = (g.lane l).p1 ∧ (g'.lane l).p2 = (g.lane l).p2 ∧ (g'.lane l).p3 = (g.lane l).p3) ∧
      (∀ l < g.arch.lanes.length, l ∉ mask → (g'.lane l).pc = (g.lane l).pc ∧ (g'.lane l).v = (g.lane l).v) ∧
      g'.arch.sregs = g.arch.sregs ∧ g'.caps = g.caps ∧ g'.arch.fpcsr = g.arch.fpcsr ∧ g'.trapMode = g.trapMode ∧
      g'.flags = (if fm.flag < 12 then put g.flags fm.flag (g.flag fm.flag + 1) else g.flags)

/-- The bytes a store of SIZE z takes from a lane's registers from d (R262). -/
def storeData (l : Lane) (d z : Nat) : List Byte :=
  ((span d (max 1 (2 ^ z / 4))).flatMap (fun r => toBytes 4 (l.reg r).toNat)).take (2 ^ z)

/-- The accesses of a load or store through a capability: `idx` units of 2^z bytes from its base. -/
def capReqs (c i z perm : Nat) (a : Access) (what : Lane → What) (x : Issue) : List (Nat × Checked) :=
  x.act.map (fun l => (l, x.viaCap (x.g.cap c) l 0 l (((x.g.lane l).reg i).toNat * 2 ^ z) (2 ^ z) perm a (2 ^ z) (what (x.g.lane l))))

/-- The accesses of a scratch load or store. -/
def scratchReqs (i z : Nat) (what : Lane → What) (x : Issue) : List (Nat × Checked) :=
  x.act.map (fun l => (l, x.viaScratch l ((x.g.lane l).reg i) (2 ^ z) (what (x.g.lane l))))

/-- The registers a value of SIZE z takes from d. -/
def valueRegs (d z : Nat) : List Nat := span d (max 1 (2 ^ z / 4))

/-- A load's form, for the flag and STALL it carries. -/
def loadAs (d i z f w : Nat) : Form :=
  { vr := [i], vw := valueRegs d z, wide := if z ≤ 2 then [] else [(d, 2 ^ z / 4)], varLat := true, flag := f, stall := w, mem := true }

/-- A store's form. -/
def storeAs (d i z f w : Nat) : Form :=
  { vr := i :: valueRegs d z, wide := if z ≤ 2 then [] else [(d, 2 ^ z / 4)], varLat := true, flag := f, stall := w, mem := true }

end Sys2Proof.Claims

/-- LD, LD.s and ST on cached pages, LDS, LDS.s and STS on scratch (R262, R263, R265): each lane's access is 2^SIZE bytes at index × size from
the capability's base, or at its scratch address; loads place and extend their values as R262 gives; stores write the low bytes of their registers in lane
order, so the highest LANEID's bytes stand (R107); every byte not stored to is unchanged. -/
def Obligations.load_store_results : Prop :=
  ∀ (d i : Fin 32) (z : Fin 8) (f : Fin 16) (w : Fin 8) (s : State) (gid : Nat) (mask : List Nat) (g : Group),
    z.val ≤ 4 → (z.val ≤ 2 ∨ (z.val = 3 ∧ d.val % 2 = 0) ∨ (z.val = 4 ∧ d.val % 4 = 0)) →
    Plain s gid mask g → Whole g false w f → Resident g mask (i.val :: valueRegs d z) →
    (∀ c : Fin 16,
      Accesses (.ld d c i z f w) (loadAs d i z f w) (.plain false) (valueRegs d z) (capReqs c i z permR .read (fun _ => .load)) s gid mask g ∧
      (z.val ≤ 1 → Accesses (.ldS d c i z f w) (loadAs d i z f w) (.plain true) (valueRegs d z)
        (capReqs c i z permR .read (fun _ => .load)) s gid mask g) ∧
      Accesses (.st d c i z f w) (storeAs d i z f w) .none [] (capReqs c i z permW .write (fun l => .store (storeData l d z))) s gid mask g) ∧
    Accesses (.lds d i z f w) (loadAs d i z f w) (.plain false) (valueRegs d z) (scratchReqs i z (fun _ => .load)) s gid mask g ∧
    (z.val ≤ 1 → Accesses (.ldsS d i z f w) (loadAs d i z f w) (.plain true) (valueRegs d z) (scratchReqs i z (fun _ => .load)) s gid mask g) ∧
    Accesses (.sts d i z f w) (storeAs d i z f w) .none [] (scratchReqs i z (fun l => .store (storeData l d z))) s gid mask g

/-- LDMX and STMX on cached pages (R266 to R268): each lane's piece and scale byte; pieces of one block together, blocks in the order of their lowest
lanes. -/
def Sys2Proof.Claims.mx_block_results : Prop :=
  ∀ (d : Fin 32) (c : Fin 16) (i : Fin 32) (z : Fin 8) (f : Fin 16) (w : Fin 8) (s : State) (gid : Nat) (mask : List Nat) (g : Group),
    5 ≤ z.val → d.val % 2 = 0 → c.val < 15 → Plain s gid mask g → Whole g false w f → Resident g mask [i, d, d + 1] →
    Accesses (.ldmx d c i z f w)
      { vr := [i.val], vw := [d.val, d + 1], wide := [(d.val, 2)], varLat := true, flag := f, stall := w, mem := true } (.mx z) [d, d + 1]
      (fun x => x.act.flatMap (fun l => x.mxReqs c i z l permR .read [] 0)) s gid mask g ∧
    Accesses (.stmx d c i z f w)
      { vr := [i.val, d.val, d + 1], wide := [(d.val, 2)], varLat := true, flag := f, stall := w, mem := true } .none []
      (fun x => x.act.flatMap (fun l =>
        x.mxReqs c i z l permW .write (mxPack z ((x.g.lane l).reg d)) (((x.g.lane l).reg (d + 1)).truncate 8))) s gid mask g

/-- The words and bytes of an MX piece (R186, R267): FP8, INT8 and FP4 pieces are the register's bytes; an FP6 piece holds four elements of six
bits, spread over the four bytes of the register with the two high bits of each zero; what LDMX brings in, STMX packs again. -/
def Sys2Proof.Claims.mx_piece_layout : Prop :=
  (∀ z w, z ≠ 6 → mxPack z w = toBytes 4 w.toNat) ∧
  (∀ w : Word, ∃ b : List Byte, mxPack 6 w = b ∧ b.length = 3 ∧
    ∀ i < 4, ofBytes b / 2 ^ (6 * i) % 64 = w.toNat / 2 ^ (8 * i) % 64) ∧
  (∀ (v i : Nat), v < 2 ^ 24 → i < 4 → mxSpread 6 v / 2 ^ (8 * i) % 256 = v / 2 ^ (6 * i) % 64) ∧
  (∀ v : Nat, v < 2 ^ 24 → mxPack 6 (BitVec.ofNat 32 (mxSpread 6 v)) = toBytes 3 v)

namespace Sys2Proof.Claims

/-- The accesses of an atomic's lanes. -/
def atomicReqs (o c a d : Nat) (z ms : Bool) (perm : Nat) (x : Issue) : List (Nat × Checked) :=
  x.act.map (fun l =>
    let v := x.g.lane l
    let n := if z then 8 else 4
    let val : DWord := if z then pairOf v d else (v.reg d).zeroExtend 64
    let cmp : DWord := if o = 1 then (if z then pairOf v (d + 2) else (v.reg (d + 1)).zeroExtend 64) else 0
    (l, x.viaCap (x.g.cap c) l 0 l ((v.reg a).toNat * n) n perm .atomic n (.atomic o z ms val cmp)))

end Sys2Proof.Claims

/-- ATOM on cached pages (R278 to R280): lanes apply in ascending LANEID, each seeing its predecessor's value; with a flag named each lane's first
register or pair takes the old value. -/
def Sys2Proof.Claims.atomic_results : Prop :=
  ∀ (o : Fin 16) (z : Bool) (c : Fin 16) (a d : Fin 32) (f : Fin 16) (w : Fin 8) (s : State) (gid : Nat) (mask : List Nat) (g : Group),
    (Instr.atom o z c a d f w).wf = true → Plain s gid mask g → Whole g false w f → Resident g mask (a.val :: atomRegs o d z) →
    Accesses (.atom o z c a d f w) (atomForm o d a f w z) (if f.val < 12 then .plain false else .none)
      (if f.val < 12 then span d (if z then 2 else 1) else [])
      (atomicReqs o c a d z false (permR + permW + permATOM)) s gid mask g

/-- What an atomic of an operation makes of the old value (R83): its result, wrapped to its size, for the integer operations; here the 32-bit
ones. -/
def Sys2Proof.Claims.atomic_operations : Prop :=
  ∀ (x v cmp : Word) (ms : Bool),
    let op := fun (o : Nat) => (What.atomic o false ms (v.zeroExtend 64) (cmp.zeroExtend 64)).apply (toBytes 4 x.toNat)
    let gives := fun (o : Nat) (r : Word) => op o = (toBytes 4 x.toNat, some (toBytes 4 r.toNat))
    gives 0 v ∧ gives 1 (if x = cmp then v else x) ∧ gives 2 (x + v) ∧ gives 3 (if v.toNat ≤ x.toNat then 0 else x + 1) ∧
    gives 4 (if x.toInt ≤ v.toInt then x else v) ∧ gives 5 (if v.toInt ≤ x.toInt then x else v) ∧
    gives 6 (if x.toNat ≤ v.toNat then x else v) ∧ gives 7 (if v.toNat ≤ x.toNat then x else v) ∧
    gives 8 (x &&& v) ∧ gives 9 (x ||| v) ∧ gives 10 (x ^^^ v)

namespace Sys2Proof.Claims

/-- No group in trap mode is in outrider mode (`no_epoch_in_trap_mode` says that every step keeps this), and no monitor watches for this group:
what a write to the violation log sets off leaves the group alone. -/
def Undisturbed (s : State) (gid : Nat) : Prop :=
  (∀ e ∈ s.groups, e.2.epoch.isSome = true → e.2.trapMode = false) ∧ ∀ m ∈ s.monitors, m.gid ≠ gid

/-- An instruction that writes capability register n and nothing else of its group's registers. -/
def WritesCap (i : Instr) (s : State) (gid : Nat) (mask : List Nat) (g : Group) (flag n : Nat) (c : Cap) (m : Memory) : Prop :=
  ∃ t g', exec i s = .next t ∧ look t.groups gid = some g' ∧ t.mem = m ∧ g'.caps = g.caps.set n c ∧
    (∀ l ∈ mask, (g'.lane l).pc = pcOf g mask + 4 ∧ (g'.lane l).v = (g.lane l).v) ∧
    g'.arch.sregs = g.arch.sregs ∧ g'.arch.fpcsr = g.arch.fpcsr ∧ g'.trapMode = g.trapMode ∧
    g'.flags = (if flag < 12 then put g.flags flag (g.flag flag + 1) else g.flags)

/-- A capability instruction without a memory access: it writes its destination, which outside trap mode is not c0, or traps with the cause and
the address of its failure, and the failure is logged (R49, R270). -/
def Derives (mk : Fin 8 → Instr) (d owner : Nat) (r : Except (Cause × Nat) Cap) (s : State) (gid : Nat) (mask : List Nat) (g : Group) : Prop :=
  ∀ w : Fin 8, Whole g false w 15 →
    (∀ c, r = .ok c → d ≠ 0 ∨ g.trapMode = true → WritesCap (mk w) s gid mask g 15 d c s.mem) ∧
    (d = 0 → g.trapMode = false → Traps (mk w) s gid mask g 0x01 s.fetched mask) ∧
    (∀ k a, r = .error (k, a) → d ≠ 0 → g.trapMode = false → Undisturbed s gid →
      ∃ t g', exec (mk w) s = .next t ∧ look t.groups gid = some g' ∧
        TrapTaken g g' mask k.code (BitVec.ofNat 64 a) (pcOf g mask) mask ∧
        t.mem = (s.logLanes g (pcOf g mask) [(k, BitVec.ofNat 64 a, owner, mask)]).mem)

end Sys2Proof.Claims

/-- CNARROW, CRESTR, CSEAL and CSEAL.un (R273, R274, R276) write the derived capability or trap; the derivation functions are described in
`derivation_never_widens`. A base of 2^57 is CAP_BOUNDS (the model's choice, log entry 116). -/
def Sys2Proof.Claims.capability_derivation_results : Prop :=
  ∀ (s : State) (gid : Nat) (mask : List Nat) (g : Group), Plain s gid mask g →
    (∀ (d c : Fin 16) (i : Fin 32), Derives (.cnarrow d c i) d (g.cap c).owner
      (narrow (g.cap c) (spairOf g i).toNat (spairOf g (i + 2 : Nat)).toNat) s gid mask g) ∧
    (∀ (d c : Fin 16) (i : Fin 32), Derives (.crestr d c i) d (g.cap c).owner
      (restrict (g.cap c) (g.sreg i).toNat (s.teamOf g).cluster
        (s.inScope { ctx := (s.teamOf g).ctx, cluster := (s.teamOf g).cluster, core := (s.teamOf g).core, guide := g.isGuide, team := g.team }
          (g.cap c))) s gid mask g) ∧
    (∀ d c a : Fin 16, Derives (.cseal d c a) d (g.cap c).owner (sealCap (g.cap c) (g.cap a)) s gid mask g) ∧
    (∀ d c a : Fin 16, Derives (.csealUn d c a) d (g.cap c).owner (unsealCap (g.cap c) (g.cap a)) s gid mask g)

/-- No derivation widens (R42, R273, R274): what CNARROW gives lies within its source's bounds with the source's permissions, scope and owner;
what CRESTR gives keeps base, length and owner, and has no permission and no wider scope than its source; sealing and unsealing keep
all four. -/
def Sys2Proof.Claims.derivation_never_widens : Prop :=
  (∀ (c r : Cap) (b n : Nat), b < 2 ^ 57 → narrow c b n = .ok r →
    c.tag = true ∧ r.tag = true ∧ c.base ≤ r.base ∧ r.base = b ∧ b + n ≤ r.limit ∧ r.limit ≤ c.limit ∧ r.perms = c.perms ∧
      r.scope = c.scope ∧ r.owner = c.owner ∧ r.otype = c.otype ∧ r.anchor = c.anchor) ∧
  (∀ (c r : Cap) (m cl : Nat) (p : Bool), restrict c m cl p = .ok r →
    c.tag = true ∧ r.tag = true ∧ r.base = c.base ∧ r.limit = c.limit ∧ r.perms &&& c.perms = r.perms ∧ r.perms &&& (m % 2 ^ 9) = r.perms ∧
      r.scope ≤ c.scope ∧ r.owner = c.owner ∧ r.otype = c.otype) ∧
  (∀ c a r : Cap, sealCap c a = .ok r →
    c.otype = 0 ∧ a.has permSEAL = true ∧ a.otype = 0 ∧ r.otype = a.base ∧ 1 ≤ r.otype ∧ r.base = c.base ∧ r.limit = c.limit ∧ r.perms = c.perms ∧
      r.scope = c.scope ∧ r.owner = c.owner ∧ r.tag = c.tag) ∧
  (∀ c a r : Cap, unsealCap c a = .ok r →
    c.otype ≠ 0 ∧ a.has permSEAL = true ∧ a.base ≤ c.otype ∧ c.otype < a.limit ∧ r.otype = 0 ∧ r.base = c.base ∧ r.limit = c.limit ∧
      r.perms = c.perms ∧ r.scope = c.scope ∧ r.owner = c.owner ∧ r.tag = c.tag)

/-- CGET and CTEST (R275, R277): one field of a capability to every active lane's register, one test to every active lane's predicate; they trap
on nothing. -/
def Sys2Proof.Claims.capability_query_results : Prop :=
  ∀ (c k : Fin 16) (w : Fin 8) (s : State) (gid : Nat) (mask : List Nat) (g : Group), Plain s gid mask g → Whole g false w 15 →
    (∀ (d : Fin 32) (z : Fin 8), Resident g mask [d] →
      Completes (.cget d c z w) s gid mask g 15 0 [] (fun _ => wrote g mask 4 d (fun _ => (g.cap c).get z))) ∧
    (∀ p : Fin 4,
      Completes (.ctestTag p c w) s gid mask g 15 0 [] (fun _ => judged g mask p (fun _ => (g.cap c).tag)) ∧
      Completes (.ctestUnsealed p c w) s gid mask g 15 0 []
        (fun _ => judged g mask p (fun _ => (g.cap c).tag && decide ((g.cap c).otype = 0))) ∧
      Completes (.ctestSub p c k w) s gid mask g 15 0 [] (fun _ => judged g mask p (fun _ => (g.cap c).subset (g.cap k)))) ∧
    (∀ (p : Fin 4) (i : Fin 32) (z : Fin 8), Resident g mask [i] →
      Completes (.ctestIn p c i z w) s gid mask g 15 0 []
        (fun _ => judged g mask p (fun l => (g.cap c).tag && decide ((g.cap c).base + (l.reg i).toNat * 2 ^ z.val + 2 ^ z.val ≤ (g.cap c).limit))))

/-- CLOAD and CSTORE on a cached capability page (R271, R272): the sixteen bytes with their tag as one access; a foreign owner's capability comes
without its tag; a GROUP capability is not stored (CAP_SCOPE). -/
def Sys2Proof.Claims.capability_memory_results : Prop :=
  ∀ (d c : Fin 16) (i : Fin 32) (f : Fin 16) (w : Fin 8) (s : State) (gid : Nat) (mask : List Nat) (g : Group) (r : Req) (x : Found),
    Plain s gid mask g → Whole g false w f → g.partdone = 0 → r.drains = false → x.ad = none → s.mem.wf = true →
    (let y := issueAt (capForm [i.val] f w true) s gid mask g
     let s1 := s.obtainAll (s.teamOf g).core [r] false
     y.granuleReq c i permR .capLoad .load = .ok (r, some x) → s1.holdsFor (s.teamOf g).core [r] false = true →
     s1.badRead (s.teamOf g).core r = false →
     s1.groups = s.groups → d.val ≠ 0 ∨ g.trapMode = true →
     let bits := BitVec.ofNat 128 (ofBytes (s1.mem.getsUnder r.key r.loc 16))
     let v : Cap := { bits := bits, tag := s1.mem.tag (granule r.loc) }
     WritesCap (.cload d c i f w) s gid mask g f d { v with tag := v.tag && (v.owner == (g.cap 0).owner) } (s1.installAll [x]).mem) ∧
    (let y := issueAt { sr := [i.val], flag := f, stall := w, varLat := decide (f.val < 12), mem := true } s gid mask g
     let s1 := s.obtainAll (s.teamOf g).core [r] false
     let v := g.cap d
     y.granuleReq c i permW .capStore (.store (toBytes 16 v.bits.toNat)) = .ok (r, some x) →
     s1.holdsFor (s.teamOf g).core [r] false = true → s1.groups = s.groups → s1.mem = s.mem → r.loc % 16 = 0 → r.loc + 16 ≤ scratchBase →
     (∀ e ∈ s.groups, ∀ ep, e.2.epoch = some ep → ep.reads = []) → ¬ (v.tag = true ∧ v.scope = 0) →
     ∃ t g', exec (.cstore d c i f w) s = .next t ∧ look t.groups gid = some g' ∧ g'.caps = g.caps ∧
       (∀ k, t.mem.getUnder r.key k = if r.loc ≤ k ∧ k < r.loc + 16 then ((toBytes 16 v.bits.toNat)[k - r.loc]?).getD 0 else s.mem.getUnder r.key k) ∧
       t.mem.tag (granule r.loc) = v.tag ∧ (∀ n, n ≠ granule r.loc → t.mem.tag n = s.mem.tag n) ∧
       (∀ l ∈ mask, (g'.lane l).pc = pcOf g mask + 4 ∧ (g'.lane l).v = (g.lane l).v) ∧ g'.arch.sregs = g.arch.sregs)

/-- PREF (R269) changes no register, flag or place of its group but the address of its next instruction. -/
def Sys2Proof.Claims.prefetch_results : Prop :=
  ∀ (c : Fin 16) (i : Fin 32) (z w : Fin 8) (s : State) (gid : Nat) (mask : List Nat) (g : Group),
    Plain s gid mask g → Whole g false w 15 → Resident g mask [i] → (∀ e ∈ s.groups, e.2.epoch = none) → s.monitors = [] →
    ∃ t g', exec (.pref c i z w) s = .next t ∧ look t.groups gid = some g' ∧
      (∀ l ∈ mask, (g'.lane l).pc = pcOf g mask + 4 ∧ (g'.lane l).v = (g.lane l).v) ∧ g'.arch.sregs = g.arch.sregs ∧ g'.caps = g.caps ∧
      g'.flags = g.flags ∧ g'.trapMode = g.trapMode

/-- CHECK_CAP asks, in this order, for the tag, the scope, the seal and the permissions, the bounds (R45, R46): what passes lies within the
capability, and each failure names its cause. -/
def Sys2Proof.Claims.check_order : Prop :=
  ∀ (s : State) (rq : Requester) (c : Cap) (perm off n : Nat),
    (c.tag = false → s.checkCap rq c perm off n = .error (.cause .capTag 0 (some c.owner))) ∧
    (c.tag = true → s.inScope rq c = false → s.checkCap rq c perm off n = .error (.cause .capScope (BitVec.ofNat 64 c.base) (some c.owner))) ∧
    (c.tag = true → c.scope < 5 → s.inScope rq c = true → (c.otype ≠ 0 ∨ c.has perm = false) →
      s.checkCap rq c perm off n = .error (.cause .capPermission (BitVec.ofNat 64 c.base) (some c.owner))) ∧
    (∀ gva, s.checkCap rq c perm off n = .ok gva →
      gva = c.base + off ∧ gva + n ≤ c.limit ∧ c.tag = true ∧ c.otype = 0 ∧ c.has perm = true ∧ s.inScope rq c = true)

/-- A bound broken traps: an LD one of whose lanes reaches past its capability's limit, while every other lane's check passes, changes no register or
byte of memory but the log's, and traps CAP_BOUNDS for that lane (R45, R49, R261). -/
def Sys2Proof.Claims.out_of_bounds_traps : Prop :=
  ∀ (d : Fin 32) (c : Fin 16) (i : Fin 32) (z : Fin 8) (f : Fin 16) (w : Fin 8) (s : State) (gid : Nat) (l : Nat) (g : Group),
    let k := g.cap c
    let gva := k.base + ((g.lane l).reg i).toNat * 2 ^ z.val
    z.val ≤ 2 → Plain s gid [l] g → Whole g false w f → Resident g [l] [i, d] → g.partdone = 0 → g.trapMode = false →
    k.tag = true → k.scope = 3 → k.otype = 0 → k.has permR = true → k.limit < gva + 2 ^ z.val → Undisturbed s gid →
    ∃ t g', exec (.ld d c i z f w) s = .next t ∧ look t.groups gid = some g' ∧
      TrapTaken g g' [l] 0x08 (BitVec.ofNat 64 gva) (pcOf g [l]) [l] ∧
      t.mem = (s.logLanes g (pcOf g [l]) [(.capBounds, BitVec.ofNat 64 gva, k.owner, [l])]).mem

namespace Sys2Proof.Claims

/-- No group in trap mode is in outrider mode (`no_epoch_in_trap_mode` says that every step keeps this). -/
def Orderly (s : State) : Prop := ∀ e ∈ s.groups, e.2.epoch.isSome = true → e.2.trapMode = false

/-- Word n of the command block from s(4k) (R313). -/
def blockWord (g : Group) (k : Fin 64) (n : Nat) : Nat := (g.sreg (4 * k.val + n)).toNat

/-- The party for whom a group's engine command is checked (R47). -/
def commandFor (s : State) (gid : Nat) (mask : List Nat) (g : Group) (collective : Bool) : Requester :=
  (issueAt {} s gid mask g).engineReq collective

/-- A group that has given a command to an engine: the lanes go on, the named flag has risen, and nothing else has changed but the result
registers the command has. -/
structure GivenBy (g g' : Group) (mask : List Nat) (flag : Nat) (results : List Nat) : Prop where
  lanes : ∀ i < g.arch.lanes.length, (g'.lane i).v = (g.lane i).v ∧ (g'.lane i).pc = if i ∈ mask then pcOf g mask + 4 else (g.lane i).pc
  caps : g'.caps = g.caps
  mode : g'.trapMode = g.trapMode
  fpcsr : g'.arch.fpcsr = g.arch.fpcsr
  flags : g'.flags = if flag < 12 then put g.flags flag (g.flag flag + 1) else g.flags
  sregs : ∀ q, q ∉ results → g'.sreg q = g.sreg q

/-- The operations as they were, but for what has been told of the progress of copies. -/
def OpsTold (a b : Store EngineOp) : Prop := a.map (fun e => (e.1, { e.2 with least := 0 })) = b.map (fun e => (e.1, { e.2 with least := 0 }))

end Sys2Proof.Claims

/-- COPY outside outrider mode with its fields in range, its checks passed, no conflict and no earlier command of its group waiting (R128, R130,
R313, R341, R343): one operation is
registered with the ranges of R342 and the block's values; its promise is written to the pair, which is bound to it. Before any other operation is
registered the promise is CLOCK + ceil(MARGIN × (LAT + N / RATE) / 16). -/
def Sys2Proof.Claims.copy_results : Prop :=
  ∀ (k : Fin 64) (a b f : Fin 16) (w : Fin 8) (s : State) (gid : Nat) (mask : List Nat) (g : Group) (tm : Team) (srcs dsts : List Range),
    (Instr.copy k a b f w).wf = true → Plain s gid mask g → Whole g false w f → Undisturbed s gid → look s.teams g.team = some tm →
    let d := copyDesc (blockWord g k)
    let pair := 4 * k.val + 6
    (copyBad (blockWord g k) false).any id = false →
    s.copyRanges (commandFor s gid mask g false) d (g.cap a) (g.cap b) = .ok (srcs, dsts) →
    s.blocked tm.ctx srcs dsts (fun _ => false) = false → s.hasEntry tm.core true = true → g.waitsBefore mask = false →
    ∃ t g' o, exec (.copy k a b f w) s = .next t ∧ look t.groups gid = some g' ∧ GivenBy g g' mask f [pair, pair + 1] ∧
      look t.ops s.nextId = some o ∧ o.kind = .copy d ∧ o.srcs = srcs ∧ o.dsts = dsts ∧ o.capA = g.cap a ∧ o.capB = g.cap b ∧
      o.ctx = tm.ctx ∧ o.gid = gid ∧ o.flag = f.val ∧ o.state = .live ∧ o.bytes = d.rows * d.rbytes ∧
      g'.sreg pair = BitVec.ofNat 32 o.promise ∧ g'.sreg (pair + 1) = BitVec.ofNat 32 (o.promise / 2 ^ 32) ∧
      (pair, s.nextId) ∈ g'.arch.bound ∧
      (s.ops = [] → let p := (s.core tm.core).predictor o.cls
        o.promise = (s.partClock tm.ctx.part + p.ahead p.lat (d.rows * d.rbytes)) % 2 ^ 64) ∧
      ((∀ r ∈ srcs ++ dsts, r.scratch = true) → t.mem = s.mem)

/-- What a copy moves (R342): the fields of the block, where row r of each side lies, and the prediction of R343 in exact arithmetic. -/
def Sys2Proof.Claims.copy_rows_and_prediction : Prop :=
  (∀ (w : Nat → Nat), let d := copyDesc w
    d.kind = w 0 % 4 ∧ (d.ssp = true ↔ w 0 / 4 % 2 = 1) ∧ (d.dsp = true ↔ w 0 / 8 % 2 = 1) ∧ d.rows = w 0 / 256 % 65536 ∧
    d.soff = w 1 ∧ d.doff = w 2 ∧ d.rbytes = w 3 ∧
    ((copyBad w false).any id = false → 1 ≤ d.rows ∧ d.soff % 16 = 0 ∧ d.doff % 16 = 0 ∧ d.rbytes % 16 = 0 ∧ 16 ≤ d.rbytes ∧ d.rbytes ≤ 2 ^ 24 ∧
      (d.kind = 0 → d.rows = 1) ∧ (d.kind = 1 → d.sstride % 16 = 0 ∧ d.dstride % 16 = 0))) ∧
  (∀ (d : CopyDesc) (r x : Nat),
    (d.kind = 1 → d.row false r x = d.soff + r * d.sstride ∧ d.row true r x = d.doff + r * d.dstride) ∧
    (d.kind = 2 → d.row false r x = d.soff + x * d.rbytes ∧ d.row true r x = d.doff + r * d.dstride) ∧
    (d.kind = 3 → d.row false r x = d.soff + r * d.sstride ∧ d.row true r x = d.doff + x * d.rbytes)) ∧
  (∀ (p : Predictor) (lat n : Nat), 0 < p.rateNum →
    p.margin * (lat * p.rateNum + n * p.rateDen) ≤ 16 * p.rateNum * p.ahead lat n ∧
    16 * p.rateNum * p.ahead lat n < p.margin * (lat * p.rateNum + n * p.rateDen) + 16 * p.rateNum) ∧
  (∀ (p : Predictor) (n t pr : Nat), pr < t → (p.learn n t pr).margin = min (p.margin + 4) 64 ∧ (p.learn n t pr).early = 0) ∧
  (∀ (p : Predictor) (n t pr : Nat), t ≤ pr → 3 * pr ≤ 4 * t → (p.learn n t pr).margin = p.margin ∧ (p.learn n t pr).early = 0) ∧
  (∀ (p : Predictor) (n t pr : Nat), 4 * t < 3 * pr → p.early < 15 →
    (p.learn n t pr).margin = p.margin ∧ (p.learn n t pr).early = p.early + 1)

/-- COPYQ (R344): for an unbound pair the present CLOCK; for a bound copy the remaining time predicted anew, the binding kept. Nothing else
changes but what has been told of the progress of copies (R319), and it never traps. XF 63 names no pair there is, and the instruction only goes on (the model's choice, log entry 18). -/
def Sys2Proof.Claims.copyq_results : Prop :=
  ∀ (k : Fin 64) (w : Fin 8) (s : State) (gid : Nat) (mask : List Nat) (g : Group), Plain s gid mask g → Whole g false w 15 →
    let pair := 4 * k.val + 6
    let now := s.partClock (s.teamOf g).ctx.part
    (k ≠ 63 → (∀ b ∈ g.arch.bound, b.1 ≠ pair) →
      Completes (.copyq k w) s gid mask g 15 0 [(pair, BitVec.ofNat 32 now), (pair + 1, BitVec.ofNat 32 (now / 2 ^ 32))] (fun _ => onTo (pcOf g mask) 4)) ∧
    (k = 63 → (∀ b ∈ g.arch.bound, b.1 ≠ pair) → Completes (.copyq k w) s gid mask g 15 0 [] (fun _ => onTo (pcOf g mask) 4)) ∧
    (∀ b o, k ≠ 63 → g.arch.bound.find? (fun b => b.1 == pair) = some b → look s.ops b.2 = some o →
      ∃ t g', exec (.copyq k w) s = .next t ∧ t = { s with groups := put s.groups gid g', ops := t.ops, free := t.free } ∧ OpsTold s.ops t.ops ∧
        LanesAfter g g' mask (fun _ => onTo (pcOf g mask) 4) ∧ g'.arch.bound = g.arch.bound ∧ g'.caps = g.caps ∧ g'.flags = g.flags ∧
        (let m := s.moved b.2 o
         let p := (s.core o.core).predictor o.cls
         let e := now + p.ahead (if m = 0 then p.lat else 0) (o.bytes - m + s.queued o.core o.cls b.2)
         g'.sreg pair = BitVec.ofNat 32 e ∧ g'.sreg (pair + 1) = BitVec.ofNat 32 (e / 2 ^ 32)) ∧
        ∀ q, q ≠ pair → q ≠ pair + 1 → g'.sreg q = g.sreg q)

/-- FORK (R172, R302, R322): every named sequencer of the core has the program's entry at the end of its queue, with the scratch address and
the capability its block gives and the issuer's SRSEED, and the team's program on it is queued; the lanes go on. While a named sequencer has a
program of the team queued or running the lanes park. -/
def Sys2Proof.Claims.fork_results : Prop :=
  ∀ (k : Fin 64) (q w : Fin 8) (s : State) (gid : Nat) (mask : List Nat) (g : Group) (tm : Team),
    Plain s gid mask g → Whole g false w 15 → look s.teams g.team = some tm →
    (issueAt { stall := w } s gid mask g).forkRefused k q = none →
    ((∃ n ∈ seqsIn q, tm.busyOn n = true) → Waits (.fork k q w) s gid mask g (.fork q)) ∧
    ((∀ n ∈ seqsIn q, tm.busyOn n = false) →
      ∃ t g', exec (.fork k q w) s = .next t ∧ look t.groups gid = some g' ∧ GivenBy g g' mask 15 [] ∧ t.mem = s.mem ∧ t.ops = s.ops ∧
        (let entry := fun (n : Nat) =>
           ({ team := g.team, addr := blockWord g k n, cap := g.cap (blockWord g k 3 / 2 ^ (4 * n) % 16), seed := g.arch.srseed } : ForkEntry)
         let c := s.core tm.core
         (t.core tm.core).matrixQ = (if 0 ∈ seqsIn q then c.matrixQ ++ [entry 0] else c.matrixQ) ∧
         (t.core tm.core).chainQ = (if 1 ∈ seqsIn q then c.chainQ ++ [entry 1] else c.chainQ) ∧
         (t.core tm.core).copyQ = (if 2 ∈ seqsIn q then c.copyQ ++ [entry 2] else c.copyQ)) ∧
        (∀ n ∈ seqsIn q, ((lookD t.teams g.team {}).seq n).state = 1 ∧ ((lookD t.teams g.team {}).seq n).forker = gid) ∧
        (∀ n < 3, n ∉ seqsIn q → (lookD t.teams g.team {}).seq n = tm.seq n))

/-- CHAIN (R335), no earlier command of its group waiting: one operation with the ranges of its streams, its run not yet begun, with the block's
image and descriptor addresses, slot and seed. -/
def Sys2Proof.Claims.chain_command_results : Prop :=
  ∀ (k : Fin 64) (a b f : Fin 16) (w : Fin 8) (s : State) (gid : Nat) (mask : List Nat) (g : Group) (tm : Team) (srcs dsts : List Range),
    Plain s gid mask g → Whole g false w f → Undisturbed s gid → look s.teams g.team = some tm →
    let n := blockWord g k
    let load := n 2 / 8 % 2 == 1
    let rq := commandFor s gid mask g false
    let r := s.chainWords rq (s.slotView tm.core (n 2 % 8)).image { imageAt := n 0, descAt := n 1, load := load, slot := n 2 % 8, seed := g.sreg (4 * k.val + 3) }
      (fun l n => s.mem.getsUnder 0 l n)
    (load = true → n 0 % 4 = 0) → n 1 % 16 = 0 → n 2 < 16 →
    s.chainRanges rq (g.cap a) (g.cap b) r r.imageLen = .ok (srcs, dsts) →
    s.blocked tm.ctx srcs dsts (fun _ => false) = false → s.hasEntry tm.core false = true → g.waitsBefore mask = false →
    ∃ t g' o, exec (.chain k a b f w) s = .next t ∧ look t.groups gid = some g' ∧ GivenBy g g' mask f [] ∧
      look t.ops s.nextId = some o ∧ o.srcs = srcs ∧ o.dsts = dsts ∧ o.capA = g.cap a ∧ o.capB = g.cap b ∧ o.ctx = tm.ctx ∧ o.gid = gid ∧
      o.flag = f.val ∧ o.state = .live ∧ o.run.begun = false ∧ o.run.ended = false ∧ o.run.imageAt = n 0 ∧ o.run.descAt = n 1 ∧
      o.run.load = load ∧ o.run.slot = n 2 % 8 ∧ o.run.seed = g.sreg (4 * k.val + 3) ∧
      ((∀ r ∈ srcs ++ dsts, r.scratch = true) → t.mem = s.mem)

/-- COLL (R346): a program of the named sequencer with the block's offset and the capability; its handle, which no other live program of the partition
has, is in s(K + 3). -/
def Sys2Proof.Claims.coll_results : Prop :=
  ∀ (k : Fin 64) (a f : Fin 16) (w : Fin 8) (s : State) (gid : Nat) (mask : List Nat) (g : Group) (tm : Team) (x : Nat),
    Plain s gid mask g → Whole g false w f → look s.teams g.team = some tm →
    let n := blockWord g k
    n 0 % 32 = 0 → n 1 < 2 ^ 25 → n 2 < 4 → s.checkCap (commandFor s gid mask g true) (g.cap a) (permENG + permR) 0 0 = .ok x →
    s.liveOn (n 2) < 64 → (s.colls.filter (fun e => !e.2.ended)).length ≤ 256 →
    ∃ t g' c h, exec (.coll k a f w) s = .next t ∧ look t.groups gid = some g' ∧ GivenBy g g' mask f [4 * k.val + 3] ∧ h < 65536 ∧
      g'.sreg (4 * k.val + 3) = BitVec.ofNat 32 h ∧ (∀ c0, look s.colls (tm.ctx.part * 65536 + h) = some c0 → c0.ended = true) ∧
      look t.colls (tm.ctx.part * 65536 + h) = some c ∧ c.sequencer = n 2 ∧ c.offset = n 0 + n 1 * 2 ^ 32 ∧ c.cap = g.cap a ∧
      c.team = g.team ∧ c.gid = gid ∧ c.flag = f.val ∧ c.next = 0 ∧ c.posted = [] ∧ c.ended = false ∧ t.mem = s.mem

/-- ECANCEL and ESTAT (R319, R320): ECANCEL of nothing has no effect; of a live copy within scratch, the copy is gone from the tables with
STATE 5 and its flag has fallen. ESTAT writes the status word and PROGRESS of what it finds, with the bits of R319; nothing else changes but what
has been told of the progress of copies. -/
def Sys2Proof.Claims.ecancel_estat_results : Prop :=
  ∀ (k : Fin 64) (w : Fin 8) (s : State) (gid : Nat) (mask : List Nat) (g : Group), Plain s gid mask g → Whole g false w 15 →
    let q := blockWord g k 0
    let pair := q / 256 % 256
    (queryBad q [0, 4] = false →
      (q % 8 = 0 → s.boundTo gid pair = none → Completes (.ecancel k w) s gid mask g 15 0 [] (fun _ => onTo (pcOf g mask) 4)) ∧
      (q % 8 = 4 → look s.colls ((s.teamOf g).ctx.part * 65536 + q / 65536) = none →
        Completes (.ecancel k w) s gid mask g 15 0 [] (fun _ => onTo (pcOf g mask) 4)) ∧
      (∀ id o d tm i, q % 8 = 0 → Undisturbed s gid → s.boundTo gid pair = some id → look s.ops id = some o → o.kind = .copy d →
        d.ssp = true → d.dsp = true → o.gid = gid → o.team = g.team → o.pair = some pair → o.program = false → o.flag < 12 →
        look s.teams g.team = some tm → (lookD tm.copies (gid * 256 + pair) {}).forker ≤ id →
        gid ∈ tm.groups → i < g.arch.lanes.length → (g.lane i).exited = false →
        ∃ t g', exec (.ecancel k w) s = .next t ∧ look t.groups gid = some g' ∧ look t.ops id = none ∧
          (lookD (lookD t.teams g.team {}).copies (gid * 256 + pair) {}).state = 5 ∧ g'.flag o.flag = g.flag o.flag - 1 ∧
          g'.faultBits = g.faultBits ∧ (∀ j < g.arch.lanes.length, (g'.lane j).v = (g.lane j).v) ∧ g'.caps = g.caps)) ∧
    (queryBad q [0, 1, 2, 3, 4] = false →
      let p := (issueAt {} s gid mask g).asked q
      let words := [(4 * k.val + 1, p.word), (4 * k.val + 2, BitVec.ofNat 32 p.progress), (4 * k.val + 3, BitVec.ofNat 32 (p.progress / 2 ^ 32))]
      (q % 8 ≠ 0 ∨ s.pairOp gid pair = none → Completes (.estat k w) s gid mask g 15 0 words (fun _ => onTo (pcOf g mask) 4)) ∧
      (∃ t g', exec (.estat k w) s = .next t ∧ t = { s with groups := put s.groups gid g', ops := t.ops, free := t.free } ∧ OpsTold s.ops t.ops ∧
        LanesAfter g g' mask (fun _ => onTo (pcOf g mask) 4) ∧ RestAfter g g' mask 15 true 0 words)) ∧
    (∀ p : ProgStatus, p.state < 16 → p.word.toNat % 16 = p.state ∧ p.word.toNat / 2 ^ 12 % 16 = p.sticky.toNat ∧
      p.word.toNat / 2 ^ 16 = (if p.state = 4 then p.cause % 64 else 0) ∧ p.word.toNat / 2 ^ 4 % 2 ^ 8 = 0)

/-- POST (R321), with nothing of its group running: s(K) stands in bytes 4 to 7 of the launch's result word; every other byte and the group's
registers are as they were. With something running it parks. -/
def Sys2Proof.Claims.post_results : Prop :=
  ∀ (k : Fin 64) (f : Fin 16) (w : Fin 8) (s : State) (gid : Nat) (mask : List Nat) (g : Group) (r : Req) (x : Found),
    Plain s gid mask g → Whole g false w f →
    let y := issueAt { sr := [4 * k.val], flag := f, stall := w, drain := true, mem := true } s gid mask g
    let l := toBytes 4 (blockWord g k 0)
    let s1 := s.obtainAll (s.teamOf g).core [r] false
    (s.quiet gid (s.teamOf g) = false → Waits (.post k f w) s gid mask g .engines) ∧
    (s.quiet gid (s.teamOf g) = true → y.postReq ((s.launchOf g).result + 4) l = .ok (r, some x) → r.drains = false → x.ad = none →
      s1.holdsFor (s.teamOf g).core [r] false = true → s1.groups = s.groups → s1.mem = s.mem → s.mem.wf = true → r.loc + 4 ≤ scratchBase →
      (∀ e ∈ s.groups, ∀ ep, e.2.epoch = some ep → ep.reads = []) →
      ∃ t g', exec (.post k f w) s = .next t ∧ look t.groups gid = some g' ∧
        (∀ j, t.mem.getUnder r.key j = if r.loc ≤ j ∧ j < r.loc + 4 then (l[j - r.loc]?).getD 0 else s.mem.getUnder r.key j) ∧
        (∀ i ∈ mask, (g'.lane i).pc = pcOf g mask + 4 ∧ (g'.lane i).v = (g.lane i).v) ∧ g'.arch.sregs = g.arch.sregs ∧ g'.caps = g.caps)

/-- A block field out of range (R314): COPY, CHAIN, COLL, ECANCEL and ESTAT trap ENGINE_FAULT with SOURCE 0, CAUSE BAD_FIELD and the s-index
of the lowest offending register; no flag rises and no engine sees the command. -/
def Sys2Proof.Claims.block_field_traps : Prop :=
  ∀ (k : Fin 64) (a b f : Fin 16) (w : Fin 8) (i : Nat) (s : State) (gid : Nat) (mask : List Nat) (g : Group),
    Plain s gid mask g → Whole g false w f → g.trapMode = false →
    let n := blockWord g k
    let bad := fun (ins : Instr) (j : Nat) => Traps ins s gid mask g 0x1A (engineFaultAddr 0 0x38 j) mask
    (badReg k (copyBad n false) = some i → bad (.copy k a b f w) i) ∧
    (n 1 % 16 ≠ 0 → (n 2 / 8 % 2 = 1 → n 0 % 4 = 0) → bad (.chain k a b f w) (4 * k.val + 1)) ∧
    (n 0 % 32 ≠ 0 → bad (.coll k a f w) (4 * k.val)) ∧
    (queryBad (n 0) [0, 4] = true → bad (.ecancel k w) (4 * k.val)) ∧
    (queryBad (n 0) [0, 1, 2, 3, 4] = true → bad (.estat k w) (4 * k.val))

namespace Sys2Proof.Claims

/-- A core's matrix sequencer stands at a word of a team's program, with no load or drain under way. -/
structure Sequencing (s : State) (core : Nat) (r : MatrixRun) (tid : Nat) (t : Team) : Prop where
  cur : s.cur = .matrix core
  run : (s.core core).matrix = some r
  idle : r.pending = none
  team : r.entry.team = tid
  its : look s.teams tid = some t

/-- A matrix command completes at once: the run goes on at word `next` as f makes it, PROGRESS is one more, memory and groups are as they were. -/
def Moves (i : Instr) (s : State) (core : Nat) (r : MatrixRun) (tid : Nat) (tm : Team) (f : MatrixRun → MatrixRun) (next : Nat)
    (tiles : Store Tile) (ops : Store EngineOp) : Prop :=
  ∃ t, exec i s = .next t ∧ (t.core core).matrix = some { f r with pending := none, index := next } ∧ (t.core core).tiles = tiles ∧
    ((lookD t.teams tid {}).seq 0).progress = (tm.seq 0).progress + 1 ∧ t.ops = ops ∧ t.mem = s.mem ∧ t.groups = s.groups

/-- A matrix command registers one operation and waits for it. -/
def Registers (i : Instr) (s : State) (core : Nat) (r : MatrixRun) (kind : OpKind) (srcs dsts : List Range) : Prop :=
  ∃ t o, exec i s = .next t ∧ look t.ops s.nextId = some o ∧ o.kind = kind ∧ o.srcs = srcs ∧ o.dsts = dsts ∧ o.state = .live ∧ o.program = true ∧
    (t.core core).matrix = some { r with pending := some s.nextId } ∧
    ((∀ r ∈ srcs ++ dsts, r.scratch = true) → t.mem = s.mem ∧ t.groups = s.groups)

/-- A program ends on a fault found at its word: STATE 4 with the cause, which RVZ will report (R173, R174). -/
def EndsFaulted (i : Instr) (s : State) (core tid cause : Nat) : Prop :=
  ∃ t, exec i s = .next t ∧ (t.core core).matrix = none ∧ ((lookD t.teams tid {}).seq 0).state = 4 ∧
    ((lookD t.teams tid {}).seq 0).cause = cause ∧ ((lookD t.teams tid {}).seq 0).fault = some cause ∧ t.mem = s.mem

end Sys2Proof.Claims

/-- The matrix commands (R324 to R332): MCFG sets the formats and empties the buffers; MLOAD and MDRAIN register their operation; MMA makes of the
tile what R206 says, block by block of 32; MWAIT and MSTEP go on, stay, or go back. Out of sequence or out of range they end the program. -/
def Sys2Proof.Claims.matrix_command_results : Prop :=
  ∀ (s : State) (core : Nat) (r : MatrixRun) (tid : Nat) (tm : Team), Sequencing s core r tid tm →
    let tiles := (s.core core).tiles
    (∀ (a b : Fin 16) (kb : Fin 256), (Instr.mcfg a b kb).wf = true → 64 * 32 * kb.val * elemBits a ≤ 524288 → 64 * 32 * kb.val * elemBits b ≤ 524288 →
      Moves (.mcfg a b kb) s core r tid tm (fun r => { r with config := some (a.val, b.val, kb.val), buffers := [none, none, none, none] })
        (r.index + 1) tiles (s.ops.filter (fun e => !isHold tid none e.2))) ∧
    (∀ (n : Fin 4) (x : Word) (cfg : Nat × Nat × Nat) (loc : Nat), r.config = some cfg → (2 ≤ n.val → isMx cfg.1 = true) → r.address x % 16 = 0 →
      s.scratchAt (tm.requester tid) (r.address x) (operandBytes cfg n) = .ok loc →
      let src : List Range := [{ scratch := true, base := loc, len := operandBytes cfg n }]
      s.blocked tm.ctx src [] (ownHold tid) = false → s.hasEntry core false = true →
      Registers (.mload n 0 x) s core r (.mload n (r.address x) 0) src []) ∧
    (∀ (c : Fin 8) (z : Bool) (af bf kb : Nat) (a b : List Byte), r.config = some (af, bf, kb) → r.buffer 0 = some a → r.buffer 1 = some b →
      (isMx af = true → r.buffer 2 ≠ none ∧ r.buffer 3 ≠ none) →
      let old : Tile := if z then {} else lookD tiles c {}
      old.kind ≠ some (!decide (af = 7)) →
      let new := old.mma (decide (af = 7)) (operandSide af kb a ((r.buffer 2).getD [])) (operandSide bf kb b ((r.buffer 3).getD []))
      Moves (.mma c z) s core r tid tm id (r.index + 1) (put tiles c new) s.ops) ∧
    (∀ (c : Fin 8) (o : Fin 16) (m n : Fin 8) (tr mem : Bool) (toff : BitVec 13) (x : Word) (rs : List Range), m.val ≤ 4 → n.val ≤ 4 →
      (tr = true → outputBytes o ≤ 256 * toff.toNat) → drainsAs (lookD tiles c {}).kind o = true → r.address x % 16 = 0 → Orderly s →
      s.drainRanges { core := core, run := r, tid := tid, team := tm } mem
        (r.address x :: (if tr then [r.address x + 256 * toff.toNat] else [])) (outputBytes o) = .ok rs →
      s.blocked tm.ctx [] rs (ownHold tid) = false → s.hasEntry core false = true →
      Registers (.mdrain c o m tr n mem toff x) s core r (.mdrain c o m n tr mem toff.toNat (r.address x)) [] rs) ∧
    (∀ (v : BitVec 16) (x : Word), Moves (.mwait 0 v x) s core r tid tm id (r.index + 1) tiles s.ops) ∧
    (∀ (v : BitVec 16) (x : Word) (loc : Nat), x.toNat % 4 = 0 → s.scratchRead (tm.requester tid) x.toNat 4 = .ok loc →
      let word := ofBytes (s.mem.getsUnder 0 loc 4)
      (word < v.toNat + r.increase.2 → exec (.mwait 1 v x) s = .next s) ∧
      (v.toNat + r.increase.2 ≤ word → s.blocked tm.ctx [{ scratch := true, base := loc, len := 4 }] [] (ownHold tid) = false →
        Moves (.mwait 1 v x) s core r tid tm id (r.index + 1) tiles s.ops)) ∧
    (∀ (b : Fin 64) (c : BitVec 12) (inc : Word), b ≠ 0 → b.val ≤ r.index →
      (c ≠ 0 → (∀ l ∈ r.loops, l.place ≠ r.index) → r.loops.length < 4 →
        Moves (.mstep b c inc) s core r tid tm (fun r => { r with
          loops := { place := r.index, first := r.index - b.val, rep := 1, count := c.toNat, inc := inc.toNat } :: r.loops })
          (r.index - b.val) tiles s.ops) ∧
      (c = 0 → (∀ l ∈ r.loops, l.place ≠ r.index) → Moves (.mstep b c inc) s core r tid tm id (r.index + 1) tiles s.ops) ∧
      (∀ l, r.loops.find? (fun l => l.place == r.index) = some l →
        let rest := r.loops.filter (fun k => k.place != r.index)
        (l.rep < l.count → Moves (.mstep b c inc) s core r tid tm (fun r => { r with loops := { l with rep := l.rep + 1 } :: rest })
          (r.index - b.val) tiles s.ops) ∧
        (l.count ≤ l.rep → Moves (.mstep b c inc) s core r tid tm (fun r => { r with loops := rest }) (r.index + 1) tiles s.ops))) ∧
    (tm.core = core → tm.busyOn 0 = true → (∀ e ∈ s.ops, e.2.state ≠ .matching) →
      (∃ t, exec (.mstep 0 0 0) s = .next t ∧ (t.core core).matrix = none ∧ ((lookD t.teams tid {}).seq 0).state = 3 ∧ t.mem = s.mem) ∧
      (∀ (c : Fin 8) (z : Bool), r.config = none → EndsFaulted (.mma c z) s core tid 0x39) ∧
      (∀ (n : Fin 4) (m : BitVec 8) (x : Word), r.config = none → EndsFaulted (.mload n m x) s core tid 0x39) ∧
      (∀ (b : Fin 64) (c : BitVec 12) (x : Word), r.index < b.val → EndsFaulted (.mstep b c x) s core tid 0x38))

/-- What an MMA and a drain compute (R206, R323, R329): each element of an INT32 tile gains the sum of its products, modulo 2^32; each element of an
FP32 tile takes one rounding for each block; a tile of one kind is drained in the formats of that kind only. A sum of zeros is
plus zero (the model's choice, log entry 120). -/
def Sys2Proof.Claims.matrix_arithmetic : Prop :=
  (∀ (t : Tile) (int : Bool) (a b : List (List (List FVal))) (i j : Nat), i < 64 → j < 64 →
    lookD (t.mma int a b).words (64 * i + j) 0 =
      (let acc := lookD t.words (64 * i + j) 0
       if int then accumulateInt acc ((a[i]?).getD []) ((b[j]?).getD []) else accumulate acc ((a[i]?).getD []) ((b[j]?).getD [])) ∧
    (t.mma int a b).kind = some int) ∧
  (∀ (acc : Word) (a b x y : List (List FVal)), a.length = b.length →
    accumulate acc (a ++ x) (b ++ y) = accumulate (accumulate acc a b) x y) ∧
  (∀ (acc : Word) (a b x y : List (List FVal)), a.length = b.length →
    accumulateInt acc (a ++ x) (b ++ y) = accumulateInt (accumulateInt acc a b) x y) ∧
  (∀ n, drainsAs none n = false) ∧
  (∀ n, drainsAs (some true) n = true ↔ n = 7 ∨ n = 14 ∨ n = 15) ∧
  (∀ n, drainsAs (some false) n = true ↔ n ≤ 6 ∨ (8 ≤ n ∧ n ≤ 14))

namespace Sys2Proof.Claims

/-- The sixteen values of an operand of a run: a temporary, an input of the present group, a constant. -/
def operandOf (r : ChainRun) (x : Nat) : List Word :=
  if x < 8 then (r.temps[x]?).getD []
  else if x < 11 then lookD r.ins (x - 8) []
  else List.replicate 16 ((r.image.consts[x - 11]?).getD 0)

/-- A micro-op of the run a core's chain engine works on, amid a group or with the inputs of a group just read: the run's temporaries and outputs
become what f makes of the operands' sixteen values, and the run goes on. -/
def ChainOp (i : Instr) (xs : List Nat) (f : ChainRun → List (List Word) → ChainRun) : Prop :=
  ∀ (s : State) (core id : Nat) (o : EngineOp), s.cur = .chain core id → look s.ops id = some o →
    (o.run.atGroup = false →
      exec i s = .next { s with ops := put s.ops id (o.withRun (f o.run (xs.map (operandOf o.run))).advance) }) ∧
    (o.run.atGroup = true → peerRead (s.chainNeeds o o.run).needs = none → (∀ n ∈ o.run.passInputs, (s.chainInput o o.run n).1.hitch = none) →
      let r := { o.run with ins := o.run.passInputs.map (fun n => (n, (s.chainInput o o.run n).2)) }
      let u := s.installAll (o.run.passInputs.flatMap (fun n => (s.chainInput o o.run n).1.founds.map (fun f => f.2.2)))
      exec i s = .next { u with ops := put u.ops id (o.withRun (f r (xs.map (operandOf r))).advance) })

/-- A micro-op that works position by position. -/
def ChainEach (i : Instr) (d : Nat) (xs : List Nat) (f : (Nat → Word) → Word) : Prop :=
  ChainOp i xs (fun r vs => { r with temps := r.temps.set d ((List.range 16).map (fun q => f (fun k => elem (arg vs k) q))) })

end Sys2Proof.Claims

/-- The chain micro-ops (R337, R338, R339): the inputs of a group are read at its start; position by position for the arithmetic, the special functions, SEL and MOV; SUMR and MAXR in every position,
over the valid ones; OUTQ of the valid positions, in a format without blocks or in MX blocks. -/
def Obligations.chain_micro_op_results : Prop :=
  ∀ (d : Fin 8) (a b c : Fin 16),
    ChainEach (.chainFadd d a b) d [a.val, b.val] (fun x => BitVec.ofNat 32 (Fmt.fp32.addW .rne false (x 0).toNat (x 1).toNat).1) ∧
    ChainEach (.chainFsub d a b) d [a.val, b.val] (fun x => BitVec.ofNat 32 (Fmt.fp32.subW .rne false (x 0).toNat (x 1).toNat).1) ∧
    ChainEach (.chainFmul d a b) d [a.val, b.val] (fun x => BitVec.ofNat 32 (Fmt.fp32.mulW .rne false (x 0).toNat (x 1).toNat).1) ∧
    ChainEach (.chainFfma d a b c) d [a.val, b.val, c.val]
      (fun x => BitVec.ofNat 32 (Fmt.fp32.fmaW .rne false (x 0).toNat (x 1).toNat (x 2).toNat).1) ∧
    ChainEach (.chainFmin d a b) d [a.val, b.val] (fun x => BitVec.ofNat 32 (Fmt.fp32.minmaxW false false (x 0).toNat (x 1).toNat)) ∧
    ChainEach (.chainFmax d a b) d [a.val, b.val] (fun x => BitVec.ofNat 32 (Fmt.fp32.minmaxW false true (x 0).toNat (x 1).toNat)) ∧
    ChainEach (.chainFex2 d a) d [a.val] (fun x => (special 3 0 (x 0)).1) ∧
    ChainEach (.chainFlg2 d a) d [a.val] (fun x => (special 4 0 (x 0)).1) ∧
    ChainEach (.chainFrcp d a) d [a.val] (fun x => (special 0 0 (x 0)).1) ∧
    ChainEach (.chainFrsq d a) d [a.val] (fun x => (special 1 0 (x 0)).1) ∧
    ChainEach (.chainFsqrt d a) d [a.val] (fun x => (special 2 0 (x 0)).1) ∧
    ChainEach (.chainSel d a b c) d [a.val, b.val, c.val] (fun x => if atLeastZero (x 0) then x 1 else x 2) ∧
    ChainEach (.chainMov d a) d [a.val] (fun x => x 0) ∧
    ChainOp (.sumr d a) [a.val] (fun r vs =>
      { r with temps := r.temps.set d (List.replicate 16 (sumInto (elem ((r.temps[d.val]?).getD []) 0) ((arg vs 0).take r.valid))) }) ∧
    ChainOp (.maxr d a) [a.val] (fun r vs =>
      let old := ((r.temps[d.val]?).getD []).take r.valid
      { r with temps := r.temps.set d (List.replicate 16 (maxInto (elem old 0) (old.drop 1 ++ (arg vs 0).take r.valid))) }) ∧
    (∀ (o : Fin 2) (m : Fin 8) (k : Fin 16), mxElem k = none → ChainOp (.outq o a m k) [a.val] (fun r vs => r.outPlain o m k ((arg vs 0).take r.valid))) ∧
    (∀ (o : Fin 2) (m : Fin 8) (k : Fin 16) (el : Elem), mxElem k = some el →
      ChainOp (.outq o a m k) [a.val] (fun r vs => r.outBlock o m k el ((arg vs 0).take r.valid)))

namespace Sys2Proof.Claims

/-- A collective step starts: its operation is registered with these ranges, its place is among the program's started steps, and the next step is the one
after it, free to start at once if this one says so. -/
def Starts (i : Instr) (s : State) (p : Nat) (c : CollProg) (op : Nat) (a : CollArgs) (srcs dsts : List Range) : Prop :=
  ∃ t c' o u, exec i s = .next t ∧ look t.colls p = some c' ∧ c'.next = c.next + 1 ∧ c'.async = a.async ∧ u ∈ c'.posted ∧ u.index = c.next ∧ u.op = op ∧
    u.args = a ∧ u.engineOp = s.nextId ∧ c'.ended = false ∧ look t.ops s.nextId = some o ∧ o.kind = .collective p c.next ∧ o.srcs = srcs ∧ o.dsts = dsts

end Sys2Proof.Claims

/-- The collective steps (R346, R347): one whose checks pass and whose ranges no live lock meets starts, with its range; END ends a program whose
steps have all completed, in STATE 3, and its flag falls; a step with DT 3 ends the program BAD_FIELD, STATE 4, once the steps that run have ended
(R471). -/
def Obligations.collective_step_results : Prop :=
  ∀ (a : CollArgs) (s : State) (p : Nat) (c : CollProg), s.cur = .coll p → look s.colls p = some c → c.canStart = true → Orderly s →
    (∀ g, s.checkStep p c 0 a = .ok g → s.blocked c.ctx (stepRange g a.length.toNat) [] (fun _ => false) = false →
      s.hasEntry (collCore c.sequencer) false = true → Starts (.send a) s p c 0 a (stepRange g a.length.toNat) []) ∧
    (∀ g, s.checkStep p c 1 a = .ok g → s.blocked c.ctx [] (stepRange g a.length.toNat) (fun _ => false) = false →
      s.hasEntry (collCore c.sequencer) false = true → Starts (.recv a) s p c 1 a [] (stepRange g a.length.toNat)) ∧
    (∀ g, s.checkStep p c 2 a = .ok g → s.blocked c.ctx [] (stepRange g a.length.toNat) (fun _ => false) = false →
      s.hasEntry (collCore c.sequencer) false = true → Starts (.recvadd a) s p c 2 a [] (stepRange g a.length.toNat)) ∧
    (∀ g, s.checkStep p c 3 a = .ok g → s.blocked c.ctx [] [] (fun _ => false) = false →
      s.hasEntry (collCore c.sequencer) false = true → Starts (.waitw a) s p c 3 a [] []) ∧
    (∀ g, s.checkStep p c 4 a = .ok g → s.blocked c.ctx [] (stepRange g 4) (fun _ => false) = false →
      s.hasEntry (collCore c.sequencer) false = true → Starts (.signal a) s p c 4 a [] (stepRange g 4)) ∧
    (∀ g, s.checkStep p c 5 a = .ok g → s.blocked c.ctx (stepRange g a.length.toNat) [] (fun _ => false) = false →
      s.hasEntry (collCore c.sequencer) false = true → Starts (.sparse a) s p c 5 a (stepRange g a.length.toNat) []) ∧
    (∀ g, s.checkStep p c 6 a = .ok g → s.blocked c.ctx [] (stepRange g a.length.toNat) (fun _ => false) = false →
      s.hasEntry (collCore c.sequencer) false = true → Starts (.recvsparse a) s p c 6 a [] (stepRange g a.length.toNat)) ∧
    (c.posted = [] → a.dt ≠ 3 → a.length ≠ 0 → a.length.toNat % 16 = 0 →
      ∃ t c', exec (.endStep a) s = .next t ∧ look t.colls p = some c' ∧ c'.ended = true ∧ c'.status.state = 3 ∧
        c'.status.progress = c.status.progress + 1 ∧ t.mem = s.mem) ∧
    (a.dt = 3 → ∀ i ∈ [Instr.send a, .recv a, .recvadd a, .waitw a, .signal a, .sparse a, .recvsparse a, .endStep a],
      (c.posted = [] →
        ∃ t c', exec i s = .next t ∧ look t.colls p = some c' ∧ c'.ended = true ∧ c'.status.state = 4 ∧ c'.status.cause = 0x38 ∧ t.mem = s.mem) ∧
      (c.posted ≠ [] → (∀ u ∈ c.posted, ∀ o, look s.ops u.engineOp = some o → o.refused = 0 ∧ o.broken = none) →
        ∃ t c', exec i s = .next t ∧ look t.colls p = some c' ∧ c'.closing = some (4, 0x38) ∧ c'.canStart = false ∧ c'.ended = c.ended ∧
          c'.posted = c.posted ∧ t.mem = s.mem))

/-- ENGINE_OPERATION_COMPLETION of a direct copy of one row within scratch (R131, R316, R342): the destination holds the source's bytes, every granule
outside it is as it was, the operation is gone with its lock, and its flag has fallen. -/
def Obligations.engine_completion_results : Prop :=
  ∀ (id : Nat) (s : State) (o : EngineOp) (d : CopyDesc) (g : Group) (tm : Team) (i src dst : Nat),
    look s.ops id = some o → o.kind = .copy d → o.state = .live → o.out = none → o.broken = none → o.program = false → o.flag < 12 → o.ordered = false →
    d.kind = 0 → d.rows = 1 → d.ssp = true → d.dsp = true → d.rbytes % 16 = 0 → 0 < d.rbytes →
    s.scratchAt (s.opRequester o) d.soff d.rbytes = .ok src → s.isBad src d.rbytes = false → s.scratchAt (s.opRequester o) d.doff d.rbytes = .ok dst → dst % 16 = 0 →
    s.teamRuns o.team = true → Undisturbed s o.gid → s.mem.wf = true →
    look s.groups o.gid = some g → look s.teams o.team = some tm → o.gid ∈ tm.groups → i < g.arch.lanes.length → (g.lane i).exited = false →
    g.epoch = none →
    ∃ t g', exec (.engineOperationCompletion id) s = .next t ∧ look t.groups o.gid = some g' ∧ look t.ops id = none ∧
      (∀ j < d.rbytes, t.mem.getUnder 0 (dst + j) = s.mem.getUnder 0 (src + j)) ∧
      (∀ k, k < dst ∨ dst + d.rbytes ≤ k → t.mem.get k = s.mem.get k) ∧
      g'.flag o.flag = g.flag o.flag - 1 ∧ g'.faultBits = g.faultBits ∧ g'.caps = g.caps ∧
      (∀ j < g.arch.lanes.length, (g'.lane j).v = (g.lane j).v ∧ (g'.lane j).pc = (g.lane j).pc)

namespace Sys2Proof.Claims

/-- A mapped queue stands before a packet (R365, R371). -/
structure Before (s : State) (h : CmdHead) (e : QueueEntry) (k : Queue) : Prop where
  mapped : look (s.part h.part).mapped h.queue = some k
  entry : s.queueEntry h.part h.queue = some e
  ready : k.state = 1
  left : k.rptr ≠ k.wptr

/-- The completion word of a command is owed with a status and CLOCK[41:10], or none where CWADDR is 0 (R372). -/
def Owes (s t : State) (h : CmdHead) (status : Nat) : Prop :=
  if h.cw = 0 then t.cpWrites = s.cpWrites
  else ∃ w, t.cpWrites = s.cpWrites ++ [w] ∧ w.addr = h.cw ∧ w.status = status ∧
    w.bytes = toBytes 4 status ++ toBytes 4 (s.partClock h.part / 2 ^ 10)

/-- A command ends its packet: its queue stands as k', the completion word is owed, and P holds of the machine. -/
def Ends (i : Instr) (s : State) (h : CmdHead) (k' : Queue) (status : Nat) (P : State → Prop) : Prop :=
  ∃ t, exec i s = .next t ∧ look (t.part h.part).mapped h.queue = some k' ∧ h.queue ∉ (t.part h.part).partway ∧ Owes s t h status ∧ P t

/-- Memory, groups, launches and engines are as they were. -/
def Untouched (s t : State) : Prop := t.mem = s.mem ∧ t.groups = s.groups ∧ t.launches = s.launches ∧ t.ops = s.ops

/-- Taking the lines of an access has moved nothing that belongs to the CP. -/
def Calm (s t : State) : Prop := t.cpWrites = s.cpWrites ∧ t.parts = s.parts ∧ t.launches = s.launches ∧ t.clock = s.clock

end Sys2Proof.Claims

/-- NOP, LOOP, BRANCH, QPRIO, WAITMEM and WRITE (R371 to R373): the queue's RPTR and loop counter, the priority, the word stored; the completion word;
a command that waits leaves its packet where it is. -/
def Sys2Proof.Claims.queue_command_results : Prop :=
  ∀ (s : State) (h : CmdHead) (e : QueueEntry) (k : Queue), Before s h e k →
    let next := k.step
    (e.kind ≤ 2 → Ends (.nopCommand h) s h next 1 (Untouched s)) ∧
    (∀ count target, e.kind ≤ 1 → target < k.wptr.toNat →
      let n := if k.lcnt = 0 then BitVec.ofNat 32 count else k.lcnt
      (1 < n.toNat → Ends (.loop h count target) s h { k.jump (BitVec.ofNat 32 target) with lcnt := n - 1 } 1 (Untouched s)) ∧
      (n.toNat ≤ 1 → Ends (.loop h count target) s h { k.step with lcnt := 0 } 1 (Untouched s))) ∧
    (∀ queue prio e2 k2, e.kind ≤ 1 → queue ≠ h.queue → s.queueEntry h.part queue = some e2 → e2.fn = e.fn → e2.proc = e.proc →
      look (s.part h.part).mapped queue = some k2 →
      Ends (.qprio h queue prio) s h next 1 (fun t => Untouched s t ∧ look (t.part h.part).mapped queue = some { k2 with prio := prio })) ∧
    (∀ prio, e.kind ≤ 1 → Ends (.qprio h h.queue prio) s h { next with prio := prio } 1 (Untouched s)) ∧
    (∀ (c : Fin 4) (value : Word) (target n : Nat) (l : Launch) (t : State) (b : List Byte), e.kind ≤ 1 →
      look (s.part h.part).lastLaunch h.queue = some (n + 1) → target < k.wptr.toNat → look s.launches n = some l → l.status ≠ 0x10 → s.cpWrites = [] →
      s.cpLoad (e.ctx s h.part) false l.result 8 = (t, some b) → Calm s t → ofBytes (b.take 4) = 0x11 →
      (holds c (BitVec.ofNat 32 (ofBytes (b.drop 4))) value = true →
        Ends (.branch h c value target) s h (k.jump (BitVec.ofNat 32 target)) 1 (fun u => u.mem = t.mem)) ∧
      (holds c (BitVec.ofNat 32 (ofBytes (b.drop 4))) value = false → Ends (.branch h c value target) s h next 1 (fun u => u.mem = t.mem))) ∧
    (∀ (gva : Nat) (value : Word) (c : Fin 4) (t0 t : State) (x : Xlat) (b : List Byte), e.kind ≤ 1 → gva % 4 = 0 →
      s.reach (e.ctx s h.part) false gva false = some (t0, x) → x.kind = .dram →
      s.cpLoad (e.ctx s h.part) false gva 4 = (t, some b) → Calm s t →
      (holds c (BitVec.ofNat 32 (ofBytes b)) value = true → Ends (.waitmem h gva value c) s h next 1 (fun u => u.mem = t.mem)) ∧
      (holds c (BitVec.ofNat 32 (ofBytes b)) value = false →
        ∃ u, exec (.waitmem h gva value c) s = .next u ∧ look (u.part h.part).mapped h.queue = some k ∧ u.cpWrites = s.cpWrites ∧ u.mem = t.mem)) ∧
    (∀ (gva : Nat) (value : Word), e.kind ≤ 1 →
      (s.launchesDone h.part h.queue = false →
        ∃ u, exec (.write h gva value) s = .next u ∧ look (u.part h.part).mapped h.queue = some k ∧ Untouched s u ∧ u.cpWrites = s.cpWrites) ∧
      (∀ (t0 : State) (x : Xlat), s.launchesDone h.part h.queue = true → gva % 4 = 0 → s.reach (e.ctx s h.part) false gva true = some (t0, x) →
        (x.kind = .dram ∨ x.kind = .host) →
        let t := t0.cpStore (outLoc x.kind x.out) (s.serialOf x.key) (toBytes 4 value.toNat)
        Calm s t → Ends (.write h gva value) s h next 1 (fun u => u.mem = t.mem)))

/-- What the CP stores reads back, byte by byte, under the key it was stored with. -/
def Sys2Proof.Claims.cp_store_reads_back : Prop :=
  ∀ (s : State) (loc j : Nat) (l : List Byte),
    let u := (s.takeRange loc l.length true).below loc l.length j false true
    u.mem.wf = true →
    (∀ i < l.length, (s.cpStore loc j l).mem.getUnder j (loc + i) = (l[i]?).getD 0) ∧
    (∀ k, granule k < granule loc ∨ granule (loc + l.length - 1) < granule k → l ≠ [] →
      (s.cpStore loc j l).mem.get k = u.mem.get k) ∧
    (s.cpStore loc j l).mem.wf = true

/-- LAUNCH and LAUNCHI (R371, R374): a launch that passes the checks is accepted, with no team yet, under its record's fields and the queue's process; one
that fails is refused with its status in the completion word; either way the queue goes on. LAUNCHI waits for the queue's earlier launches. -/
def Sys2Proof.Claims.launch_command_results : Prop :=
  ∀ (s : State) (h : CmdHead) (e : QueueEntry) (k : Queue) (record : Nat) (ordered : Bool), Before s h e k → e.kind ≤ 1 →
    let next := k.step
    let c := e.ctx s h.part
    let body := fun (i : Instr) (v : Verdict) =>
      let u := s.applyVerdict c v
      Calm s u →
        (∀ st, v.status = some st → Ends i s h next st (fun t => t.launches = s.launches ∧ t.mem = u.mem ∧
          look (t.part h.part).lastLaunch h.queue = some 0)) ∧
        (v.status = none → ∃ t l, exec i s = .next t ∧ look (t.part h.part).mapped h.queue = some next ∧ t.cpWrites = s.cpWrites ∧
          look t.launches u.nextId = some l ∧ l.status = 0x10 ∧ l.part = h.part ∧ l.fn = e.fn ∧ l.queue = h.queue ∧ l.ctx = c ∧
          l.completion = h.cw ∧ l.ordered = ordered ∧ l.nextTeam = 0 ∧ l.root = v.launch.root ∧ l.code = v.launch.code ∧
          l.dimX = v.launch.dimX ∧ l.dimY = v.launch.dimY ∧ l.dimZ = v.launch.dimZ ∧ l.result = v.launch.result ∧
          look (t.part h.part).lastLaunch h.queue = some (u.nextId + 1) ∧ t.mem = u.mem)
    body (.launch h record ordered) (s.checkLaunch c record none) ∧
    (∀ dims, dims % 8 = 0 → s.launchesDone h.part h.queue = true → body (.launchi h record ordered dims) (s.checkLaunch c record (some dims))) ∧
    (∀ dims, s.launchesDone h.part h.queue = false →
      ∃ t, exec (.launchi h record ordered dims) s = .next t ∧ look (t.part h.part).mapped h.queue = some k ∧ Untouched s t ∧ t.cpWrites = s.cpWrites)

/-- The first checks of R374 decide: a record that is not 128-byte aligned is BAD_RECORD, one that cannot be read UNREADABLE, and then no result word
is written; a launch accepted has its root within the process root, of its owner, and SCRATCH of at most 256 KiB. -/
def Sys2Proof.Claims.launch_checks : Prop :=
  ∀ (s : State) (c : Ctx) (record : Nat) (dims : Option Nat),
    (record % 128 ≠ 0 → (s.checkLaunch c record dims).status = some 0x20 ∧ (s.checkLaunch c record dims).result = none) ∧
    (record % 128 = 0 → (s.text c record 128).ok = false →
      (s.checkLaunch c record dims).status = some 0x24 ∧ (s.checkLaunch c record dims).result = none) ∧
    ((s.checkLaunch c record dims).status = none →
      let l := (s.checkLaunch c record dims).launch
      l.scratch ≤ 2 ^ 18 ∧ l.result % 8 = 0 ∧ l.root.tag = true ∧ l.root.otype = 0 ∧ l.root.owner = c.keyId ∧
        l.root.subset (s.processRoot c) = true ∧ l.rolesOk = true ∧ l.teamLanes ≤ 1024 ∧ l.teams ≠ 0 ∧ l.teams % l.setSize = 0 ∧
        (s.checkLaunch c record dims).result.isSome = true)

/-- PROCESS and KILL (R41, R371, R375): the minted root stands with its tag in the granule of CAPPAGE; a launch that is killed has status KILLED, none of
its groups is left, and its result word is owed; KILL of no launch, or by a runtime queue of another function, changes nothing. -/
def Sys2Proof.Claims.process_kill_results : Prop :=
  ∀ (s : State) (h : CmdHead) (e : QueueEntry) (k : Queue), Before s h e k →
    let next := k.step
    (∀ (gpa proc loc j at_ i : Nat) (c : Cap), e.kind = 1 → gpa % 64 = 0 → proc < 65536 → s.gpaLoc h.part e.fn gpa = some (loc, j) →
      (let f := fun (n : Nat) => s.readDWord 0 (s.fnRecord h.part e.fn + 8 * n)
       mintRoot (f 3).toNat (f 4).toNat (bits (f 2) 32 32) (bits (s.readDWord j (loc + 24)) 0 12) = some c) →
      s.rootGranule h.part e.fn proc = some (at_, i) → Calm s (s.putCap at_ i c) →
      ((s.takeRange at_ 16 true).below at_ 16 i false true).mem.wf = true →
      Ends (.process h gpa proc) s h next 1 (fun t =>
        (∀ n < 16, t.mem.getUnder i (at_ + n) = ((toBytes 16 c.bits.toNat)[n]?).getD 0) ∧ t.mem.tag (granule at_) = c.tag ∧
        look (t.part h.part).procs (e.fn * 65536 + proc) = some gpa)) ∧
    (∀ fn result, e.kind = 1 → fn ≠ e.fn → Ends (.kill h fn result) s h next 7 (Untouched s)) ∧
    (∀ fn result, e.kind = 2 ∨ (e.kind = 1 ∧ fn = e.fn) → s.launchAt h.part fn result = none → Ends (.kill h fn result) s h next 1 (Untouched s)) ∧
    (∀ fn result lid l, e.kind = 2 ∨ (e.kind = 1 ∧ fn = e.fn) → s.launchAt h.part fn result = some lid → look s.launches lid = some l → l.status = 0x10 →
      ∃ t l', exec (.kill h fn result) s = .next t ∧ look (t.part h.part).mapped h.queue = some next ∧ t.mem = s.mem ∧
        look t.launches lid = some l' ∧ l'.status = 0x31 ∧ (∀ g ∈ t.groups, g.2.team ∉ s.teamsOf lid) ∧
        (∀ g ∈ s.groups, g.2.team ∉ s.teamsOf lid → g.1 ∈ t.groups.map (·.1)) ∧
        (∃ w ∈ t.cpWrites, w.addr = l.result ∧ w.bytes = toBytes 4 0x31))

/-- The invalidations and page commands (R32, R33, R93, R103, R371): an invalidation is accepted and its command waits; its completion takes every covered
translation out of every cache and leaves the others; BIASFLIP and MIGRATE64K begin, or end with their status; CANCEL ends a flip that waits for
locks; DEFERRED is said once. -/
def Sys2Proof.Claims.page_command_results : Prop :=
  (∀ (s : State) (h : CmdHead) (e : QueueEntry) (k : Queue), Before s h e k → s.waitingOn h = none →
    let next := k.step
    let accepts := fun (i : Instr) (kind fn asid base len : Nat) (leaf : Bool) =>
      ∃ t, exec i s = .next t ∧ t.mem = s.mem ∧
        ({ id := (s.part h.part).nextInval, kind := kind, fn := fn, asid := asid, base := base, len := len, leafOnly := leaf } : Inval) ∈ (t.part h.part).invals ∧
        (∃ w ∈ (t.part h.part).waiting, w.queue = h.queue ∧ w.what = .invalidation (s.part h.part).nextInval) ∧
        look (t.part h.part).mapped h.queue = some k
    (e.kind = 2 → Orderly s → ∀ fn asid base len,
      (∀ leaf, accepts (.invS1Va h fn asid base len leaf) 0 fn asid base len leaf) ∧ accepts (.invS1Asid h fn asid) 1 fn asid 0 0 false ∧
        accepts (.invS2Gpa h fn base len) 2 fn 0 base len false ∧ accepts (.invFn h fn) 3 fn 0 0 0 false ∧ accepts (.invPart h) 4 0 0 0 0 false) ∧
    (e.kind = 1 → Orderly s → ∀ asid base len,
      (∀ leaf, accepts (.invS1Va h e.fn asid base len leaf) 0 e.fn asid base len leaf) ∧ accepts (.invS1Asid h e.fn asid) 1 e.fn asid 0 0 false) ∧
    (e.kind = 2 → ∀ fn gpa bias ho, isPage64 gpa = true → s.migrating fn = false →
      (s.leaves16 h.part fn gpa = none → Ends (.biasflip h fn gpa bias ho) s h next 4 (Untouched s)) ∧
      (∀ place ws, s.leaves16 h.part fn gpa = some (place, ws) → (∀ w ∈ ws, kindOf w = .dram) →
        ∃ t, exec (.biasflip h fn gpa bias ho) s = .next t ∧ Untouched s t ∧ t.cpWrites = s.cpWrites ∧
          look (t.part h.part).mapped h.queue = some k ∧
          ∃ w ∈ (t.part h.part).waiting, w.queue = h.queue ∧ w.cw = h.cw ∧ w.what = .flipLocks fn gpa bias ho false s.clock)) ∧
    (e.kind = 2 → ∀ fn gpa out kind key, isPage64 gpa = true → out % 4096 = 0 → out < 2 ^ 52 → kind ≤ 1 → key < 4096 →
      (kind = 1 ∨ out + 2 ^ 16 ≤ dramSize) → s.migrating fn = false →
      (s.leaves16 h.part fn gpa = none → Ends (.migrate64k h fn gpa out kind key) s h next 4 (Untouched s)) ∧
      (∀ place ws st, s.leaves16 h.part fn gpa = some (place, ws) → s.moveRefused fn gpa kind key ws = some st →
        Ends (.migrate64k h fn gpa out kind key) s h next st (Untouched s)) ∧
      (∀ place ws, s.leaves16 h.part fn gpa = some (place, ws) → s.moveRefused fn gpa kind key ws = none →
        let u := s.writeLeaves place (ws.map (fun w => w &&& ~~~1#64))
        Calm s u → Orderly u → ∃ t, exec (.migrate64k h fn gpa out kind key) s = .next t ∧ t.mem = u.mem ∧ look (t.part h.part).mapped h.queue = some k ∧
          ∃ w ∈ (t.part h.part).waiting, w.queue = h.queue ∧
            w.what = .migrateInval (s.part h.part).nextInval fn gpa out kind key place ws)) ∧
    (e.kind = 2 → ∀ target,
      ((∀ w ∈ (s.part h.part).waiting, w.cw ≠ target) → Ends (.cancel h target) s h next 1 (Untouched s)) ∧
      (∀ w f k2 fn gpa b ho d since, (s.part h.part).waiting.find? (fun w => w.cw == target &&
          (match w.what with | .flipLocks _ _ _ _ _ _ => true | _ => false)) = some w → w.what = .flipLocks fn gpa b ho d since →
        s.queueEntry h.part w.queue = some f → w.queue ≠ h.queue → look (s.part h.part).mapped w.queue = some k2 → target ≠ 0 →
        ∃ t, exec (.cancel h target) s = .next t ∧ Untouched s t ∧ look (t.part h.part).mapped h.queue = some next ∧
          look (t.part h.part).mapped w.queue = some k2.step ∧
          (∃ x ∈ t.cpWrites, x.addr = target ∧ x.status = 3) ∧ (∀ x ∈ (t.part h.part).waiting, x.queue ≠ w.queue)))) ∧
  (∀ (s : State) (h : CmdHead) (e : QueueEntry) (k : Queue) (w : Pending) (id fn gpa : Nat) (bias : Bool) (ho : BitVec 16) (pages : List Nat),
    Before s h e k → e.kind = 2 → isPage64 gpa = true → s.waitingOn h = some w → w.what = .flipInval id fn gpa pages → s.invalDone h.part id = true →
    Ends (.biasflip h fn gpa bias ho) s h k.step 1 (Untouched s)) ∧
  (∀ (s : State) (p id : Nat) (v : Inval), Orderly s → (s.part p).invals.find? (fun v => v.id == id) = some v →
    s.inFlight p v = false →
    ∃ t, exec (.invalidationCompletion p id) s = .next t ∧ t.mem = s.mem ∧ (∀ x ∈ t.tlb, x.part = p → v.covers x = false) ∧
      (∀ x ∈ s.tlb, x.part ≠ p ∨ v.covers x = false → x ∈ t.tlb) ∧ (∀ w ∈ (t.part p).invals, w.id ≠ id)) ∧
  (∀ (s : State) (p q : Nat) (w : Pending) (e : QueueEntry) (fn gpa : Nat) (b : Bool) (ho : BitVec 16) (since : Nat),
    (s.part p).waiting.find? (fun w => w.queue == q) = some w → s.queueEntry p q = some e → w.what = .flipLocks fn gpa b ho false since →
    since + 240000 ≤ s.clock →
    ∃ t, exec (.deferred p q) s = .next t ∧ Untouched s t ∧ Owes s t { part := p, queue := q, cw := w.cw } 2 ∧
      ∃ x ∈ (t.part p).waiting, x.queue = q ∧ x.what = .flipLocks fn gpa b ho true since) ∧
  (∀ (s : State) (leaf : Nat),
    (s.leafAt leaf = none ∨ (s.readDWord 0 leaf).getLsbD 8 = false → exec (.backgroundSweep leaf) s = .next s) ∧
    (∀ p f x, s.leafAt leaf = some (p, f, x) → (s.readDWord 0 leaf).getLsbD 8 = true → leaf < dramSize → s.pageLocked x.kind x.out x.size = false →
      let u := s.takeRange leaf 8 true
      u.mem.wf = true → Orderly u → u.monitors = [] →
      ∃ t v, exec (.backgroundSweep leaf) s = .next t ∧ t.readDWord 0 leaf = s.readDWord 0 leaf &&& ~~~0x100#64 ∧
        v ∈ (t.part p).invals ∧ v.kind = 2 ∧ v.fn = f ∧ v.base = x.base ∧ v.len = x.size))

/-- What the CP does of itself (R366 to R370, R379, R383): a notify store sets WPTR, and wakes an unmapped READY queue or is discarded for a queue
that is none of the function's; a pending queue takes a free slot; a queue with nothing left is unmapped for another; AGE rises after 2 ms;
staging, the end of a slice, the exchange and the write-back move the partition from one function to another. -/
def Sys2Proof.Claims.cp_event_results : Prop :=
  (∀ (s : State) (p fn q : Nat) (v : Word) (e : QueueEntry) (k : Queue), s.queueEntry p q = some e → e.fn = fn →
    look (s.part p).mapped q = some k → (v - k.rptr).toNat ≤ 2 ^ k.ringLog →
    ∃ t, exec (.notifyStore p fn q v) s = .next t ∧ Untouched s t ∧ look (t.part p).mapped q = some { k with wptr := v } ∧
      (t.part p).pendingBits = (s.part p).pendingBits) ∧
  (∀ (s : State) (p fn q : Nat) (v : Word), (s.queueEntry p q = none ∨ ∃ e, s.queueEntry p q = some e ∧ e.fn ≠ fn) →
    ∃ t, exec (.notifyStore p fn q v) s = .next t ∧ Untouched s t ∧ (t.part p).mapped = (s.part p).mapped ∧
      (t.part p).pendingBits = (s.part p).pendingBits ∧ (lookD t.waybills 0 {}).head = min ((lookD s.waybills 0 {}).head + 1) (2 ^ 32 - 1)) ∧
  (∀ (s : State) (p fn q loc j : Nat) (v : Word) (e : QueueEntry), s.queueEntry p q = some e → e.fn = fn → look (s.part p).mapped q = none →
    let s0 := s.onPart p (fun t => { t with notify := put t.notify (fn * 65536 + q) (v.zeroExtend 64) })
    s0.qcbAt p e = some (loc, j) → (s0.readQcb loc j).state = 1 → (v - (s0.readQcb loc j).rptr).toNat ≤ 2 ^ (s0.readQcb loc j).ringLog →
    ∃ t, exec (.notifyStore p fn q v) s = .next t ∧ t.mem = (s0.cpStore (loc + 16) j (toBytes 4 v.toNat)).mem ∧ q ∈ (t.part p).pendingBits) ∧
  (∀ (s : State) (p q : Nat) (k : Queue), s.nextPending p = some q → (s.part p).mapped.length < s.slots p → look (s.part p).mapped q = none →
    s.queueOf p q = some k →
    ∃ t, exec (.queueMap p q) s = .next t ∧ Untouched s t ∧
      look (t.part p).mapped q = some { k with ahead := ((look (s.part p).resume q).map (fun b => (k.rptr.toNat, b))).toList } ∧ q ∉ (t.part p).pendingBits) ∧
  (∀ (s : State) (p q : Nat) (k : Queue), look (s.part p).mapped q = some k → s.givesWay p q = true → s.canUnmap p q = true →
    Calm s (s.writeQcb p q k) →
    ∃ t, exec (.queueUnmap p q) s = .next t ∧ look (t.part p).mapped q = none ∧ t.mem = (s.writeQcb p q k).mem ∧
      (k.state = 1 → k.rptr ≠ k.wptr → q ∈ (t.part p).pendingBits)) ∧
  (∀ (s : State) (p q since : Nat) (k : Queue), look (s.part p).ageSince q = some since → s.hasWork p q = true → since + 4800000 ≤ s.clock →
    look (s.part p).mapped q = some k →
    ∃ t, exec (.ageing p q) s = .next t ∧ Untouched s t ∧ look (t.part p).mapped q = some { k with age := min (k.age + 1) 15 } ∧
      look (t.part p).ageSince q = some (since + 4800000)) ∧
  (∀ (s : State) (p f g : Nat), (s.part p).running = some f → s.nextFunction p (some f) = some g → g ≠ f → (s.part p).switch = .running →
    g ∉ (s.part p).writingBack → s.isBad (s.contextAt p g).1 (s.contextAt p g).2 = false →
    ∃ t, exec (.staging p) s = .next t ∧ Untouched s t ∧ (t.part p).switch = .staged ∧ (t.part p).next = some g ∧ (t.part p).running = some f) ∧
  (∀ (s : State) (p f : Nat), (s.part p).running = some f → (s.part p).switch = .staged → (s.part p).sliceEnd ≤ s.clock → Orderly s →
    ∃ t, exec (.sliceEnd p) s = .next t ∧ t.mem = s.mem ∧ t.ops = s.ops ∧ (t.part p).switch = .halted ∧
      (∀ gid ∈ gidsOf (s.fnTeams p f), ∀ g, look t.groups gid = some g → g.epoch = none)) ∧
  (∀ (s : State) (p f g : Nat), (s.part p).running = some f → (s.part p).next = some g → (s.part p).switch = .halted →
    (∀ d ∈ s.drains, d.2.gid ∉ gidsOf (s.fnTeams p f) ∨ s.carriable d.2 = true) →
    (∀ d ∈ s.reduces, d.2.base.gid ∉ gidsOf (s.fnTeams p f) ∨ s.redxHeld d.2 = true) →
    s.enginesStopped (fun t => t.ctx.part == p && t.ctx.fn == f) = true →
    (s.ops.filter (fun e => e.2.ctx.part == p && e.2.locked && (s.parkedLock e.2 || (e.2.ctx.fn == f && e.2.core < 512)))).length ≤ 8192 →
    ∃ t, exec (.exchange p) s = .next t ∧ (t.part p).running = some g ∧ (t.part p).switch = .running ∧ f ∈ (t.part p).writingBack ∧
      (t.part p).next = none) ∧
  (∀ (s : State) (p : Nat), ((s.part p).writingBack = [] → exec (.contextWriteBack p) s = .next s) ∧
    (∀ f r, (s.part p).writingBack = f :: r →
      let u := s.storeFree (s.contextAt p f).1 0 (s.contextAt p f).2
      ∃ t, exec (.contextWriteBack p) s = .next t ∧ (t.part p).writingBack = r ∧ t.mem = u.mem ∧ t.groups = u.groups ∧ t.ops = u.ops ∧
        (t.part p).running = (u.part p).running))

/-- Admission and eviction (R152, R378 to R382): the one candidate that fits is admitted, its first set's teams resident with LPRIO latched and its
next team counted; a set all of whose lanes wait on WAITC leaves its cores for a waiting set of higher priority. -/
def Sys2Proof.Claims.admission_results : Prop :=
  (∀ (s : State) (p f : Nat) (c : Candidate) (n : Nat) (picks : List (Nat × Nat)), (s.part p).running = some f →
    (s.part p).switch = .running → (s.part p).migHeld = false → (s.noteProcs p).readySets p = [] → (s.noteProcs p).arbitrated p = [c] →
    (s.noteProcs p).fnRefused p c.launch.fn = false → (s.noteProcs p).place p c.launch c.launch.setSize (fun _ _ => true) = some (n, picks) →
    exec (.admission p) s = .next ((s.noteProcs p).admitSet p c n picks)) ∧
  (∀ (s : State) (lid teamId member n core sbase lprio : Nat) (l : Launch), look s.launches lid = some l → s.mem.wf = true →
    ∃ t, look (s.addTeam lid teamId member n core sbase lprio).teams s.nextId = some t ∧ t.launch = lid ∧ t.teamId = teamId ∧ t.member = member ∧
      t.core = core ∧ t.sbase = sbase ∧ t.ssize = l.ssize ∧ t.state = .resident ∧ t.lprio = lprio ∧ t.ctx = l.ctx ∧
      t.gridX = teamId % l.dimX ∧ t.gridY = teamId / l.dimX % l.dimY ∧ t.gridZ = teamId / (l.dimX * l.dimY) ∧
      (∀ k, scratchLoc (core / 8) sbase ≤ k → k < scratchLoc (core / 8) sbase + l.ssize →
        (s.addTeam lid teamId member n core sbase lprio).mem.get k = 0) ∧
      (∀ k, k < scratchLoc (core / 8) sbase ∨ scratchLoc (core / 8) sbase + l.ssize ≤ k →
        (s.addTeam lid teamId member n core sbase lprio).mem.get k = s.mem.get k)) ∧
  (∀ (l : Launch) (t : Team) (tid index role roleIndex i : Nat), i < l.width →
    let g := l.start t tid false index role roleIndex
    let r := (l.roles[role]?).getD {}
    g.arch.lanes.length = l.width ∧ (g.lane i).pc = BitVec.ofNat 57 (l.codebase + r.entry) ∧ (g.lane i).scap = r.regs - 8 ∧ (g.lane i).wbase = 0 ∧
    (g.lane i).v = [] ∧ (g.lane i).p1 = false ∧ g.trapMode = false ∧ g.epoch = none ∧ g.cap 0 = l.root ∧ g.cap 15 = l.code ∧
    (∀ n, 0 < n → n < 15 → g.cap n = {})) ∧
  (∀ (s : State) (p set : Nat) (t : Team), look s.teams set = some t → t.ctx.part = p → s.teamRuns set = true →
    (let live := (s.membersOf set).filter (fun e => e.2.state == .resident)
     live.all (fun e => s.allOnWaitc e.2) = true → s.monitorsFit (live.flatMap (fun e => e.2.groups ++ e.2.guide.toList)) = true →
     s.enginesStopped (fun u => u.launch == t.launch && u.teamId - u.member == t.teamId - t.member) = true → s.needsRoom p t.lprio = true →
     let n := (Config.evictSize s.free).toNat
     ∀ o, s.evictAt t.ctx n = some o →
       exec (.eviction p set) s = .next ((({ s with free := s.free + 1 } : State).writeEvicted t.ctx o n).evict live (o, n))))

namespace Sys2Proof.Claims

/-- A group whose memory instruction has been given to the memory side: the lanes go on, the flag it names has risen, no register has changed, and
its later accesses wait for operation id. -/
structure Launched (g g' : Group) (mask : List Nat) (flag id : Nat) : Prop where
  lanes : ∀ i < g.arch.lanes.length, (g'.lane i).v = (g.lane i).v ∧ (g'.lane i).pc = if i ∈ mask then pcOf g mask + 4 else (g.lane i).pc
  drained : g'.drained = some id
  sregs : g'.arch.sregs = g.arch.sregs
  caps : g'.caps = g.caps
  flags : g'.flags = if flag < 12 then put g.flags flag (g.flag flag + 1) else g.flags

/-- Requests that a memory-side page takes. -/
def OnSide (rs : List (Req × Option Found)) : Prop := ∀ r ∈ rs, ∃ y, r.1.x = some y ∧ y.ms = true ∧ y.kind = .dram

/-- The accesses of REDX's rows (R281): row v(a) of the capability, 16 × 2^ROW bytes each. -/
def rowReqs (t a bytes : Nat) (x : Issue) : List (Nat × Checked) :=
  x.act.map (fun i =>
    (i, onMemorySide (x.viaCap (x.g.cap t) i 0 i (((x.g.lane i).reg a).toNat * bytes) bytes (permR + permMS) .read bytes .load)))

/-- A home has given the memory side the bytes it asks for, its channels are ready, and in the machine b that its access leaves below the homes nothing
of the groups, the teams and what is in flight has moved. -/
structure Given (s a b : State) (r : Req) (w : Bool) : Prop where
  free : a.rangeFree r.loc r.size w = true
  ready : a.belowReady r.loc r.size true = true
  groups : b.groups = s.groups
  teams : b.teams = s.teams ∧ b.parts = s.parts
  flights : b.drains = s.drains ∧ b.reduces = s.reduces
  sound : b.isBad r.loc r.size = false
  canonical : b.mem.wf = true

end Sys2Proof.Claims

/-- ATOMM and REDX (R123, R280 to R282), their checks passed on memory-side pages: the lanes go on with no register changed, the flag stands, memory is
as it was, and the accesses wait at the memory side: one per lane for ATOMM, the rows and then the destination's lines for REDX. -/
def Sys2Proof.Claims.memory_side_issue : Prop :=
  (∀ (o : Fin 16) (z : Bool) (c : Fin 16) (a d : Fin 32) (f : Fin 16) (w : Fin 8) (s : State) (gid : Nat) (mask : List Nat) (g : Group)
    (rs : List (Req × Option Found)), (Instr.atomm o z c a d f w).wf = true → Plain s gid mask g → Whole g false w f →
    Resident g mask (a.val :: atomRegs o d z) → g.partdone = 0 →
    atomicReqs o c a d z true (permR + permW + permATOM + permMS) (issueAt { atomForm o d a f w z with drain := true } s gid mask g) =
      rs.map (fun r => (r.1.lane, .ok r)) → OnSide rs → (s.installAll (rs.filterMap (·.2))).groups = s.groups →
    ∃ t g' k, exec (.atomm o z c a d f w) s = .next t ∧ look t.groups gid = some g' ∧ Launched g g' mask f s.nextId ∧
      t.mem = (s.installAll (rs.filterMap (·.2))).mem ∧ look t.drains s.nextId = some k ∧ k.gid = gid ∧ k.todo = byUnit (rs.map (·.1)) ∧
      k.done = [] ∧ k.failed = [] ∧ k.pc = pcOf g mask ∧ k.act = mask) ∧
  (∀ (y : Fin 4) (t : Fin 16) (a : Fin 32) (r : Fin 8) (f : Fin 16) (w : Fin 8) (s : State) (gid : Nat) (mask : List Nat) (g : Group)
    (rs ds : List (Req × Option Found)), (Instr.redx y t a r f w).wf = true → Plain s gid mask g → Whole g false w f →
    Resident g mask [a] → g.partdone = 0 →
    let x := issueAt { vr := [a.val], flag := f, stall := w, varLat := true, drain := true, mem := true } s gid mask g
    let bytes := 16 * 2 ^ r.val
    let u := s.installAll ((rs ++ ds).filterMap (·.2))
    rowReqs t a bytes x = rs.map (fun e => (e.1.lane, .ok e)) → x.redxDest t bytes (redxElem y).1 = ds.map .ok → u.groups = s.groups →
    ∃ t' g' o, exec (.redx y t a r f w) s = .next t' ∧ look t'.groups gid = some g' ∧ Launched g g' mask f s.nextId ∧ t'.mem = u.mem ∧
      look t'.reduces s.nextId = some o ∧ o.etype = y.val ∧ o.lines.map (·.loc) = ds.map (·.1.loc) ∧ o.base.gid = gid ∧
      o.base.todo = byUnit (rs.map (·.1)) ∧ o.base.done = [] ∧ o.base.failed = [])

/-- MEMORY_SIDE_ACCESS, NMU_COMMAND and PARTIAL_SUM (R82, R86, R87, R123): the next access performs as one, the last one ends its instruction: the
flag falls, the results stand in the lanes' registers. Each element of a reduce's destination is rounded once from the exact sum of its rows and its
old value. -/
def Sys2Proof.Claims.memory_side_results : Prop :=
  (∀ (s : State) (id : Nat) (d : DrainOp) (g : Group) (r : Req) (rest : List Req) (y : Xlat), look s.drains id = some d → d.out = none → d.failed = [] →
    look s.groups d.gid = some g → g.epoch = none → r.x = some y → y.ms = true → y.kind = .dram → d.todo = r :: rest →
    d.batch = [r] → s.mayAccess (s.teamOf g) [r] = true →
    let s1 := s.takeRange r.loc r.size r.what.writes
    let s0 := s1.takeRange r.loc r.size r.what.writes
    let s2 := s0.below r.loc r.size r.key true r.what.writes (some (leads [r] r))
    s1.rangeFree r.loc r.size r.what.writes = true → s1.belowReady r.loc r.size true = true → s1.groups = s.groups →
    s1.refuser { ctx := (s.teamOf g).ctx, gva := r.gva, size := r.size, x := y } r.what.writes = none → Given s s0 s2 r r.what.writes →
    Undisturbed s2 d.gid →
    let old := (span r.loc r.size).map (s2.mem.getUnder r.key)
    let res := r.what.apply old
    let back := if r.what.reads then res.1 else []
    (∀ m v, r.what ≠ .masked m v) →
    ∃ t g', exec (.memorySideAccess id) s = .next t ∧ look t.groups d.gid = some g' ∧ g'.caps = g.caps ∧ g'.arch.sregs = g.arch.sregs ∧
      (∀ k, t.mem.getUnder r.key k = storedBy r res.2 (s2.mem.getUnder r.key) k) ∧
      (∀ k, granule k < granule r.loc ∨ granule (r.loc + r.size - 1) < granule k → (∀ l, res.2 = some l → l.length = r.size) → 0 < r.size →
        t.mem.get k = s2.mem.get k) ∧
      (∀ q more z, rest = q :: more → q.block = false → q.x = some z → z.ms = true → z.kind = .dram → g'.arch = g.arch ∧ g'.flags = g.flags ∧ g'.drained = g.drained ∧
        look t.drains id = some { d with todo := rest, done := d.done ++ [(r.lane, r.part, back)] }) ∧
      (rest = [] → d.done = [] → d.step = none → s.teamRuns g.team = true → ∀ keys, d.dest = [(r.lane, keys)] →
        (∀ k ∈ keys, d.owes g.arch r.lane k = true) →
        look t.drains id = none ∧ g'.drained = none ∧ g'.flags = (if d.flag < 12 then put g.flags d.flag (g.flag d.flag - 1) else g.flags) ∧
        (r.lane < g.arch.lanes.length → (g'.lane r.lane).v = (keys.zip (d.place.words back)).foldl (fun v w => put v w.1 w.2) (g.lane r.lane).v) ∧
        ∀ i < g.arch.lanes.length, (g'.lane i).pc = (g.lane i).pc ∧ (i ≠ r.lane → (g'.lane i).v = (g.lane i).v))) ∧
  (∀ (s : State) (id stack : Nat) (o : ReduceOp) (r : Req) (g : Group), look s.reduces id = some o → look s.groups o.base.gid = some g →
    r.what = .load → r ∈ o.base.todo → o.base.failed = [] → s.rowsOf (s.teamOf g) o.base stack = [r] →
    let s1 := s.takeRange r.loc r.size false
    let s0 := s1.takeRange r.loc r.size false
    let s2 := s0.below r.loc r.size r.key true false
    s1.rangeFree r.loc r.size false = true → s1.belowReady r.loc r.size true = true → Given s s0 s2 r false →
    ∃ t, exec (.nmuCommand id stack) s = .next t ∧ t.groups = s.groups ∧ t.mem = s2.mem ∧
      look t.reduces id = some { o with base := { o.base with
        todo := o.base.todo.drop 1, out := none
        done := o.base.done ++ [(r.lane, r.part, (span r.loc r.size).map (s2.mem.getUnder r.key))] } }) ∧
  (∀ (s : State) (id : Nat) (o : ReduceOp) (r : Req) (rest : List Req) (g : Group), look s.reduces id = some o →
    look s.groups o.base.gid = some g → g.epoch = none → o.base.todo = [] → o.base.failed = [] → o.base.step = none → o.base.dest = [] →
    o.lines = r :: rest → r.size % 4 = 0 → 0 < r.size →
    s.redxWaits (s.teamOf g) r true = false →
    let s1 := s.takeRange r.loc r.size true
    let u := s1.below r.loc r.size r.key true true
    s1.isBad r.loc r.size = false → Given s s1 u r true → Undisturbed u o.base.gid → s.teamRuns g.team = true →
    let old := (span r.loc r.size).map (u.mem.getUnder r.key)
    let new := redxLine o.etype (32 * r.unit) (o.base.done.map (·.2.2)) old
    ∃ t g', exec (.partialSum id) s = .next t ∧ look t.groups o.base.gid = some g' ∧
      (∀ k, t.mem.getUnder r.key k = if r.loc ≤ k ∧ k < r.loc + r.size then (new[k - r.loc]?).getD 0 else u.mem.getUnder r.key k) ∧
      (rest ≠ [] → look t.reduces id = some { o with lines := rest } ∧ g'.arch = g.arch ∧ g'.flags = g.flags ∧ g'.drained = g.drained) ∧
      (rest = [] → look t.reduces id = none ∧ g'.drained = none ∧
        g'.flags = (if o.base.flag < 12 then put g.flags o.base.flag (g.flag o.base.flag - 1) else g.flags) ∧
        ∀ i < g.arch.lanes.length, (g'.lane i).v = (g.lane i).v)) ∧
  (∀ (etype first j : Nat) (rows : List (List Byte)) (old : List Byte), j < old.length / 4 →
    let addends := (rows.map (fun l => rowElems (redxElem etype).2 (redxElem etype).1 l)).map (fun e => (e[first + j]?).getD (.num false 0 0))
    let start := Fmt.fp32.read false (ofBytes ((old.drop (4 * j)).take 4))
    ((redxLine etype first rows old).drop (4 * j)).take 4 = toBytes 4 (Fmt.fp32.write .rne false (sumExact .rne addends start).1).1)

namespace Sys2Proof.Claims

/-- The form of SPILL and FILL. -/
def spillForm (f w : Nat) : Form := { varLat := true, flag := f, stall := w, rule := .forbidden, mem := true }

/-- The accesses of all n steps of SPILL or FILL (R290): position p of lane i at slot p × W + i of the capability. -/
def slotReqs (fill : Bool) (n c : Nat) (x : Issue) : List (Nat × Checked) :=
  let w := if x.g.isGuide then 1 else x.g.width
  (List.range n).flatMap (fun j => x.act.map (fun i =>
    let l := x.g.lane i
    let p := if fill then l.resbase - n + j else l.resbase + j
    (i, x.viaCap (x.g.cap c) i 0 j (4 * (p * w + i)) 4 (if fill then permR else permW) (if fill then .read else .write) 4
      (if fill then .load else .store (toBytes 4 (l.position p).toNat)))))

end Sys2Proof.Claims

/-- SPILL and FILL (R290 to R292), started afresh with every access allowed: SPILL stores each lane's n lowest resident positions to their slots and
raises RESBASE by n; FILL loads the n positions below RESBASE and lowers it by n; SPILLPROG is 0 afterwards, and no other register, position
or byte of memory changes. A lane for which R291's condition fails traps ILLEGAL_INSTRUCTION. -/
def Obligations.spill_fill_results : Prop :=
  ∀ (n : Fin 256) (c f : Fin 16) (w : Fin 8) (s : State) (gid : Nat) (mask : List Nat) (g : Group) (rs : List (Req × Option Found)) (key : Nat),
    Plain s gid mask g → Whole g false w f → g.partdone = 0 → g.spillprog = 0 → 1 ≤ n.val →
    let x := issueAt (spillForm f w) s gid mask g
    let qs := byUnit (rs.map (·.1))
    let y := inOrder (s.mem.getUnder key) qs
    let same := fun (g' : Group) (l : Nat) => (g'.lane l).pc = pcOf g mask + 4 ∧ (g'.lane l).wbase = (g.lane l).wbase ∧
      (g'.lane l).scap = (g.lane l).scap ∧ ∀ r < 8, (g'.lane l).reg r = (g.lane l).reg r
    let rest := fun (g' : Group) (t : State) => g'.spillprog = 0 ∧ g'.partdone = 0 ∧ g'.arch.sregs = g.arch.sregs ∧ g'.caps = g.caps ∧
      (∀ l < g.arch.lanes.length, l ∉ mask → (g'.lane l).v = (g.lane l).v ∧ (g'.lane l).resbase = (g.lane l).resbase) ∧
      (∀ k, t.mem.getUnder key k = y.2 k) ∧
      ∀ k, (∀ r ∈ qs, granule k < granule r.loc ∨ granule (r.loc + r.size - 1) < granule k) → t.mem.get k = s.mem.get k
    ((∀ l ∈ mask, (g.lane l).resbase + n ≤ (g.lane l).wbase + 16) → Granted x (slotReqs false n c x) rs key →
      (∀ r ∈ rs, ∀ e, r.2 = some e → e.ad = none) → memBefore x rs = s.mem →
      ∃ t g', exec (.spill n c f w) s = .next t ∧ look t.groups gid = some g' ∧ rest g' t ∧
        ∀ l ∈ mask, same g' l ∧ (g'.lane l).resbase = (g.lane l).resbase + n ∧
          ∀ p, p < (g.lane l).resbase + (g.lane l).scap ∨ (g.lane l).resbase + (g.lane l).scap + n ≤ p → (g'.lane l).position p = (g.lane l).position p) ∧
    ((∀ l ∈ mask, n.val ≤ (g.lane l).resbase ∧ (g.lane l).wbase + 24 ≤ (g.lane l).resbase - n + (g.lane l).scap) →
      Granted x (slotReqs true n c x) rs key → (∀ r ∈ rs, ∀ e, r.2 = some e → e.ad = none) → memBefore x rs = s.mem →
      ∃ t g', exec (.fill n c f w) s = .next t ∧ look t.groups gid = some g' ∧ rest g' t ∧
        ∀ l ∈ mask, same g' l ∧ (g'.lane l).resbase = (g.lane l).resbase - n ∧
          (∀ j < n.val, (g'.lane l).position ((g.lane l).resbase - n + j) = BitVec.ofNat 32 (ofBytes (((bytesOf y.1 l).drop (4 * j)).take 4))) ∧
          ∀ p, p < (g.lane l).resbase - n ∨ (g.lane l).resbase ≤ p → (g'.lane l).position p = (g.lane l).position p) ∧
    (∀ ls, g.trapMode = false → ls ≠ [] →
      (ls = mask.filter (fun l => decide ((g.lane l).wbase + 16 < (g.lane l).resbase + n)) → Traps (.spill n c f w) s gid mask g 0x01 s.fetched ls) ∧
      (ls = mask.filter (fun l => decide ((g.lane l).resbase < n ∨ (g.lane l).resbase - n + (g.lane l).scap < (g.lane l).wbase + 24)) →
        Traps (.fill n c f w) s gid mask g 0x01 s.fetched ls))

namespace Sys2Proof.Claims

/-- Bytes as the store buffer's entries leave them, oldest first. -/
def buffered (m : Nat → Byte) (bs : List Buffered) : Nat → Byte :=
  bs.foldl (fun m b => b.cells.foldl (fun m c => fun k => if k = c.1 then c.2 else m k) m) m

end Sys2Proof.Claims

/-- EPOCH_COMMIT (R117, R119, R129): with its lines obtained and no range lock in the way the epoch ends, its buffered stores perform as one step,
its store flags fall and its registers stand; where a live range refuses one of its writes it rolls back to its checkpoint instead. -/
def Sys2Proof.Claims.epoch_commit_results : Prop :=
  ∀ (s : State) (gid : Nat) (g : Group) (e : Epoch) (key : Nat), look s.groups gid = some g → g.epoch = some e → g.release = [] →
    let s1 := (s.obtainStores (s.teamOf g).core e gid).1
    (s.obtainStores (s.teamOf g).core e gid).2 = true → s1.groups = s.groups → s1.mem.wf = true →
    (e.writes.any (s1.refusesWrite (s.teamOf g).ctx) = false → e.dlb = [] → Undisturbed s1 gid →
      (∀ b ∈ e.stores, b.key = key ∧ b.tag = none ∧ ∀ c ∈ b.cells, c.1 < scratchBase) →
      ∃ t g', exec (.epochCommit gid) s = .next t ∧ look t.groups gid = some g' ∧ g'.epoch = none ∧ g'.arch = g.arch ∧ g'.caps = g.caps ∧
        g'.release = [] ∧ g'.flags = (e.storeFlags.foldl (fun (h : Group) n => h.fall n) g).flags ∧
        (∀ k, t.mem.getUnder key k = buffered (s1.mem.getUnder key) e.stores k) ∧
        ∀ k, (∀ b ∈ e.stores, ∀ c ∈ b.cells, granule c.1 ≠ granule k) → t.mem.get k = s1.mem.get k) ∧
    (e.writes.any (s1.refusesWrite (s.teamOf g).ctx) = true →
      ∃ t g', exec (.epochCommit gid) s = .next t ∧ look t.groups gid = some g' ∧ g'.epoch = none ∧ g'.arch = e.saved ∧ g'.caps = g.caps ∧
        g'.flags = lowered g.flags e.raised ∧ g'.outctl.rolls = g.outctl.rolls ∧ t.mem = s1.mem ∧
        g'.outctl.replay = ((e.writes.zip e.writers).filter (fun w => s1.refusesWrite (s.teamOf g).ctx w.1)).foldl
          (fun r w => put r w.2.1 (max (lookD r w.2.1 0) (w.2.2 + 1))) g.outctl.replay)

/-- A write that performs (R118, R119, R136): memory takes its bytes, and every other group that has read one of its lines in outrider mode goes
back to its checkpoint, its flag increments withdrawn, ROLLS and RBTOTAL one higher; at ROLLS 64 it traps LIVELOCK at the checkpoint. A group that
has not read them stays in outrider mode. -/
def Sys2Proof.Claims.store_rolls_readers_back : Prop :=
  ∀ (s : State) (writer : Option Nat) (key : Nat) (cells : List (Nat × Byte)), cells ≠ [] → Orderly s → s.monitors = [] →
    let t := s.perform writer key cells
    t.mem = s.mem.write key cells ∧
    (∀ gid g e n, look s.groups gid = some g → g.epoch = some e → writer ≠ some gid → n ∈ e.reads → n ∈ cells.map (fun c => lineOf c.1) →
      ∃ g', look t.groups gid = some g' ∧ g'.epoch = none ∧ g'.caps = g.caps ∧
        g'.flags = lowered g.flags e.raised ∧
        (g.outctl.rbtotal ≠ 0xFFFF → g'.outctl.rbtotal = g.outctl.rbtotal + 1) ∧
        (g.outctl.rolls < 63 → g'.outctl.rolls = g.outctl.rolls + 1 ∧ g'.arch = e.saved ∧ g'.trapMode = false) ∧
        (g.outctl.rolls = 63 → g'.outctl.rolls = 0 ∧ g'.trapMode = true ∧ g'.tcause = 0x28 ∧ g'.tpc = e.oldestPc ∧
          g'.taddr = g'.outctl.rbtotal.zeroExtend 64 ∧ g'.tmask = maskOf e.oldestMask)) ∧
    (∀ gid g, look s.groups gid = some g →
      (∀ x ∈ s.groups, x.1 = gid → ∀ e, x.2.epoch = some e → ∀ n ∈ e.reads, n ∉ cells.map (fun c => lineOf c.1)) →
      ∃ g', look t.groups gid = some g' ∧ g'.epoch = g.epoch ∧ g'.arch = g.arch ∧ g'.flags = g.flags)

/-- PATH_ROTATION (R155): a slice that has issued 64 instructions from its path, outside regions, moves to the next path in the order of creation,
wrapping; DESCRIPTOR_RELEASE (R345): the copy sequencer's next descriptor, in range, allowed and without conflict, becomes one operation with the
descriptor's values. -/
def Obligations.path_and_descriptor_results : Prop :=
  (∀ (s : State) (gid j : Nat) (g : Group) (sl : Slice), look s.groups gid = some g → g.arch.slices[j]? = some sl → 64 ≤ sl.issued →
    (∀ e ∈ g.arch.sliceLanes j, e.2.meld = none) → g.arch.sliceLanes j ≠ [] →
    ∃ g' c, exec (.pathRotation gid j) s = .next { s with groups := put s.groups gid g' } ∧
      g' = { g with arch := { g.arch with slices := g'.arch.slices } } ∧ g'.arch.slices[j]? = some { current := c, issued := 0 } ∧
      (∀ k, k ≠ j → g'.arch.slices[k]? = g.arch.slices[k]?) ∧ (∃ e ∈ g.arch.sliceLanes j, e.2.path = c) ∧
      ((sl.current < c ∧ ∀ e ∈ g.arch.sliceLanes j, e.2.path ≤ sl.current ∨ c ≤ e.2.path) ∨
        ∀ e ∈ g.arch.sliceLanes j, e.2.path ≤ sl.current ∧ c ≤ e.2.path)) ∧
  (∀ (s : State) (core loc : Nat) (r : SeqRun) (tm : Team) (srcs dsts : List Range), (s.core core).copy = some r → r.last = false →
    (s.core core).copyHalted = false → s.teamRuns r.entry.team = true → look s.teams r.entry.team = some tm →
    let rq := s.opRequester (s.programOp core r.entry (.copy {}))
    let word := fun (n : Nat) => ofBytes (s.mem.getsUnder 0 (loc + 4 * n) 4)
    s.scratchRead rq ((r.entry.addr + 32 * r.index) % 2 ^ 32) 32 = .ok loc → word 0 / 16 % 2 = 0 → word 0 / 64 % 2 = 0 →
    (word 0 / 128 % 2 = 1 → word 7 ≤ tm.mlcount) → (copyBad word true).any id = false →
    s.copyRanges rq (copyDesc word) r.entry.cap r.entry.cap = .ok (srcs, dsts) → s.blocked tm.ctx srcs dsts (fun _ => false) = false →
    s.hasEntry core true = true → Orderly s →
    ∃ t o, exec (.descriptorRelease core) s = .next t ∧ look t.ops s.nextId = some o ∧ o.kind = .copy (copyDesc word) ∧ o.srcs = srcs ∧ o.dsts = dsts ∧
      o.program = true ∧ o.team = r.entry.team ∧ o.state = .live ∧ (t.core core).copy = some { r with index := r.index + 1, last := word 0 / 32 % 2 == 1 } ∧
      ((∀ q ∈ srcs ++ dsts, q.scratch = true) → t.mem = s.mem ∧ t.groups = s.groups))

namespace Sys2Proof.Claims

/-- Memory is as it was, but that what a slice wrote back on the way is no longer recorded as uncorrectable (R81). -/
def KeepsMem (s t : State) : Prop := t.mem = { s.mem with bad := t.mem.bad } ∧ ∀ g ∈ t.mem.bad, g ∈ s.mem.bad

/-- A core's L1 and the home of a line can take up a request at once: a frame and an entry are free, no message of the line is on its way to or from the
core, none waits before it, nothing of the host's is missing, and the hot-page tracker is off. -/
structure AtHome (s : State) (line : Nat) (r : HomeReq) (q : Nat) : Prop where
  frame : s.l1Fits q line = true
  room : s.dirFits line (q / 256) = true
  apart : ∀ m ∈ s.msgs, m.core ≠ q ∨ m.line ≠ line
  queue : (s.entry line).waiting = []
  ready : (s.setEntry line { s.entry line with waiting := [r] }).homeReady line r = true
  cold : s.hotRegs.en = false

/-- A message that is the next in order on its network between a core and the home of a line. -/
structure OnItsWay (s : State) (m : Msg) (core line net : Nat) (before after : List Msg) : Prop where
  place : s.msgs = before ++ m :: after
  first : m ∉ before
  next : s.nextMsg core line net = some m

/-- The groups whose accesses to a line a core's L1 serves, and that have read it in outrider mode, are back at their checkpoints (R61, R118). -/
def ReadersBack (s t : State) (core line : Nat) : Prop :=
  ∀ gid g e, look s.groups gid = some g → g.epoch = some e → s.l1Core (s.teamOf g).core line = core → line ∈ e.reads →
    ∃ g', look t.groups gid = some g' ∧ g'.epoch = none ∧ (g.outctl.rolls < 63 → g'.arch = e.saved)

/-- The MSC holds the dirty granules of a line that a write-back has brought (R68). -/
def BroughtBack (t : State) (line : Nat) (mask : BitVec 8) : Prop :=
  mask ≠ 0 → isHostLine line = false →
    ∃ k, look t.msc (line / 16) = some k ∧ ∀ i < 8, mask.getLsbD i = true → k.dirty.getLsbD (line % 16 * 8 + i) = true ∧
      k.valid.getLsbD (line % 16 * 8 + i) = true

end Sys2Proof.Claims

/-- READ and OWN at a home (R63, R66, R67): a core that holds the line whole asks nothing, one that holds it in X fills it from the MSC; otherwise what the
request finds in I, S and X, and what the home then sends: it names the granules the core lacks, none where it only asks for ownership. While the
entry is between stable states the request waits. No byte of memory changes. -/
def Sys2Proof.Claims.home_requests : Prop :=
  ∀ (s : State) (core line : Nat),
    let q := s.l1Core core line
    let e := s.entry line
    let r : HomeReq := { core := some q, own := false, mask := s.askMask q line false 0xFF }
    let w : HomeReq := { core := some q, own := true, mask := s.askMask q line true 0xFF }
    let next := fun (i : Instr) (d : DirEntry) (ms : List Msg) =>
      ∃ t, exec i s = .next t ∧ t.entry line = d ∧ t.msgs = s.msgs ++ ms ∧ KeepsMem s t ∧ t.groups = s.groups ∧ t.l1 = s.l1
    (s.holds core line false 0xFF = true → exec (.read core line) s = .next s) ∧
    (s.holds core line true 0xFF = true → exec (.own core line) s = .next s) ∧
    ((∀ m ∈ s.msgs, m.core ≠ q ∨ m.line ≠ line) → s.ownsCopy q line = true → s.holds core line true 0xFF = false →
      exec (.own core line) s = .next (s.fillOwned q line 0xFF) ∧
      (s.holds core line false 0xFF = false → exec (.read core line) s = .next (s.fillOwned q line 0xFF))) ∧
    (s.ownsCopy q line = false → s.holds core line false 0xFF = false →
      (AtHome s line r q →
        (e.state = .i → next (.read core line) { e with state := .s, cv := false, sharers := [q] }
          [{ kind := .grantS, core := q, line := line, mask := r.mask }]) ∧
        (e.state = .s → e.cv = false → q ∉ e.sharers → e.sharers.length < 4 →
          next (.read core line) { e with sharers := e.sharers ++ [q] } [{ kind := .grantS, core := q, line := line, mask := r.mask }]) ∧
        (e.state = .s → e.cv = true →
          next (.read core line) { e with sharers := insertNat e.sharers (clusterOf q) } [{ kind := .grantS, core := q, line := line, mask := r.mask }]) ∧
        (∀ o, e.state = .x → e.sharers = [o] → o ≠ q →
          next (.read core line) { e with state := .recall, current := some r, expected := 1, count := 0 }
            [{ kind := .recallS, core := o, line := line }])) ∧
      (s.l1Fits q line = true → (∀ m ∈ s.msgs, m.core ≠ q ∨ m.line ≠ line) → e.state = .inv ∨ e.state = .recall →
        next (.read core line) { e with waiting := e.waiting ++ [r] } [])) ∧
    (s.ownsCopy q line = false → AtHome s line w q →
      (e.state = .i → next (.own core line) { e with state := .x, cv := false, sharers := [q] }
        [{ kind := .grantX, core := q, line := line, mask := w.mask }]) ∧
      (e.state = .s → e.cv = false → e.sharers = [q] →
        next (.own core line) { e with state := .x, cv := false, sharers := [q] } [{ kind := .grantX, core := q, line := line, mask := w.mask }]) ∧
      (e.state = .s → e.targets (some q) ≠ [] →
        next (.own core line) { e with state := .inv, current := some w, expected := (e.targets (some q)).length, count := 0 }
          ((e.targets (some q)).map (fun c => { kind := .invalidate, core := c, line := line }))) ∧
      (∀ o, e.state = .x → e.sharers = [o] → o ≠ q →
        next (.own core line) { e with state := .recall, current := some w, expected := 1, count := 0 } [{ kind := .recallX, core := o, line := line }]))

/-- The messages of a line on arrival, each in the order of its network (R65 to R68, R118, R137): a grant makes the core's copy; an invalidation or recall
takes it, or its ownership, and rolls the readers back; acknowledgements and write-backs end the home's transaction; a dropped copy leaves the
record; a message held back for the priority token waits, and acts after 2,048 cycles of its core's own clock (R463). -/
def Sys2Proof.Claims.coherence_message_results : Prop :=
  ∀ (s : State) (core line : Nat) (m : Msg) (before after : List Msg), m.core = core → m.line = line → Orderly s →
    let e := s.entry line
    let here := fun (net : Nat) => OnItsWay s m core line net before after
    let ack : Msg := { kind := .ack, core := core, line := line }
    (∀ x, here 1 → m.kind = (if x then .grantX else .grantS) → s.l1Fits core line = true →
      ∃ t c, exec (.grant core line) s = .next t ∧ t.copyOf core line = some c ∧ c.exclusive = x ∧ t.msgs = before ++ after ∧ t.mem = s.mem ∧
        t.dir = s.dir ∧ (∀ i < 8, c.valid.getLsbD i = true ↔
          (m.mask.getLsbD i = true ∧ (s.mem.bad.contains (8 * line + i) = false ∨ s.mscValid (8 * line + i) = true)) ∨
            ∃ old, s.copyOf core line = some old ∧ old.valid.getLsbD i = true)) ∧
    (here 1 → m.kind = .invalidate →
      (s.heldBack m = false →
        ∃ t, exec (.invalidation core line) s = .next t ∧ t.copyOf core line = none ∧ t.msgs = before ++ after ++ [ack] ∧ KeepsMem s t ∧
          ReadersBack s t core line ∧ (∀ c, s.copyOf core line = some c → BroughtBack t line c.dirty)) ∧
      (s.heldBack m = true → m.heldSince = none → (∀ x ∈ before ++ after, x ≠ m) →
        exec (.invalidation core line) s = .next { s with msgs := before ++ { m with heldSince := some (s.ownClock m.core) } :: after })) ∧
    (∀ c, here 1 → m.kind = .recallS ∨ m.kind = .recallX → s.heldBack m = false → s.copyOf core line = some c →
      ∃ t, exec (.recall core line) s = .next t ∧ t.msgs = before ++ after ++ [{ kind := .writeBack c.dirty, core := core, line := line }] ∧
        t.mem = s.mem ∧
        (m.kind = .recallS → t.copyOf core line = some { c with exclusive := false, dirty := 0 }) ∧
        (m.kind = .recallX → t.copyOf core line = none ∧ ReadersBack s t core line)) ∧
    (∀ q k, here 2 → m.kind = .ack → e.state = .inv → e.current = some { core := some q, own := true, mask := k } → e.waiting = [] →
      (e.count + 1 = e.expected →
        ∃ t, exec (.acknowledgement core line) s = .next t ∧ t.entry line = { state := .x, sharers := [q] } ∧
          t.msgs = before ++ after ++ [{ kind := .grantX, core := q, line := line, mask := k }] ∧ t.mem = s.mem) ∧
      (e.count + 1 < e.expected →
        ∃ t, exec (.acknowledgement core line) s = .next t ∧ t.entry line = { e with count := e.count + 1 } ∧ t.msgs = before ++ after ∧ t.mem = s.mem)) ∧
    (∀ mask q own k, here 2 → m.kind = .writeBack mask → e.state = .recall → e.sharers = [core] →
      e.current = some { core := some q, own := own, mask := k } → e.waiting = [] →
      ∃ t, exec (.writeBack core line mask) s = .next t ∧ BroughtBack t line mask ∧ KeepsMem s t ∧
        t.entry line = (if own then { state := .x, sharers := [q] } else { state := .s, sharers := [core, q] }) ∧
        t.msgs = before ++ after ++ [{ kind := if own then .grantX else .grantS, core := q, line := line, mask := k }]) ∧
    (∀ c, (∀ x ∈ s.msgs, x.line ≠ line ∧ (x.core ≠ core ∨ homeOf core x.line ≠ homeOf core line ∨ x.kind.net ≠ 2)) →
      s.copyOf core line = some c → s.readersAt core line = [] →
      (c.dirty = 0 →
        ∃ t, exec (.evictionNotice core line) s = .next t ∧ t.copyOf core line = none ∧ t.mem = s.mem ∧ t.msgs = s.msgs ∧
          (e.state = .s → e.cv = false → (t.entry line).sharers = e.sharers.filter (fun n => n != core) ∧
            ((∀ n ∈ e.sharers, n = core) → (t.entry line).state = .i))) ∧
      (c.dirty ≠ 0 → e.state = .x → e.sharers = [core] → e.cv = false → s.mscStalls line = false → s.governed line = false →
        ∃ t, exec (.writeBack core line c.dirty) s = .next t ∧ t.copyOf core line = none ∧ (t.entry line).state = .i ∧ BroughtBack t line c.dirty ∧
          KeepsMem s t)) ∧
    (∀ since, s.msgs = before ++ m :: after → m.kind = .invalidate → m.heldSince = some since → since + 2048 ≤ s.ownClock m.core → m ∉ before →
      s.mscWaits m = false → (∀ x ∈ before ++ after, clusterOf x.core = clusterOf core → ∀ k, x.heldSince = some k → s.ownClock x.core < k + 2048) →
      ∃ t, exec (.tokenHoldExpiry (clusterOf core)) s = .next t ∧ t.copyOf core line = none ∧ t.msgs = before ++ after ++ [ack] ∧ KeepsMem s t)

namespace Sys2Proof.Claims

/-- A channel's requests, of which one is looked at. -/
structure AtChannel (s : State) (ch : Nat) (r : ChanReq) (before after : List ChanReq) : Prop where
  requests : (s.chan ch).requests = before ++ r :: after
  ids : ∀ q ∈ before ++ after, q.id ≠ r.id

/-- A channel's pseudo-channel state. -/
def powerOf (s : State) (ch p : Nat) : PowerState := lookD (s.chan ch).power p .awake

/-- Nothing but a channel, the MSC, and the error counters with their waybill has changed. -/
def ValuesStand (s t : State) : Prop := t.mem = s.mem ∧ t.groups = s.groups ∧ t.l1 = s.l1 ∧ t.dir = s.dir ∧ t.clock = s.clock

end Sys2Proof.Claims

/-- The events of an HBM channel (R77 to R81): DATA and ERROR answer a read, ERROR without the uncorrectable granules; ACK answers a write; a RETRY for
a refresh or an exit keeps the request until its hint has passed; refresh takes at most 1,024 cycles; pseudo-channels sleep and wake by their idle
times. None of them changes a value. -/
def Sys2Proof.Claims.hbm_event_results : Prop :=
  (∀ (s : State) (ch : Nat) (r : ChanReq) (before after : List ChanReq), AtChannel s ch r before after →
    (s.nextReq ch (fun q => !q.isWrite && (s.badOf q).isEmpty) = some r →
      ∃ t, exec (.data ch) s = .next t ∧ (t.chan ch).requests = before ++ after ∧ ValuesStand s t ∧
        ∀ m, look s.msc (r.dpa / 2048) = some m → look t.msc (r.dpa / 2048) = some { m with valid := m.valid ||| r.fill }) ∧
    (s.nextReq ch (fun q => !q.isWrite && !(s.badOf q).isEmpty) = some r →
      ∃ t, exec (.error ch) s = .next t ∧ (t.chan ch).requests = before ++ after ∧ ValuesStand s t ∧
        ∀ m k, look s.msc (r.dpa / 2048) = some m → look t.msc (r.dpa / 2048) = some k →
          ∀ i < 128, (k.valid.getLsbD i = true ↔ m.valid.getLsbD i = true ∨
            (r.fill.getLsbD i = true ∧ s.mem.bad.contains (r.dpa / 2048 * 128 + i) = false))) ∧
    (s.nextReq ch (fun q => q.isWrite) = some r →
      ∃ t, exec (.ack ch) s = .next t ∧ (t.chan ch).requests = before ++ after ∧ ValuesStand s t)) ∧
  (∀ (s : State) (ch hint : Nat) (r : ChanReq) (before after : List ChanReq), AtChannel s ch r before after → 0 < hint →
    (r.notBefore = 0 → (∀ q ∈ before, q.notBefore ≠ 0) →
      (look (s.chan ch).refresh r.bank = some (s.clock + hint) ∧ r ∈ s.heads ch) ∨ powerOf s ch (pseudoOf r.dpa) = .exiting (s.clock + hint) ∨
        (s.retiring r.dpa = true ∧ r.isWrite = true ∧ hint < 65536) →
      ∃ t, exec (.retry ch hint) s = .next t ∧ (t.chan ch).requests = before ++ { r with notBefore := s.clock + hint } :: after ∧ ValuesStand s t) ∧
    (0 < r.notBefore → r.notBefore ≤ s.clock → (∀ q ∈ before, q.notBefore = 0 ∨ s.clock < q.notBefore) →
      ∃ t, exec (.retryReissue ch) s = .next t ∧ (t.chan ch).requests = before ++ { r with notBefore := 0 } :: after ∧ ValuesStand s t)) ∧
  (∀ (s : State) (ch bank cycles : Nat), ch < 384 →
    (cycles ≤ 1024 →
      ∃ t, exec (.refresh ch bank cycles) s = .next t ∧ look (t.chan ch).refresh bank = some (s.clock + cycles) ∧
        (t.chan ch).requests = (s.chan ch).requests ∧ ValuesStand s t) ∧
    (1024 < cycles → exec (.refresh ch bank cycles) s = .next s)) ∧
  (∀ (s : State) (ch p : Nat), p < 2 →
    let idle := fun (n : Nat) => (∀ r ∈ (s.chan ch).requests, pseudoOf r.dpa ≠ p) ∧ lookD (s.chan ch).lastUse p 0 + n ≤ s.clock
    let limits := lookD (s.chan ch).limits p (0x40, 0x100)
    (∃ t, exec (.powerDown ch) s = .next t ∧ ValuesStand s t ∧ (t.chan ch).requests = (s.chan ch).requests ∧
      (powerOf s ch p = .awake → limits.1 ≠ 0 → idle (16 * limits.1) → powerOf t ch p = .powerDown) ∧
      (powerOf s ch p ≠ .awake ∨ limits.1 = 0 ∨ ¬ idle (16 * limits.1) → powerOf t ch p = powerOf s ch p)) ∧
    (∃ t, exec (.selfRefresh ch) s = .next t ∧ ValuesStand s t ∧ (t.chan ch).requests = (s.chan ch).requests ∧
      (powerOf s ch p = .powerDown → limits.1 ≠ 0 → limits.2 ≠ 0 → idle (1024 * limits.2) → powerOf t ch p = .selfRefresh) ∧
      (powerOf s ch p ≠ .powerDown ∨ limits.1 = 0 ∨ limits.2 = 0 ∨ ¬ idle (1024 * limits.2) → powerOf t ch p = powerOf s ch p)) ∧
    (∃ t, exec (.powerStateExit ch) s = .next t ∧ ValuesStand s t ∧ (t.chan ch).requests = (s.chan ch).requests ∧
      (∀ u, powerOf s ch p = .exiting u → powerOf t ch p = if u ≤ s.clock then .awake else .exiting u) ∧
      ((∀ u, powerOf s ch p ≠ .exiting u) → powerOf t ch p = powerOf s ch p))) ∧
  (∀ (s : State) (dpa : Nat) (w : Bool) (fill : BitVec 128),
    let c := s.backChannel dpa
    let t := s.chanRequest dpa w fill
    ValuesStand s t ∧ (t.chan c).requests = (s.chan c).requests ++ [{ id := s.nextId, dpa := dpa, isWrite := w, fill := fill }] ∧
    (powerOf s c (pseudoOf dpa) = .powerDown → powerOf t c (pseudoOf dpa) = .exiting (s.clock + 48)) ∧
    (powerOf s c (pseudoOf dpa) = .selfRefresh → powerOf t c (pseudoOf dpa) = .exiting (s.clock + 2400)))

/-- Channel retirement and the hot-page epoch (R95 to R98, R101): GO starts a retirement or says in STATUS why not; the switch sends every held request to the
channel and spare block of R95 and is kept for later cold resets; EPOCH_END halves an I/O die's counts once EPOCH × 1,024 cycles have passed. -/
def Sys2Proof.Claims.retirement_results : Prop :=
  (∀ (s : State) (chan : Nat),
    ∃ t, exec (.chretireGo chan) s = .next t ∧ t = { s with retire := t.retire } ∧ t.retire.field = (if s.retire.busy then s.retire.field else chan) ∧
      (s.retire.busy = true → t.retire.status = 3 ∧ t.retire.busy = true ∧ t.retire.chan = s.retire.chan ∧ t.retire.phase = s.retire.phase) ∧
      (s.retire.busy = false → 383 < chan → t.retire.status = 2 ∧ t.retire.busy = false) ∧
      (s.retire.busy = false → chan ≤ 383 → (look s.retired (chan / 32)).isSome = true → t.retire.status = 1 ∧ t.retire.busy = false) ∧
      (s.retire.busy = false → chan ≤ 383 → look s.retired (chan / 32) = none → t.retire.busy = true ∧ t.retire.phase = 1 ∧ t.retire.chan = chan)) ∧
  (∀ (s : State) (chan : Nat), s.retire.busy = true → s.retire.phase = 1 → s.retire.chan = chan → chan < 384 →
    ∃ t, exec (.retirementSwitch chan) s = .next t ∧ ValuesStand s t ∧ look t.retired (chan / 32) = some (chan % 32) ∧
      t.retire.busy = false ∧ t.retire.phase = 0 ∧ t.retire.status = 0 ∧
      ((∀ r ∈ (s.chan chan).requests, channelOf r.dpa = chan) → (t.chan chan).requests = [] ∧
        ∀ r ∈ (s.chan chan).requests, r ∈ (t.chan (t.backChannel r.dpa)).requests) ∧
      (∀ dpa, channelOf dpa = chan →
        let k := dpa / 2048 / 384 % 31
        t.backChannel dpa = 32 * (chan / 32) + (if k < chan % 32 then k else k + 1) ∧ t.backChannel dpa ≠ chan) ∧
      (∀ dpa, channelOf dpa / 32 ≠ chan / 32 → t.backChannel dpa = s.backChannel dpa)) ∧
  (∀ (s : State) (die : Fin 2), s.hotRegs.en = true →
    let due := lookD s.hotRegs.ended die.val 0 + 1024 * s.hotRegs.epoch
    (s.clock < due → exec (.epochEnd die) s = .next s) ∧
    (due ≤ s.clock → ∃ t, exec (.epochEnd die) s = .next t ∧
      t = { s with hot := t.hot, hotRegs := { s.hotRegs with ended := put s.hotRegs.ended die.val s.clock } } ∧
      ∀ k h, look s.hot k = some h →
        (k % 2 = die.val → ∃ h', look t.hot k = some h' ∧ h'.count = h.count / 2 ∧ h'.collide = false ∧
          (h'.hot = true ↔ h.hot = true ∧ s.hotRegs.hotlo ≤ h.count / 2)) ∧
        (k % 2 ≠ die.val → look t.hot k = some h)))

namespace Sys2Proof.Claims

/-- No message of a line is on its way, no group holds a priority token, and nothing waits at the line's home. -/
structure Quiet (s : State) (line : Nat) : Prop where
  msgs : ∀ m ∈ s.msgs, m.line ≠ line
  tokens : ∀ e ∈ s.groups, e.2.outctl.token = false
  queue : (s.entry line).waiting = []
  cold : s.hotRegs.en = false
  orderly : Orderly s

end Sys2Proof.Claims

/-- The host over CXL (R91, R92): the three snoops recall an owner, and SNPINV drops its copy and the device's halves; a response brings a half, and the
second lets the home grant; reads and writes of device memory take the line and record the host as a holder; an unmapped DPA is refused with a
waybill entry; an answer to a back-invalidation clears the host's holding. -/
def Obligations.host_link_results : Prop :=
  (∀ (s : State) (line o : Nat) (c : L1Line) (h : BitVec 4), s.fromHost line = true → Quiet s line →
    (s.entry line).state = .x → (s.entry line).sharers = [o] → s.copyOf o line = some c → s.mscStalls line = false → s.governed line = false →
    look s.halves line = some h →
    (∃ t, exec (.snpdata line) s = .next t ∧ (t.entry line).state = .s ∧ (t.entry line).sharers = [o] ∧
      t.copyOf o line = some { c with exclusive := false, dirty := 0 } ∧ look t.halves line = some (h &&& 3) ∧ KeepsMem s t) ∧
    (∃ t, exec (.snpcur line) s = .next t ∧ (t.entry line).state = .s ∧ t.copyOf o line = some { c with exclusive := false, dirty := 0 } ∧
      look t.halves line = some h ∧ KeepsMem s t) ∧
    (∃ t, exec (.snpinv line) s = .next t ∧ (t.entry line).state = .i ∧ t.copyOf o line = none ∧ look t.halves line = none ∧ KeepsMem s t ∧
      ReadersBack s t o line)) ∧
  (∀ (s : State) (line : Nat) (half : Fin 2) (bytes : List Byte) (h : BitVec 4), look s.halves line = some h → Quiet s line → s.monitors = [] →
    s.mem.wf = true → bytes.length = 64 →
    ∃ t, exec (.cxlCacheResponse line half bytes) s = .next t ∧ look t.halves line = some (h ||| (1#4 <<< half.val)) ∧
      (∀ k, t.mem.getUnder 0 k =
        if 128 * line + 64 * half.val ≤ k ∧ k < 128 * line + 64 * half.val + 64 then (bytes[k - (128 * line + 64 * half.val)]?).getD 0
        else s.mem.getUnder 0 k)) ∧
  (∀ (s : State) (line q : Nat) (k : BitVec 8) (half : Fin 2) (h : BitVec 4), look s.halves line = some h → (∀ m ∈ s.msgs, m.line ≠ line) →
    (s.entry line).state = .i → (s.entry line).waiting = [{ core := some q, own := false, mask := k }] → s.hotRegs.en = false →
    s.dirFits line (q / 256) = true → s.mscStalls line = false → s.l1Fits q line = true →
    s.flipping line = false → s.snoopFilter.contains line = false → (h ||| (1#4 <<< half.val)) &&& 3 = 3 →
    ∃ t c, exec (.cxlCacheResponse line half []) s = .next t ∧ t.copyOf q line = some c ∧ c.exclusive = false ∧ (t.entry line).state = .s ∧
      (t.entry line).sharers = [q] ∧ KeepsMem s t) ∧
  (∀ (s : State) (dpa fn : Nat) (e : DWord) (bytes : List Byte), s.hotRegs.en = false →
    let at_ := dpa / 64 * 64
    let stored := fun (m m' : Memory) => (∀ k, m'.getUnder 0 k = if at_ ≤ k ∧ k < at_ + 64 then (bytes[k - at_]?).getD 0 else m.getUnder 0 k) ∧
      ∀ k, at_ ≤ k → k < at_ + 64 → m'.tag (granule k) = false
    (dramSize ≤ dpa ∨ s.leafOf dpa = none → ∀ i ∈ [Instr.cxlMemRead dpa, .cxlMemWrite dpa bytes],
      ∃ t, exec i s = .next t ∧ t.mem = s.mem ∧ (lookD t.waybills 0 {}).head = min ((lookD s.waybills 0 {}).head + 1) (2 ^ 32 - 1)) ∧
    (dpa < dramSize → s.leafOf dpa = some (fn, e) → leafHostOwned e = false →
      (let u := s.snoop (dpa / 128) false
       u.copiesGone (dpa / 128) false = true → u.filterFits (dpa / 128) = true → u.hotRegs.en = false →
        ∃ t, exec (.cxlMemRead dpa) s = .next t ∧ KeepsMem u t ∧ t.groups = u.groups ∧ dpa / 128 ∈ t.snoopFilter) ∧
      (let u := s.snoop (dpa / 128) true
       u.copiesGone (dpa / 128) true = true → u.filterFits (dpa / 128) = true → u.governed (dpa / 128) = false → u.hotRegs.en = false → Orderly u → u.monitors = [] → u.mem.wf = true → bytes.length = 64 →
        ∃ t, exec (.cxlMemWrite dpa bytes) s = .next t ∧ stored u.mem t.mem ∧ dpa / 128 ∈ t.snoopFilter)) ∧
    (dpa < dramSize → s.leafOf dpa = some (fn, e) → leafHostOwned e = true → Orderly s → s.monitors = [] → s.mem.wf = true → bytes.length = 64 →
      (∃ t, exec (.cxlMemRead dpa) s = .next t ∧ KeepsMem s t ∧ t.snoopFilter = s.snoopFilter) ∧
      ∃ t, exec (.cxlMemWrite dpa bytes) s = .next t ∧ stored s.mem t.mem)) ∧
  (∀ (s : State) (line : Nat), line ∈ s.bisnp → Quiet s line →
    ∃ t, exec (.bisnpAnswer line) s = .next t ∧ line ∉ t.bisnp ∧ line ∉ t.snoopFilter ∧ t.mem = s.mem ∧ t.groups = s.groups ∧
      ∀ p w fn gpa b ho ps ls, w ∈ (s.part p).waiting → w.what = .flipHost fn gpa b ho ps ls →
        ∃ x ∈ (t.part p).waiting, x.queue = w.queue ∧ x.what = .flipHost fn gpa b ho ps (ls.filter (fun n => n != line)))

/-- FQRESP and FQTAIL (R396 to R398): RETRY makes the lanes parked on the record go on where they stopped; DENY makes them take their page fault; through the
runtime's mapping a stage-2 record is not answered; records that were held are written as FQTAIL makes room. -/
def Obligations.fault_queue_results : Prop :=
  (∀ (s : State) (p id gid : Nat) (runtime : Bool) (r : FaultRec) (before after : List FaultRec) (g : Group) (t : TrapInfo),
    (s.part p).faults = before ++ r :: after → (∀ x ∈ before ++ r :: after, x.answer = none) → (∀ x ∈ before ++ after, x.id ≠ some id) →
    r.id = some id → r.parties = [.lanes gid t] → look s.groups gid = some g → s.teamRuns g.team = true →
    g.epoch = none → g.drained = none →
    (runtime = true → r.fault.stage2 = true → ∀ i ∈ [Instr.fqrespRetry p id runtime, .fqrespDeny p id runtime],
      ∃ u, exec i s = .next u ∧ (u.part p).faults = (s.part p).faults ∧ u.groups = s.groups ∧ u.mem = s.mem) ∧
    (runtime = false ∨ r.fault.stage2 = false →
      (∃ u g', exec (.fqrespRetry p id runtime) s = .next u ∧ (u.part p).faults = before ++ after ∧ u.mem = s.mem ∧ look u.groups gid = some g' ∧
        g'.caps = g.caps ∧ g'.arch.sregs = g.arch.sregs ∧ g'.trapMode = g.trapMode ∧
        ∀ i < g.arch.lanes.length, (g'.lane i).v = (g.lane i).v ∧ (g'.lane i).pc = (g.lane i).pc ∧
          (g'.lane i).park = if i ∈ t.convoy ∧ (g.lane i).park = some .record then none else (g.lane i).park) ∧
      (g.trapMode = false →
        ∃ u g', exec (.fqrespDeny p id runtime) s = .next u ∧ (u.part p).faults = before ++ after ∧ u.mem = s.mem ∧ look u.groups gid = some g' ∧
          TrapTaken g g' t.convoy t.cause.code t.addr t.pc t.lanes))) ∧
  (∀ (s : State) (p : Nat) (tail : Word), (∀ r ∈ (s.part p).faults, r.id ≠ none ∨ r.hidden = true) →
    ∃ u, exec (.fqtailWrite p tail) s = .next u ∧ (u.part p).fqTail = tail ∧ (u.part p).fqHead = (s.part p).fqHead ∧ u.mem = s.mem ∧ u.groups = s.groups) ∧
  (∀ (s : State) (p : Nat) (tail : Word) (r : FaultRec) (before after : List FaultRec), (s.part p).faults = before ++ r :: after →
    (∀ x ∈ before ++ after, x.id ≠ none ∨ x.hidden = true) → r.id = none → r.hidden = false → (s.part p).fqHead - tail ≠ 512 → s.mem.wf = true → Orderly s →
    let q := s.part p
    let at_ := bits q.fqBase 14 26 * 2 ^ 14 + q.fqHead.toNat % 512 * 32
    let l := r.bytes q.fqHead (s.partClock p)
    ∃ u, exec (.fqtailWrite p tail) s = .next u ∧ (u.part p).fqTail = tail ∧ (u.part p).fqHead = q.fqHead + 1 ∧
      (u.part p).faults = before ++ { r with id := some q.fqHead.toNat } :: after ∧
      ∀ k, u.mem.getUnder (s.serialOf (bits q.fqBase 0 12)) k =
        if at_ ≤ k ∧ k < at_ + 32 then (l[k - at_]?).getD 0 else s.mem.getUnder (s.serialOf (bits q.fqBase 0 12)) k)

namespace Sys2Proof.Claims

/-- The device has put one packet on the fabric: a response to a flit, to its sender, in its class, with its TAG (R410, R415). -/
def Responds (before after : List Packet) (f : Flit) (kind op : Nat) (hint : Nat) (bytes : List Byte) : Prop :=
  ∃ p, after = before ++ [p] ∧ p.kind = kind ∧ p.flit.dvdn = f.svdn ∧ p.flit.svdn = f.dvdn ∧ p.flit.tag = f.tag ∧ p.flit.tc = f.tc ∧
    p.flit.op = Fin.ofNat 64 op ∧ p.flit.mask = BitVec.ofNat 16 hint ∧ p.flit.payload.take bytes.length = bytes

/-- Whether an access performs at the home's NMU (R280). -/
def sideOf (w : What) : Bool := match w with | .atomic _ _ mm _ _ => mm | _ => false

/-- A flit's access that every check of R414 lets in: the gate passes it, stage 2 permits it, no range lock and no retirement holds it, its
home has given the lines and its channels are ready, and what it touches is sound; u is the machine below the home then. -/
structure LetIn (s u : State) (f : Flit) (gpa size : Nat) (w : What) (part : Option Nat) (fn : Nat) (l : Leaf) (x : Xlat) : Prop where
  gate : s.gate f.dvdn f.svdn = .pass part fn
  leaf : stage2 s (s.inCtx part fn) gpa = .ok l
  xlat : x = xlatOf l gpa false
  allowed : permits (if w.writes then .write else .read) (entryR l.word) (entryW l.word) (entryX l.word) = true
  near : x.kind = .dram
  key : s.keyOk (part.getD 0) fn x = true
  data : w.writes = true → x.cappg = false
  unlocked : s.refuser { ctx := s.inCtx part fn, gva := 2 ^ 60, size := size, x := x } w.writes = none
  steady : s.retiring x.out = false ∨ w.writes = false
  free : (s.takeRange x.out size w.writes).rangeFree x.out size w.writes = true
  ready : (s.takeRange x.out size w.writes).belowReady x.out size (sideOf w) = true
  lines : u = (s.takeRange x.out size w.writes).below x.out size (s.serialOf x.key) (sideOf w) w.writes
  sound : u.isBad x.out size = false
  canonical : u.mem.wf = true
  orderly : Orderly u

/-- A flit that arrives is answered with one packet, and memory, under the page's key, is as `m` says. -/
def Served (i : Instr) (s u : State) (f : Flit) (x : Xlat) (kind : Nat) (bytes : List Byte) (m : Nat → Byte) : Prop :=
  ∃ t, exec i s = .next t ∧ Responds u.sent t.sent f kind 0 0xFFFF bytes ∧ ∀ k, t.mem.getUnder (s.serialOf x.key) k = m k

end Sys2Proof.Claims

/-- Accesses that arrive (R25, R280, R410, R411, R414): RD answers the bytes, WR stores what its MASK selects and is acknowledged, ATOM and ATOMM
perform and answer the old value. A line write of a copy engine that comes before its turn in its stream is held (R417). -/
def Sys2Proof.Claims.inbound_access_results : Prop :=
  ∀ (s u : State) (f : Flit) (part : Option Nat) (fn : Nat) (l : Leaf) (x : Xlat), f.gpa < 2 ^ 52 → f.gpa % 16 = 0 →
    (f.mask = 0xFFFF ∨ f.len = 1) → f.gpa % 128 / 16 + f.len ≤ 8 → 0 < f.len.val →
    let held := fun (k : Nat) => u.mem.getUnder (s.serialOf x.key) k
    let laid := fun (n : Nat) (b : List Byte) => fun (k : Nat) => if x.out ≤ k ∧ k < x.out + n then (b[k - x.out]?).getD 0 else held k
    (f.mask = 0xFFFF → f.payload = [] → f.len.val ∈ [1, 2, 4, 8] → LetIn s u f f.gpa (16 * f.len) .load part fn l x →
      Served (.peerRd f) s u f x 0x20 ((span x.out (16 * f.len)).map held) held) ∧
    (f.payload.length = 16 * f.len → f.op.val < 0x3D → (f.tc = 1 → s.linesBefore f = 0 ∧ s.heldLines = []) →
      (∀ a n, f.len = 1 → maskRun f.mask = some (a, n) → LetIn s u f (f.gpa + a) n (.store ((f.payload.drop a).take n)) part fn l x →
        Served (.peerWr f) s u f x 0x21 [] (laid n ((f.payload.drop a).take n))) ∧
      (f.len = 1 → maskRun f.mask = none → LetIn s u f f.gpa 16 (.masked (f.mask.zeroExtend 128) f.payload) part fn l x →
        Served (.peerWr f) s u f x 0x21 []
          (fun k => if x.out ≤ k ∧ k < x.out + 16 ∧ f.mask.getLsbD (k - x.out) = true then (f.payload[k - x.out]?).getD 0 else held k)) ∧
      (f.len ≠ 1 → LetIn s u f f.gpa f.payload.length (.store f.payload) part fn l x →
        Served (.peerWr f) s u f x 0x21 [] (laid f.payload.length f.payload))) ∧
    (f.payload.length = 16 * f.len → f.op.val < 0x3D → f.tc = 1 → s.gate f.dvdn f.svdn = .pass part fn → s.linesBefore f ≠ 0 → f ∉ s.heldLines →
      exec (.peerWr f) s = .next { s with heldLines := s.heldLines ++ [f] }) ∧
    (∀ a n w, f.len = 1 → f.payload.length ≤ 16 → f.payload ≠ [] → LetIn s u f a n w part fn l x →
      let old := (span x.out n).map held
      let new := ((w.apply old).2).getD []
      (f.atomic false = some (a, n, w) → Served (.peerAtom f) s u f x 0x20 old (laid n new)) ∧
      (f.atomic true = some (a, n, w) → Served (.peerAtomm f) s u f x 0x20 old (laid n new)))

/-- Accesses that are turned away (R129, R411, R414, R433, R437), here a well-formed RD: an unbound VDN and a sender off the roster get ERROR
PEER_ROSTER; a VDN that has moved gets MOVED, one whose partition stands still RETRY 65,535; a page stage 2 does not map ERROR with
PAGE_FAULT_S2, a locked one RETRY. A flit that breaks the table is discarded with a waybill entry. Memory does not change but for the violation log. -/
def Sys2Proof.Claims.inbound_refusals : Prop :=
  ∀ (s : State) (f : Flit),
    (f.gpa < 2 ^ 52 → f.gpa % 16 = 0 → f.mask = 0xFFFF → f.payload = [] → f.len.val ∈ [1, 2, 4, 8] → f.gpa % 128 / 16 + f.len ≤ 8 →
      (s.gate f.dvdn f.svdn = .unbound → ∃ t, exec (.peerRd f) s = .next t ∧ Responds s.sent t.sent f 0x23 0x13 0xFFFF [] ∧ t.mem = s.mem) ∧
      (s.gate f.dvdn f.svdn = .moved → ∃ t, exec (.peerRd f) s = .next t ∧ Responds s.sent t.sent f 0x24 0 0xFFFF [] ∧ t.mem = s.mem) ∧
      (s.gate f.dvdn f.svdn = .retry (some 65535) → ∃ t, exec (.peerRd f) s = .next t ∧ Responds s.sent t.sent f 0x22 0 65535 [] ∧ t.mem = s.mem) ∧
      (∀ part fn, s.gate f.dvdn f.svdn = .roster part fn →
        ∃ t, exec (.peerRd f) s = .next t ∧ Responds s.sent t.sent f 0x23 0x13 0xFFFF [] ∧
          t.mem = (s.logRefused part fn f.svdn f.gpa (s.inKey part fn f.gpa) .peerRoster).mem) ∧
      (∀ part fn r, s.gate f.dvdn f.svdn = .pass part fn → stage2 s (s.inCtx part fn) f.gpa = .error r →
        ∃ t, exec (.peerRd f) s = .next t ∧ Responds s.sent t.sent f 0x23 0x11 0xFFFF [BitVec.ofNat 8 (if r = rKindAttr then rKindAttr else rRemote)] ∧
          t.mem = (s.logRefused part fn f.svdn f.gpa 0 .pageFaultS2).mem) ∧
      (∀ part fn l n o, s.gate f.dvdn f.svdn = .pass part fn → stage2 s (s.inCtx part fn) f.gpa = .ok l →
        permits .read (entryR l.word) (entryW l.word) (entryX l.word) = true →
        let x := xlatOf l f.gpa false
        x.kind = .dram → s.keyOk (part.getD 0) fn x = true →
        s.refuser { ctx := s.inCtx part fn, gva := 2 ^ 60, size := 16 * f.len, x := x } false = some (n, o) →
        ∃ t h, exec (.peerRd f) s = .next t ∧ Responds s.sent t.sent f 0x22 0 h [] ∧ t.mem = s.mem)) ∧
    (f.len.val ∉ [1, 2, 4, 8] → ∃ t, exec (.peerRd f) s = .next t ∧ t.sent = s.sent ∧ t.mem = s.mem ∧
      (lookD t.waybills 0 {}).head = min ((lookD s.waybills 0 {}).head + 1) (2 ^ 32 - 1))

/-- Launch packets and collective flits (R349, R351, R377, R418): a LAUNCH is placed into the listed queue and acknowledged; a step takes the bytes, the
clearance, the pairs or the end marker meant for it; what comes before its step is kept. -/
def Sys2Proof.Claims.inbound_message_results : Prop :=
  ∀ (s : State) (f : Flit) (part : Option Nat) (fn : Nat), s.gate f.dvdn f.svdn = .pass part fn → f.shaped = true →
    (∀ p q record e k t0 loc j, part = some p → f.len ≠ 0 → s.launchListed p f.svdn (ofBytes (f.payload.take 2)) = .take q record →
      s.queueEntry p q = some e → look (s.part p).mapped q = some k →
      s.reachMem (e.ctx s p) false (k.ringBase + 64 * (k.wptr.toNat % 2 ^ k.ringLog)) true = some (t0, loc, j) →
      let u := t0.cpStore loc j (launchBytes record)
      Calm s u → u.sent = s.sent →
      ∃ t, exec (.launchPacket f) s = .next t ∧ t.mem = u.mem ∧ look (t.part p).mapped q = some { k with wptr := k.wptr + 1 } ∧
        Responds s.sent t.sent f 0x21 0 0xFFFF []) ∧
    (f.gpa = 0 →
      let local_ := vdnFn (s.vdnOf f.dvdn)
      (∀ p c u, look s.colls p = some c → u ∈ c.posted →
        let stands := fun (i : Instr) (v : PostedStep) =>
          ∃ t c', exec i s = .next t ∧ look t.colls p = some c' ∧ v ∈ c'.posted ∧ c'.ended = c.ended ∧ t.mem = s.mem ∧ Responds s.sent t.sent f 0x21 0 0xFFFF []
        (f.len ≠ 0 → s.findStep local_ (fun t => (t.op == 1 || t.op == 2) && t.args.vdn == f.svdn && t.args.tag == f.tag &&
            decide (t.received.length < t.args.length.toNat)) = some (p, u) →
          u.received.length + f.payload.length ≤ u.args.length.toNat →
          (if f.payload.length < 240 then u.received.length + f.payload.length else Config.sendLength u.engineOp) = u.args.length.toNat →
          stands (.cdata f) { u with received := u.received ++ f.payload }) ∧
        (f.len = 0 → s.findStep local_ (fun t => t.op == 0 && !t.cleared && t.args.vdn == f.svdn && t.args.tag == f.tag) = some (p, u) →
          stands (.clear f) { u with cleared := true }) ∧
        (f.len ≠ 0 → f.payload.length % 8 = 0 → s.findStep local_ (fun t => t.takesSparse f.tag) = some (p, u) →
          stands (.sparseFlit f) { u with pairs := u.pairs ++ pairsOf f.payload (f.payload.length / 8) }) ∧
        (f.len = 0 → s.findStep local_ (fun t => t.takesSparse f.tag) = some (p, u) → stands (.spend f) { u with ends := u.ends + 1 })) ∧
      (f.len = 0 → s.findStep local_ (fun t => t.op == 0 && !t.cleared && t.args.vdn == f.svdn && t.args.tag == f.tag) = none →
        ∃ t, exec (.clear f) s = .next t ∧ t.early = s.early ++ [f] ∧ t.colls = s.colls))

namespace Sys2Proof.Claims

/-- A drained access of one lane is out on the fabric: the outbound packet of a number, the instruction that waits for it, its one access
left, and the group. -/
structure Outstanding (s : State) (id did : Nat) (q : Outbound) (d : DrainOp) (g : Group) (r : Req) (keys : List Nat) (since epoch : Nat) : Prop where
  packet : look s.outbound id = some q
  plain : q.kind = 0 ∧ q.moved = none ∧ q.owner = .drain did
  state : q.state = .sent since epoch
  op : look s.drains did = some d
  left : d.todo = [r] ∧ d.done = [] ∧ d.failed = [] ∧ d.step = none ∧ d.dest = [(r.lane, keys)]
  group : look s.groups d.gid = some g
  lane : r.lane < g.arch.lanes.length ∧ d.saved.lanes.length = g.arch.lanes.length
  owed : ∀ k ∈ keys, d.owes g.arch r.lane k = true
  remote : ∃ x, r.x = some x ∧ x.kind = .peer
  runs : s.teamRuns g.team = true ∧ (s.part (s.teamOf g).ctx.part).migImage = false
  mode : g.epoch = none ∧ g.trapMode = false

/-- The instruction has ended well: its packet and record are gone, its flag has fallen, and these registers of its lane hold these words. -/
def EndsWell (i : Instr) (s : State) (id did : Nat) (d : DrainOp) (g : Group) (r : Req) (writes : List (Nat × Word)) : Prop :=
  ∃ t g', exec i s = .next t ∧ look t.outbound id = none ∧ look t.drains did = none ∧ look t.groups d.gid = some g' ∧ t.mem = s.mem ∧
    g'.drained = none ∧ g'.caps = g.caps ∧ g'.arch.sregs = g.arch.sregs ∧
    g'.flags = (if d.flag < 12 then put g.flags d.flag (g.flag d.flag - 1) else g.flags) ∧
    (g'.lane r.lane).v = writes.foldl (fun v w => put v w.1 w.2) (g.lane r.lane).v ∧
    ∀ i < g.arch.lanes.length, (g'.lane i).pc = (g.lane i).pc ∧ (i ≠ r.lane → (g'.lane i).v = (g.lane i).v)

/-- The instruction has ended in a trap at its own address, for its lane, with a cause and TADDR. -/
def EndsInTrap (i : Instr) (s : State) (id did : Nat) (d : DrainOp) (r : Req) (cause : Nat) (addr : DWord) : Prop :=
  ∃ t g', exec i s = .next t ∧ look t.outbound id = none ∧ look t.drains did = none ∧ look t.groups d.gid = some g' ∧ g'.drained = none ∧
    g'.trapMode = true ∧ g'.tcause = cause ∧ g'.taddr = addr ∧ g'.tpc = d.pc ∧ g'.tmask = maskOf [r.lane] ∧
    ∀ i < d.saved.lanes.length, (g'.lane i).v = ((d.saved.lanes[i]?).getD {}).v

/-- The packet stands as q, and no group and no memory has changed. -/
def StandsAs (i : Instr) (s : State) (id : Nat) (q : Outbound) : Prop :=
  ∃ t, exec i s = .next t ∧ look t.outbound id = some q ∧ t.groups = s.groups ∧ t.mem = s.mem ∧ t.drains = s.drains

end Sys2Proof.Claims

/-- What becomes of an access that is out on the fabric (R134, R261, R412, R414, R416): DATA and ACK end its instruction; ERROR traps its group;
RETRY waits out its hint and is resent; MOVED goes by the new route once EPOCH has changed, and reads again after 4,096 cycles while not; 100 ms without
a response is MACHINE_CHECK. The group sees none of RETRY and MOVED. -/
def Sys2Proof.Claims.outbound_response_results : Prop :=
  ∀ (s : State) (id did : Nat) (q : Outbound) (d : DrainOp) (g : Group) (r : Req) (keys : List Nat) (since epoch : Nat),
    Outstanding s id did q d g r keys since epoch →
    let now := vdnEpoch (s.vdnOf q.vdn)
    let ports := BitVec.ofNat 18 (vdnPorts (s.vdnOf q.vdn))
    (∀ bytes, q.what.reads = true → bytes.length = q.size →
      EndsWell (.peerData id bytes) s id did d g r
        (keys.zip (d.place.words ((bytes.drop (r.loc - (peerPacket d.todo r).1)).take r.size)))) ∧
    (q.what.reads = false → EndsWell (.peerAck id) s id did d g r (keys.zip (d.place.words []))) ∧
    (Undisturbed s d.gid → ∀ x, r.x = some x →
      EndsInTrap (.peerError id 0x13) s id did d r 0x13 (BitVec.ofNat 64 (x.vdn * 2 ^ 52 + r.loc))) ∧
    (∀ hint, StandsAs (.peerRetry id hint) s id { q with state := .retry (s.clock + min hint 65535) }) ∧
    (now = epoch → StandsAs (.moved id) s id { q with state := .moved epoch (s.clock + 4096) }) ∧
    (now ≠ epoch → vdnHeld (s.vdnOf q.vdn) = false → vdnLocal (s.vdnOf q.vdn) = false → ports &&& ~~~s.portsDown ≠ 0 →
      StandsAs (.moved id) s id { q with state := .sent s.clock now, ports := ports }) ∧
    (since + 240000000 ≤ s.clock → ∀ x, r.x = some x →
      EndsInTrap (.linkTimeout id) s id did d r 0x3F (BitVec.ofNat 64 r.gva)) ∧
    (s.clock < since + 240000000 → exec (.linkTimeout id) s = .next s)

/-- RESEND, MOVED_REREAD, the VDN table and the ports (R409, R412, R416): a packet is sent by its entry as it stands, waits at a HELD one without limit,
and goes once the entry is rewritten ACTIVE; a port that fails leaves every mask until it is retrained. -/
def Sys2Proof.Claims.route_results : Prop :=
  (∀ (s : State) (id : Nat) (q : Outbound), look s.outbound id = some q → q.kind = 0 → (∀ p, q.owner ≠ .move p) →
    let e := s.vdnOf q.vdn
    let ports := BitVec.ofNat 18 (vdnPorts e)
    let sent : Outbound := { q with state := .sent s.clock (vdnEpoch e), ports := ports }
    (∀ t, q.state = .retry t →
      (t ≤ s.clock → vdnHeld e = false → vdnLocal e = false → ports &&& ~~~s.portsDown ≠ 0 → StandsAs (.resend id) s id sent) ∧
      (t ≤ s.clock → vdnHeld e = true → StandsAs (.resend id) s id { q with state := .held, ports := ports }) ∧
      (s.clock < t → exec (.resend id) s = .next s)) ∧
    (∀ old t, q.state = .moved old t → t ≤ s.clock →
      (vdnEpoch e ≠ old → vdnHeld e = false → vdnLocal e = false → ports &&& ~~~s.portsDown ≠ 0 → StandsAs (.movedReread id) s id sent) ∧
      (vdnEpoch e = old → StandsAs (.movedReread id) s id { q with state := .moved old (s.clock + 4096) }))) ∧
  (∀ (s : State) (v : Fin 2048) (w : DWord), (∀ x ∈ s.outbound, x.2.state = .held → x.2.vdn ≠ v.val) →
    ∃ t, exec (.vdnTableWrite v w) s = .next t ∧ t.vdnOf v = w &&& 0xFFFFFFFFFFFF87FF ∧ (∀ n, n ≠ v.val → t.vdnOf n = s.vdnOf n) ∧ t.outbound = s.outbound ∧ t.mem = s.mem ∧
      t.groups = s.groups) ∧
  (∀ (s : State) (v : Fin 2048) (w : DWord) (id : Nat) (q : Outbound), s.outbound = [(id, q)] → q.state = .held → q.vdn = v → q.kind = 0 →
    (∀ p, q.owner ≠ .move p) →
    (bits w 61 2 = 1 → ∃ t, exec (.vdnTableWrite v w) s = .next t ∧ look t.outbound id = some q) ∧
    (bits w 61 2 = 0 → vdnLocal w = false → BitVec.ofNat 18 (vdnPorts w) &&& ~~~s.portsDown ≠ 0 →
      ∃ t, exec (.vdnTableWrite v w) s = .next t ∧ look t.outbound id = some { q with state := .sent s.clock (vdnEpoch w), ports := BitVec.ofNat 18 (vdnPorts w) })) ∧
  (∀ (s : State) (port : Fin 18),
    (let down := s.portsDown ||| 1#18 <<< port.val
     (∀ x ∈ s.outbound, ∀ a b, x.2.state = .sent a b → ({ s with portsDown := down } : State).hasPort x.2 = true) → s.outbound.Pairwise (fun a b => a.1 < b.1) →
     ∃ t, exec (.portDown port) s = .next t ∧ t.portsDown = down ∧ t.outbound = s.outbound ∧ t.groups = s.groups ∧ t.mem = s.mem ∧
       (lookD t.waybills 0 {}).head = min ((lookD s.waybills 0 {}).head + 1) (2 ^ 32 - 1)) ∧
    ∃ t, exec (.portRetrain port) s = .next t ∧ t = { s with portsDown := t.portsDown } ∧
      ∀ i < 18, t.portsDown.getLsbD i = (s.portsDown.getLsbD i && decide (i ≠ port.val)))

/-- MIGCTL and the governor (R426, R428, R431, R440): GO takes the written fields and starts pre-copy, or fails with the STATUS of R428; STOP is noted; ABORT
ends a migration the destination has not acknowledged; each is ignored in a phase that does not take it. The end of a round sets DIRTY, ROUND and the
rate, and begins the next round or the stop, whose groups roll back uncounted. -/
def Sys2Proof.Claims.migration_source_results : Prop :=
  (∀ (s : State) (p : Nat) (w : DWord),
    let t0 := s.onPart p (fun q => q.setMigctl w)
    let q := s.part p
    ∃ t, exec (.migctlGo p w) s = .next t ∧ t.mem = s.mem ∧ t.groups = s.groups ∧
      (t.part p).migRate = w.toNat % 2 ^ 16 ∧ (t.part p).migDvdn = w.toNat / 2 ^ 49 % 2 ^ 11 ∧ (t.part p).migSelf = w.toNat / 2 ^ 20 % 2 ^ 11 ∧
      (t.part p).migPorts = BitVec.ofNat 18 (w.toNat / 2 ^ 31) ∧ (t.part p).migAuto = w.getLsbD 60 ∧
      (q.migPhase = 1 ∨ q.migPhase = 2 ∨ q.migPhase = 3 → (t.part p).migPhase = q.migPhase ∧ (t.part p).migEffective = q.migEffective) ∧
      (q.migPhase ≠ 1 → q.migPhase ≠ 2 → q.migPhase ≠ 3 →
        (t0.goStatus p = 0 → (t.part p).migPhase = 1 ∧ (t.part p).migStatus = 0 ∧ (t.part p).migRound = 0 ∧ (t.part p).migEffective = w.toNat % 2 ^ 16 ∧
          (t.part p).migStop = false) ∧
        (t0.goStatus p ≠ 0 → (t.part p).migPhase = 6 ∧ (t.part p).migStatus = t0.goStatus p))) ∧
  (∀ (s : State) (p : Nat), (s.extents p = none → s.goStatus p = 1) ∧
    (∀ es e, s.extents p = some es → e ∈ es → s.extentMapped p e = false → s.goStatus p = 1) ∧
    (∀ es, s.extents p = some es → (∀ e ∈ es, s.extentMapped p e = true) → (s.part p).migPorts = 0 → s.goStatus p = 2)) ∧
  (∀ (s : State) (p : Nat), let q := s.part p
    ∃ t, exec (.migctlStop p) s = .next t ∧ t.mem = s.mem ∧ t.groups = s.groups ∧ (t.part p).migPhase = q.migPhase ∧
      (t.part p).migStop = (q.migStop || decide (q.migPhase = 1))) ∧
  (∀ (s : State) (p : Nat), let q := s.part p
    ∃ t, exec (.migctlAbort p) s = .next t ∧ t.mem = s.mem ∧ t.groups = s.groups ∧
      (q.migPhase = 1 ∨ (q.migPhase = 2 ∧ q.migEndAck = false) →
        (t.part p).migPhase = 5 ∧ (t.part p).migHeld = false ∧ (t.part p).migRanges = [] ∧ ∀ x ∈ t.outbound, x.2.owner ≠ .move p) ∧
      (¬(q.migPhase = 1 ∨ (q.migPhase = 2 ∧ q.migEndAck = false)) → t = s)) ∧
  (∀ (s : State) (p us : Nat) (es : List Extent), s.extents p = some es → (s.part p).migPhase = 1 → listBlocks es ≤ (s.part p).migPos →
    let q := s.part p
    let d := s.dirtyListed p
    (q.migStop = false ∨ 262144 < d →
      ∃ t, exec (.precopyRoundEnd p us) s = .next t ∧ t.mem = s.mem ∧ t.groups = s.groups ∧ (t.part p).migPhase = 1 ∧ (t.part p).migDirty = d ∧
        (t.part p).migRound = q.migRound + 1 ∧ (t.part p).migPos = 0 ∧
        (t.part p).migEffective = if 262144 < d ∧ q.migAuto = true then max 1 (131072 / us) else q.migEffective) ∧
    (q.migStop = true → d ≤ 262144 →
      ∃ t, exec (.precopyRoundEnd p us) s = .next t ∧ (t.part p).migPhase = 2 ∧ (t.part p).migHeld = true ∧ (t.part p).migDirty = d ∧
        (t.part p).migRound = q.migRound + 1 ∧ ∀ gid ∈ s.partGids p, ∀ g, look t.groups gid = some g → g.epoch = none)) ∧
  (∀ (s : State) (p us : Nat) (es : List Extent), s.extents p = some es → (s.part p).migPos < listBlocks es → exec (.precopyRoundEnd p us) s = .next s) ∧
  (∀ (s : State) (p : Nat), ∃ t, exec (.governorWindow p) s = .next t ∧ t = { s with parts := t.parts } ∧ (t.part p).migUsed = 0 ∧
    (t.part p).migEffective = (s.part p).migEffective) ∧
  (∀ (s : State) (p line : Nat) (q : Part), s.parts = [(p, q)] → 128 * line < dramSize → s.dirtyMap.contains (line / 16) = false → q.lists (line / 16) = true →
    (s.governed line = true ↔ q.migEffective ≠ 0 ∧ q.migEffective ≤ q.migUsed))

/-- What arrives at a destination (R429, R432): a data line stands under its leaf's key with its tags, where the leaf has CAPPG, and its uncorrectable
granules; image bytes stand in the image area, and the last write waits for the installation; a carried result reaches its lane, or is kept until
the installation. -/
def Sys2Proof.Claims.migration_destination_results : Prop :=
  ∀ (s : State) (f : Flit) (p : Nat), f.shaped = true → s.gate f.dvdn f.svdn ≠ .moved → (∀ n, s.gate f.dvdn f.svdn ≠ .forward n) →
    s.acceptsMigration f = some p → look s.sec.migKeys p = none →
    (∀ l x, f.op = 0x3F → f.len = 9 → f.payload.length = 144 → f.gpa % 128 = 0 → f.tag.toNat < 2 ^ 11 → s.partOf f.tag.toNat = some p →
      stage2 s (s.inCtx (some p) f.tag.toNat) f.gpa = .ok l → x = xlatOf l f.gpa false → x.kind = .dram → x.out % 128 = 0 →
      s.keyUsable p f.tag.toNat x.key = true →
      let a := s.takeRange x.out 128 true
      let u := a.below x.out 128 (s.serialOf x.key) false true
      let flag := fun (n g : Nat) => ((f.payload[n]?).getD 0).getLsbD g
      a.rangeFree x.out 128 true = true → a.belowReady x.out 128 false = true → a.sec = s.sec → u.mem.wf = true → Orderly u →
      ∃ t, exec (.migrationDataWrite f) s = .next t ∧ Responds u.sent t.sent f 0x21 0 0xFFFF [] ∧
        (∀ k, t.mem.getUnder (s.serialOf x.key) k = if x.out ≤ k ∧ k < x.out + 128 then (f.payload[k - x.out]?).getD 0 else u.mem.getUnder (s.serialOf x.key) k) ∧
        ∀ g < 8, t.mem.tag (x.out / 16 + g) = (x.cappg && flag 128 g) ∧ t.mem.bad.contains (x.out / 16 + g) = flag 129 g) ∧
    (f.op = 0x3E → f.len ≠ 0 → f.tag = 0 →
      let at_ := (s.part p).inImg * 4096 + f.gpa
      let n := f.payload.length
      let a := s.takeRange at_ n true
      let u := a.below at_ n 0 false true
      (s.imageArea p < f.gpa + n → ∃ t, exec (.imageWrite f) s = .next t ∧ Responds s.sent t.sent f 0x23 0x3F 0xFFFF [] ∧ t.mem = s.mem) ∧
      (f.gpa + n ≤ s.imageArea p → at_ + n ≤ dramSize → a.rangeFree at_ n true = true → a.belowReady at_ n false = true → a.sec = s.sec → a.parts = s.parts →
          u.mem.wf = true → Orderly u →
        ∃ t, exec (.imageWrite f) s = .next t ∧
          (∀ k, t.mem.getUnder 0 k = if at_ ≤ k ∧ k < at_ + n then (f.payload[k - at_]?).getD 0 else u.mem.getUnder 0 k) ∧
          (f.gpa + n ≠ (t.readDWord 0 ((s.part p).inImg * 4096 + 16)).toNat → Responds u.sent t.sent f 0x21 0 0xFFFF []) ∧
          (f.gpa + n = (t.readDWord 0 ((s.part p).inImg * 4096 + 16)).toNat → (t.part p).inEnd = some f ∧ t.sent = u.sent))) ∧
    (f.op = 0x3D → f.len = 1 → f.tag = 0 → f.gpa < 2 ^ 16 →
      ((s.part p).inPhase = 1 →
        ∃ t, exec (.carriedResultWrite f) s = .next t ∧ look (t.part p).carried f.gpa = some f.payload ∧ Responds s.sent t.sent f 0x21 0 0xFFFF [] ∧
          t.mem = s.mem ∧ t.groups = s.groups) ∧
      (∀ id did q d g r keys, (s.part p).inPhase = 2 ∨ (s.part p).inPhase = 3 → s.outbound = [(id, q)] → q.part = p → q.state = .elsewhere f.gpa →
        q.moved = none → q.owner = .drain did → look s.drains did = some d → d.todo = [r] → d.done = [] → d.failed = [] → d.step = none →
        d.dest = [(r.lane, keys)] → look s.groups d.gid = some g → r.lane < g.arch.lanes.length → s.teamRuns g.team = true → g.epoch = none →
        (∀ k ∈ keys, d.owes g.arch r.lane k = true) → (∃ x, r.x = some x ∧ x.kind = .peer) → (s.part (s.teamOf g).ctx.part).migImage = false →
        f.payload[8]? = some 0 → q.size ≤ 8 → f.payload.length = 16 →
        EndsWell (.carriedResultWrite f) s id did d g r
          (keys.zip (d.place.words (((f.payload.take q.size).drop (r.loc - (peerPacket d.todo r).1)).take r.size)))))

/-- Installation, switch, resume and the end of forwarding (R436 to R438): an image that fails is answered with ERROR and leaves the partition unresumed;
the source's entries then lead to the destination with EPOCH + 1; at resume the partition's CLOCK is CAPCLK + 2,400,000 and its entries are ACTIVE; after
200 µs the source's clusters hold no team. -/
def Sys2Proof.Claims.migration_switch_results : Prop :=
  (∀ (s : State) (p : Nat) (f : Flit), (s.part p).inEnd = some f →
    (s.installed p = none →
      ∃ t, exec (.install p) s = .next t ∧ (t.part p).inPhase = 4 ∧ (t.part p).inEnd = none ∧ Responds s.sent t.sent f 0x23 0x3F 0xFFFF [] ∧
        t.groups = s.groups ∧ t.mem = s.mem) ∧
    (let base := (s.part p).inImg * 4096
     let n := (s.readDWord 0 (base + 16)).toNat
     let byte := fun (o m : Nat) => ofBytes (((s.mem.getsUnder 0 base n).drop o).take m)
     n < 64 ∨ s.imageArea p < n ∨ byte 0 4 ≠ 0x4744414C ∨ byte 4 2 ≠ 0x0100 ∨ byte 28 4 ≠ crc32c ((s.mem.getsUnder 0 base n).drop 32) → s.installed p = none) ∧
    (∀ u, s.installed p = some u → (s.part p).carried = [] →
      ∃ t, exec (.install p) s = .next t ∧ (t.part p).inPhase = 2 ∧ (t.part p).inEnd = none ∧ Responds u.sent t.sent f 0x21 0 0xFFFF [])) ∧
  (∀ (s : State) (p : Nat), (s.part p).migPhase = 2 → (s.part p).migEndAck = true → (∀ x ∈ s.outbound, x.2.state ≠ .held) → s.vdn.Pairwise (fun a b => a.1 < b.1) →
    ∃ t, exec (.switch p) s = .next t ∧ (t.part p).migPhase = 3 ∧ (t.part p).migSwitched = s.clock ∧ t.mem = s.mem ∧ t.groups = s.groups ∧
      (∀ e ∈ s.vdnsOf p, let w := t.vdnOf e.1
        vdnV w = true ∧ vdnLocal w = false ∧ vdnDev w = vdnDev (s.vdnOf (s.part p).migDvdn) ∧ vdnPorts w = vdnPorts (s.vdnOf (s.part p).migDvdn) ∧
        vdnEpoch w = (vdnEpoch e.2 + 1) % 2 ^ 16 ∧ vdnFn w = vdnFn e.2) ∧
      ∀ v, (∀ e ∈ s.vdnsOf p, e.1 ≠ v) → t.vdnOf v = s.vdnOf v) ∧
  (∀ (s : State) (p : Nat), ¬((s.part p).migPhase = 2 ∧ (s.part p).migEndAck = true) → exec (.switch p) s = .next s) ∧
  (∀ (s : State) (p : Nat), (s.part p).inPhase = 2 → (∀ x ∈ s.outbound, x.2.state ≠ .held) → (∀ r ∈ (s.part p).faults, r.answer = none) →
    s.vdn.Pairwise (fun a b => a.1 < b.1) → s.clock < 2 ^ 64 →
    ∃ t, exec (.resume p) s = .next t ∧ (t.part p).inPhase = 3 ∧ (t.part p).migHeld = false ∧ t.mem = s.mem ∧ t.groups = s.groups ∧
      t.partClock p = ((s.part p).capClock + 2400000) % 2 ^ 64 ∧ (∀ fn, (s.part p).inRun = some fn → (t.part p).running = some fn) ∧
      ∀ e ∈ s.vdnsOf p, vdnHeld (t.vdnOf e.1) = false ∧ vdnV (t.vdnOf e.1) = true ∧ vdnLocal (t.vdnOf e.1) = true ∧ vdnFn (t.vdnOf e.1) = vdnFn e.2) ∧
  (∀ (s : State) (p : Nat), (s.part p).migPhase = 3 →
    ((s.part p).migSwitched + 480000 ≤ s.clock →
      ∃ t, exec (.forwardingEnd p) s = .next t ∧ (t.part p).migPhase = 4 ∧ t.mem = s.mem ∧ (∀ x ∈ t.teams, x.2.ctx.part ≠ p) ∧
        (∀ x ∈ t.launches, x.2.part ≠ p) ∧ (∀ gid ∈ s.partGids p, look t.groups gid = none) ∧
        ∀ x ∈ s.teams, x.2.ctx.part ≠ p → x ∈ t.teams) ∧
    (s.clock < (s.part p).migSwitched + 480000 → exec (.forwardingEnd p) s = .next s))

/-- PARTCLU and PARTCFG (R421, R422, R423, R453): a partition takes its clusters unless teams, a migration or another partition's clusters stand against it, and
changing it writes no memory; minimum shares that would pass 1,024 or 256 in sum are ignored. -/
def Sys2Proof.Claims.partition_results : Prop :=
  (∀ (s : State) (p : Nat) (w : DWord),
    (s.hasTeams p = true ∨ (s.part p).migPhase = 1 ∨ (s.part p).migPhase = 2 ∨ (s.part p).migPhase = 3 ∨
        (∃ e ∈ s.parts, e.1 ≠ p ∧ e.2.clusters &&& w ≠ 0) → exec (.partcluWrite p w) s = .next s) ∧
    (s.hasTeams p = false → (s.part p).migPhase = 0 ∨ 4 ≤ (s.part p).migPhase → (∀ e ∈ s.parts, e.1 ≠ p → e.2.clusters &&& w = 0) →
      w ≠ 0 ∨ (s.part p).clusters = 0 →
      ∃ t, exec (.partcluWrite p w) s = .next t ∧ t = { s with parts := t.parts } ∧ (t.part p).clusters = w ∧ ∀ n, n ≠ p → t.part n = s.part n) ∧
    (s.hasTeams p = false → (s.part p).migPhase = 0 ∨ 4 ≤ (s.part p).migPhase → (s.part p).clusters ≠ 0 →
      ∃ t, exec (.partcluWrite p 0) s = .next t ∧ (t.part p).clusters = 0 ∧ t.mem = s.mem ∧ t.groups = s.groups ∧ t.sec.keys = s.sec.keys ∧
        t.sec.queue.getLast? = some { op := 0xFF, arg := p, buf := 0, internal := true })) ∧
  (∀ (s : State) (p : Nat) (w : DWord), s.parts.Pairwise (fun a b => a.1 < b.1) →
    let others := s.parts.filter (fun e => e.1 != p)
    let h := w.toNat / 2 ^ 48 % 2 ^ 10
    let f := w.toNat / 2 ^ 40 % 2 ^ 8
    (1024 < h + (others.map (·.2.hbmMin)).sum ∨ 256 < f + (others.map (·.2.fabMin)).sum → exec (.partcfgWrite p w) s = .next s) ∧
    (h + (others.map (·.2.hbmMin)).sum ≤ 1024 → f + (others.map (·.2.fabMin)).sum ≤ 256 →
      ∃ t, exec (.partcfgWrite p w) s = .next t ∧ t = { s with parts := t.parts } ∧ (t.part p).hbmMin = h ∧ (t.part p).fabMin = f ∧
        (t.part p).clusters = (s.part p).clusters ∧ (t.part p).readPartcfg = w &&& 0x03FFFF0000000000 ∧ ∀ n, n ≠ p → t.part n = s.part n))

/-- REGISTER_WRITE (R5): no register write changes memory, a group or CLOCK; each register takes its writable fields, reserved ones read as zero (R6), a
write-one-to-clear field is cleared by any one bit, and what is read-only stays. -/
def Sys2Proof.Claims.register_write_results : Prop :=
  ∀ (s : State) (w : DWord),
    (∀ reg : DevReg, ∃ t, exec (.registerWrite reg w) s = .next t ∧ t.mem = s.mem ∧ t.groups = s.groups ∧ t.clock = s.clock) ∧
    (∃ t, exec (.registerWrite .hbmpwr w) s = .next t ∧ t.regs.hbmpwr = w &&& 0x0000FFFFFFFF0000) ∧
    (∃ t, exec (.registerWrite .hptctl w) s = .next t ∧ t.hotRegs.hothi = w.toNat / 2 ^ 48 ∧ t.hotRegs.hotlo = w.toNat / 2 ^ 32 % 2 ^ 16 ∧
      t.hotRegs.epoch = w.toNat / 2 ^ 8 % 2 ^ 24 ∧ t.hotRegs.en = w.getLsbD 0) ∧
    (∃ t, exec (.registerWrite .hpthead w) s = .next t ∧ t.hotRegs.head = s.hotRegs.head ∧
      t.hotRegs.lost = if w.toNat / 2 ^ 32 = 0 then s.hotRegs.lost else 0) ∧
    (∃ t, exec (.registerWrite .hpttail w) s = .next t ∧ t.hotRegs.tail = w.toNat % 2 ^ 32) ∧
    (∃ t, exec (.registerWrite .hptbase w) s = .next t ∧ t.hotRegs.base = w &&& 0x000000FFFFFFF000) ∧
    (w.getLsbD 63 = false → ∃ t, exec (.registerWrite .chretire w) s = .next t ∧ t.retire = { s.retire with field := w.toNat % 2 ^ 9 }) ∧
    (∃ t, exec (.registerWrite .rostdata w) s = .next t ∧ t.readRostdata = w ∧
      ∀ fn v, fn * 32 + v / 64 ≠ rosterKey s.regs.rostsel → t.onRoster fn v = s.onRoster fn v) ∧
    (∃ t, exec (.registerWrite .rostsel w) s = .next t ∧ t.regs.rostsel = w &&& 0x000007FF0000001F ∧ t.roster = s.roster) ∧
    (∃ t, exec (.registerWrite .wbsel w) s = .next t ∧ t.readWbsel.toNat % 2 ^ 32 = w.toNat % 2 ^ 24 ∧ t.waybills = s.waybills) ∧
    (∃ t, exec (.registerWrite .seccmd w) s = .next t ∧ t.sec.accepted = s.sec.accepted + 1 ∧ t.sec.done = s.sec.done ∧ t.sec.keys = s.sec.keys) ∧
    (∀ p : Nat, let q := s.part p
      (∃ t, exec (.registerWrite (.vlogbase p) w) s = .next t ∧ t.part p = { q with vlogBase := w &&& 0x000000FFFFFFFFFF }) ∧
      (∃ t, exec (.registerWrite (.vloghead p) w) s = .next t ∧ t.part p = { q with vlogLost := if w.toNat / 2 ^ 32 = 0 then q.vlogLost else 0 }) ∧
      (∃ t, exec (.registerWrite (.vlogtail p) w) s = .next t ∧ t.part p = { q with vlogTail := w.truncate 32 }) ∧
      (∃ t, exec (.registerWrite (.fqbase p) w) s = .next t ∧ t.part p = { q with fqBase := w &&& 0x000000FFFFFFEFFF }) ∧
      (∃ t, exec (.registerWrite (.fabwt p) w) s = .next t ∧ t.part p = { q with fabwt := w &&& 0x00000000FFFFFFFF }) ∧
      (∃ t, exec (.registerWrite (.miglist p) w) s = .next t ∧ t.part p = { q with migList := w &&& 0xFFFFFFFFFFFFFFE0 }) ∧
      (∃ t, exec (.registerWrite (.migin p) w) s = .next t ∧ (t.part p).inEn = w.getLsbD 63 ∧ (t.part p).inSrc = w.toNat / 2 ^ 49 % 2 ^ 11 ∧
        (t.part p).inImg = w.toNat / 2 ^ 12 % 2 ^ 28) ∧
      (w.toNat / 2 ^ 61 = 0 → ∃ t, exec (.registerWrite (.migctl p) w) s = .next t ∧ (t.part p).migPhase = q.migPhase ∧ (t.part p).migRate = w.toNat % 2 ^ 16) ∧
      (∀ n : Fin 5, n.val < q.block.length → ∃ t, exec (.registerWrite (.partBlock p n) w) s = .next t ∧ (t.part p).word n = w))

namespace Sys2Proof.Claims

/-- The command at the head of the SEC's order is this one (R449). -/
def SecHead (s : State) (op arg buf : Nat) (c : SecCmd) : Prop :=
  s.sec.queue.head? = some c ∧ c.op = op ∧ c.arg = arg ∧ c.buf = buf ∧ c.reserved = false

/-- The command completes: the SEC holds k afterwards, with the command gone from its order and counted in DONE, and bytes 0 to 7 of its buffer are its status
and its number. u is the machine once the command has read its buffer. -/
def SecEnds (i : Instr) (s u : State) (c : SecCmd) (status : Nat) (k : Sec) : Prop :=
  let w : State := { u with sec := { k with queue := s.sec.queue.drop 1, done := s.sec.done + 1 } }
  let v := (w.takeRange c.buf 8 true).below c.buf 8 0 false true
  c.internal = false → c.op ≠ 0xFF → c.buf + 8 ≤ dramSize → v.mem.wf = true → Orderly v → v.sec = w.sec →
    ∃ t, exec i s = .next t ∧ t.sec = w.sec ∧
      ∀ n, t.mem.getUnder 0 n = if c.buf ≤ n ∧ n < c.buf + 8 then ((toBytes 4 status ++ toBytes 4 c.number)[n - c.buf]?).getD 0 else v.mem.getUnder 0 n

/-- The fields of a token that UNLOCK compares (R457): SERIAL, NONCE, EXPIRY, PART, and those that must be zero. -/
def TokenMatches (s : State) (l : List Byte) : Prop :=
  let at_ := fun (o n : Nat) => ofBytes ((l.drop o).take n)
  let nonce := BitVec.ofNat 384 (at_ 16 48)
  at_ 0 16 = Config.serial.toNat ∧
    ((at_ 64 1 < 64 ∧ look s.sec.nonces (at_ 64 1) = some nonce) ∨ (at_ 64 1 = 255 ∧ s.sec.lastNonce = some nonce)) ∧
    nonce ∉ s.sec.usedNonces ∧ s.clock ≤ at_ 72 8 ∧ at_ 65 1 < 8 ∧ at_ 66 6 = 0 ∧ at_ 80 944 = 0

/-- The responder's place and answer, all else as it was. -/
def Answers (i : Instr) (s : State) (p : Spdm) (a : SpdmAnswer) : Prop :=
  exec i s = .next { s with sec := { s.sec with spdm := p, answer := some a } }

end Sys2Proof.Claims

/-- KEYINSTALL and KEYRETIRE (R451 to R453): the status of each case, in order; a key ID installed is bound to its function under a key of its own, and
a retired one is EMPTY once no L1 and no MSC slice holds a line under it; until then KEYRETIRE goes on. -/
def Obligations.key_results : Prop :=
  (∀ (s : State) (arg buf : Nat) (c : SecCmd), SecHead s 1 arg buf c →
    let u := s.secTake buf 184
    let field := u.secNumber buf 8 8
    let fn := field % 2 ^ 11
    u.sec = s.sec →
    (arg ≠ 0 → (look s.sec.keys arg).isSome = true → SecEnds (.keyinstall arg buf) s u c 5 s.sec) ∧
    (arg ≠ 0 → look s.sec.keys arg = none →
      (u.partOf fn = none → SecEnds (.keyinstall arg buf) s u c 2 s.sec) ∧
      (∀ p, u.partOf fn = some p →
        (look s.sec.attKeys p = none → SecEnds (.keyinstall arg buf) s u c 2 s.sec) ∧
        (∀ k, look s.sec.attKeys p = some k →
          let whole := Config.verifies (toBytes 8 k ++ u.secRead buf 16 168)
          (whole = false → SecEnds (.keyinstall arg buf) s u c 3 s.sec) ∧
          (whole = true → 2 ^ 11 ≤ field → SecEnds (.keyinstall arg buf) s u c 2 s.sec) ∧
          (whole = true → field < 2 ^ 11 →
            SecEnds (.keyinstall arg buf) s u c 1
              { s.sec with keys := put s.sec.keys arg { fn := fn, serial := s.sec.nextSerial }, nextSerial := s.sec.nextSerial + 1 }))))) ∧
  (∀ (s : State) (arg buf : Nat) (c : SecCmd), SecHead s 2 arg buf c → arg ≠ 0 →
    (look s.sec.keys arg = none → SecEnds (.keyretire arg buf) s s c 1 s.sec) ∧
    (∀ k, look s.sec.keys arg = some k →
      let u := s.dropKeyLines k.serial
      (u.keyGone k.serial = false → exec (.keyretire arg buf) s = .next u) ∧
      (u.keyGone k.serial = true → u.sec = s.sec →
        SecEnds (.keyretire arg buf) s u c 1 { s.sec with keys := del s.sec.keys arg }))) ∧
  (∀ (s : State) (p fn id : Nat), id ≠ 0 → (s.keyUsable p fn id = true ↔ ∃ k, look s.sec.keys id = some k ∧ k.fn = fn)) ∧
  (∀ (s : State) (p fn : Nat), s.keyUsable p fn 0 = true ↔ p ∉ s.sec.sealedParts)

/-- ATTEST and MIGKEY (R454, R456): a new attestation key and nonce for the partition, and the fields of the report; a migration key where the peer's report
verifies. -/
def Obligations.attestation_results : Prop :=
  (∀ (s : State) (arg buf : Nat) (c : SecCmd), SecHead s 3 arg buf c → arg < 64 →
    let u := s.secTake buf 56
    let nonce := u.secRead buf 8 48
    let n := BitVec.ofNat 384 (ofBytes nonce)
    let k : Sec := { s.sec with
      attKeys := put s.sec.attKeys arg s.sec.nextSerial, nextSerial := s.sec.nextSerial + 1, nonces := put s.sec.nonces arg n, lastNonce := some n }
    let w : State := { u with sec := k }
    let r := w.secWrite buf 64 (w.report_ arg nonce)
    u.sec = s.sec → r.sec = k →
      SecEnds (.attest arg buf) s { r with free := w.free + reportSize } c 1 k) ∧
  (∀ (s : State) (p : Nat) (nonce : List Byte), nonce.length = 48 → p < 64 →
    let h := s.reportHead p nonce
    let at_ := fun (o n : Nat) => ofBytes ((h.drop o).take n)
    h.length = 168 ∧ (s.report_ p nonce).length = 16872 ∧ at_ 0 4 = 0x54525441 ∧ at_ 4 2 = 0x0100 ∧ at_ 6 1 = p ∧
      at_ 7 1 = (if p ∈ s.sec.sealedParts then 1 else 0) ∧ at_ 8 8 = s.clock % 2 ^ 64 ∧ (h.drop 16).take 48 = nonce ∧
      (s.sec.svn < 256 → s.sec.fuse < 256 → at_ 112 8 = s.sec.svn + 256 * s.sec.fuse)) ∧
  (∀ (s : State) (arg buf : Nat) (c : SecCmd), SecHead s 8 arg buf c → arg < 64 →
    let u := s.secTake buf 16880
    u.sec = s.sec →
    (Config.verifies (u.secRead buf 8 16872) = false → SecEnds (.migkey arg buf) s u c 3 s.sec) ∧
    (Config.verifies (u.secRead buf 8 16872) = true →
      SecEnds (.migkey arg buf) s u c 1
        { s.sec with migKeys := put s.sec.migKeys arg s.sec.nextSerial, nextSerial := s.sec.nextSerial + 1 }))

/-- SEAL, UNLOCK, the expiry of a token and BREAKPOINT_ARM (R401, R456, R457, R461): the first failure decides; sealing revokes the partition's tokens and
disarms its breakpoints; a partition that was being sealed when an UNLOCK was accepted gives SEALING. -/
def Obligations.seal_and_token_results : Prop :=
  (∀ (s : State) (w : DWord),
    let op := w.toNat / 2 ^ 56
    let arg := w.toNat / 2 ^ 44 % 2 ^ 12
    ∃ t c, exec (.registerWrite .seccmd w) s = .next t ∧ t.sec.queue = s.sec.queue ++ [c] ∧ c.op = op ∧ c.arg = arg ∧ c.buf = w.toNat / 2 ^ 4 % 2 ^ 36 * 16 ∧
      c.number = s.sec.accepted.toNat ∧ c.internal = false ∧ c.seals = s.sec.sealing ∧
      (op = 4 → arg < 64 → t.sec.sealing = s.sec.sealing ++ [arg]) ∧ (op ≠ 4 → t.sec.sealing = s.sec.sealing)) ∧
  (∀ (s : State) (arg buf : Nat) (c : SecCmd), SecHead s 4 arg buf c → arg < 64 →
    let k := { s.sec with sealing := s.sec.sealing.erase arg }
    (arg ∈ s.sec.sealedParts → SecEnds (.seal arg buf) s s c 6 k) ∧
    (arg ∉ s.sec.sealedParts →
      SecEnds (.seal arg buf) s (s.disarmAll arg) c 1
        { k with sealedParts := insertNat s.sec.sealedParts arg, tokens := s.sec.tokens.filter (fun e => e.2.part != arg) })) ∧
  (∀ (s : State) (p gid : Nat) (g : Group), look (s.disarmAll p).groups gid = some g →
    ∃ g0, look s.groups gid = some g0 ∧ g.breakpoints.length = g0.breakpoints.length ∧ { g with breakpoints := [] } = { g0 with breakpoints := [] } ∧
      ((s.teamOf g0).ctx.part = p → ∀ b ∈ g.breakpoints, b = none) ∧ ((s.teamOf g0).ctx.part ≠ p → g = g0)) ∧
  (∀ (s : State) (arg buf : Nat) (c : SecCmd), SecHead s 5 arg buf c →
    let u := s.secTake buf 17640
    let l := u.secRead buf 8 1024
    let at_ := fun (o n : Nat) => ofBytes ((l.drop o).take n)
    let signed := Config.verifies (l ++ u.secRead buf 1032 16608)
    let sealing := if at_ 64 1 = 255 then c.seals ≠ [] else at_ 64 1 ∈ c.seals
    u.sec = s.sec →
    (signed = false → SecEnds (.unlock arg buf) s u c 3 s.sec) ∧
    (signed = true → ¬TokenMatches u l → SecEnds (.unlock arg buf) s u c 8 s.sec) ∧
    (signed = true → TokenMatches u l →
      (sealing → SecEnds (.unlock arg buf) s u c 7 s.sec) ∧
      (¬sealing → at_ 64 1 ∈ s.sec.sealedParts → SecEnds (.unlock arg buf) s u c 6 s.sec) ∧
      (¬sealing → at_ 64 1 ∉ s.sec.sealedParts →
        SecEnds (.unlock arg buf) s u c 1
          { s.sec with
            tokens := put s.sec.tokens s.sec.nextToken { part := at_ 64 1, perm := BitVec.ofNat 3 (at_ 65 1), expiry := at_ 72 8 }
            nextToken := s.sec.nextToken + 1, usedNonces := BitVec.ofNat 384 (at_ 16 48) :: s.sec.usedNonces }))) ∧
  (∀ (s : State) (n : Nat) (t : Token), look s.sec.tokens n = some t →
    (t.expiry < s.clock → exec (.tokenExpiry n) s = .next { s with sec := { s.sec with tokens := del s.sec.tokens n } }) ∧
    (s.clock ≤ t.expiry → exec (.tokenExpiry n) s = .next s)) ∧
  (∀ (s : State) (gid gva : Nat) (n : Fin 8) (g : Group), look s.groups gid = some g →
    let p := (s.teamOf g).ctx.part
    let mayArm := p ∉ s.sec.sealedParts ∧
      ∃ e ∈ s.sec.tokens, (e.2.part = p ∨ e.2.part = 255) ∧ e.2.perm.getLsbD 0 = true ∧ s.clock ≤ e.2.expiry
    (mayArm → exec (.breakpointArm gid n gva) s =
      .next { s with groups := put s.groups gid { g with breakpoints := g.breakpoints.set n (some gva) } }) ∧
    (¬mayArm → exec (.breakpointArm gid n gva) s = .next s))

/-- FWLOAD and FWCOMMIT (R458, R459): an image with a failing signature or hash, or an SVN below the fuse count or above 64, is refused; an accepted one waits
for the next warm reset; the fuse counter reaches the running SVN and never falls. -/
def Obligations.firmware_results : Prop :=
  (∀ (s : State) (arg buf : Nat) (c : SecCmd), SecHead s 6 arg buf c →
    let head := s.secRead buf 8 128
    let fields := Config.fwHeader head
    let n := fields.2.1
    let u := s.secTake buf (136 + n + 66432)
    let body := u.secRead buf 136 n
    let signed := Config.verifies (head ++ u.secRead buf (136 + n) 33216)
    u.sec = s.sec →
    (signed = false ∨ Config.sha384 body ≠ fields.2.2 → SecEnds (.fwload arg buf) s u c 3 s.sec) ∧
    (signed = true → Config.sha384 body = fields.2.2 →
      (fields.1 < s.sec.fuse ∨ 64 < fields.1 → SecEnds (.fwload arg buf) s u c 4 s.sec) ∧
      (s.sec.fuse ≤ fields.1 → fields.1 ≤ 64 →
        SecEnds (.fwload arg buf) s u c 1 { s.sec with pending := some (Config.sha384 (head ++ body), fields.1) }))) ∧
  (∀ (s : State) (arg buf : Nat) (c : SecCmd), SecHead s 7 arg buf c →
    (s.sec.fuse < s.sec.svn → SecEnds (.fwcommit arg buf) s s c 1 { s.sec with fuse := s.sec.svn }) ∧
    (s.sec.svn ≤ s.sec.fuse → SecEnds (.fwcommit arg buf) s s c 1 s.sec))

/-- The SPDM and IDE_KM requests (R460): the answer to each where it is expected; the order in which SPDM 1.2 takes them is the model's (log entry 98: it is taken from
outside the manual). IDE_KM requests need a session, take their place behind the commands the SEC has accepted, and a stream beyond 3 is
rejected. -/
def Obligations.spdm_results : Prop :=
  ∀ s : State,
    let p := s.sec.spdm
    let ready := p = .negotiated ∨ p = .exchanging ∨ p = .session
    let fails := fun (i : Instr) => exec i s = .next { s with sec := { s.sec with answer := some .error } }
    Answers .getVersion s .version (.version 0x12) ∧
    (p = .version → Answers .getCapabilities s .capabilities .capabilities) ∧ (p ≠ .version → fails .getCapabilities) ∧
    (∀ a, (p = .capabilities →
        exec (.negotiateAlgorithms a) s = .next { s with sec := { s.sec with spdm := .negotiated, algs := a, answer := some (.algorithms a) } }) ∧
      (p ≠ .capabilities → fails (.negotiateAlgorithms a))) ∧
    (ready → Answers .getDigests s p .digests ∧ Answers .getCertificate s p .certificate ∧
      (∀ n, s.sec.algs.rsa3072Sha384 = true → Answers (.challenge n) s p (.challenge n)) ∧
      Answers .getMeasurements s p (.measurements s.sec.imageHash s.sec.svn)) ∧
    (¬ready → fails .getDigests ∧ fails .getCertificate ∧ (∀ n, fails (.challenge n)) ∧ fails .getMeasurements ∧ ∀ k, fails (.keyExchange k)) ∧
    (∀ k : BitVec 768, ready → s.sec.algs = { rsa3072Sha384 := true, secp384r1 := true, aes256Gcm := true } →
      (Config.verifies (toBytes 96 k.toNat) = true →
        exec (.keyExchange k) s = .next { s with sec := { s.sec with
          spdm := .exchanging, answer := some .keyExchange, sessionKey := s.sec.nextSerial, nextSerial := s.sec.nextSerial + 1 } }) ∧
      (Config.verifies (toBytes 96 k.toNat) = false → fails (.keyExchange k))) ∧
    (∀ m : BitVec 384, p = .exchanging →
      (Config.verifies (toBytes 8 s.sec.sessionKey ++ toBytes 48 m.toNat) = true → Answers (.finish m) s .session .finish) ∧
      (Config.verifies (toBytes 8 s.sec.sessionKey ++ toBytes 48 m.toNat) = false → fails (.finish m))) ∧
    let none_ := s.sec.queue = []
    let waits := fun (i : Instr) (r : IdeKm) => exec i s = .next { s with sec := { s.sec with
      queue := s.sec.queue ++ [{ op := 0xFE, arg := 0, buf := 0, internal := true, ide := some r }] } }
    (p = .session → none_ → Answers .query s .session (.streams 4)) ∧ (p = .session → ¬none_ → waits .query .query) ∧
    (∀ ks key, let at_ := ks.stream * 4 + ks.dir.val * 2 + ks.set.val
      let way := ks.stream * 2 + ks.dir.val
      (p = .session → ¬none_ → waits (.keyProg ks key) (.keyProg ks key) ∧ waits (.kSetGo ks) (.setGo ks) ∧ waits (.kSetStop ks) (.setStop ks)) ∧
      (p = .session → none_ →
        (ks.stream ≤ 3 → exec (.keyProg ks key) s =
          .next { s with sec := { s.sec with answer := some (.keyProg true), ideKeys := put s.sec.ideKeys at_ key } }) ∧
        (3 < ks.stream → Answers (.keyProg ks key) s .session (.keyProg false)) ∧
        ((look s.sec.ideKeys at_).isSome = true → exec (.kSetGo ks) s =
          .next { s with sec := { s.sec with answer := some (.setGo true), ideActive := put s.sec.ideActive way ks.set.val } }) ∧
        (look s.sec.ideKeys at_ = none → Answers (.kSetGo ks) s .session (.setGo false)) ∧
        (look s.sec.ideActive way = some ks.set.val → exec (.kSetStop ks) s =
          .next { s with sec := { s.sec with answer := some (.setStop true), ideActive := del s.sec.ideActive way } }) ∧
        (look s.sec.ideActive way ≠ some ks.set.val → Answers (.kSetStop ks) s .session (.setStop false))) ∧
      (p ≠ .session → fails .query ∧ fails (.keyProg ks key) ∧ fails (.kSetGo ks) ∧ fails (.kSetStop ks)))

namespace Sys2Proof.Claims

/-- The device ring has taken this entry as its newest (R467); the other rings are as they were. -/
def Recorded (s t : State) (e : Waybill) : Prop :=
  (lookD t.waybills 0 {}).entries.getLast? = some e ∧
    (lookD t.waybills 0 {}).head = min ((lookD s.waybills 0 {}).head + 1) (2 ^ 32 - 1) ∧
    ((lookD s.waybills 0 {}).entries.length < 16384 → (lookD t.waybills 0 {}).entries = (lookD s.waybills 0 {}).entries ++ [e]) ∧
    ((lookD s.waybills 0 {}).entries.length = 16384 → (lookD t.waybills 0 {}).entries.length = 16384) ∧
    ∀ n, n ≠ 0 → lookD t.waybills n {} = lookD s.waybills n {}

end Sys2Proof.Claims

/-- PWRCAP, the power and thermal loops and supply droop (R462, R463, R468): CAP between 600 and 2,000 with CAP_CHANGE written only on a change; the clocks step
by 100 MHz between 1.2 and 2.4 GHz (that they rise again by the same step is the model's choice, log entry 101); none of these changes a value, an order, or CLOCK. -/
def Sys2Proof.Claims.power_results : Prop :=
  (∀ (s : State) (w : DWord),
    let n := w.toNat % 4096
    let cap := if n < 600 then 600 else if 2000 < n then 2000 else n
    ∃ t, exec (.pwrcapWrite w) s = .next t ∧ t = { s with regs := t.regs, waybills := t.waybills } ∧ t.regs.cap = cap ∧ t.regs.draw = s.regs.draw ∧
      (cap = s.regs.cap → t.waybills = s.waybills) ∧
      (cap ≠ s.regs.cap →
        Recorded s t { time := s.clock, addr := BitVec.ofNat 64 cap, detail := BitVec.ofNat 64 s.regs.cap, code := 0x0020, part := none })) ∧
  (∀ (s : State) (w : BitVec 16), exec (.drawWindow w) s = .next { s with regs := { s.regs with draw := w.toNat } }) ∧
  (∀ s : State, let r := s.regs
    (r.cap < r.draw → exec .powerCapWindow s = .next { s with regs := { r with freq := if r.freq < 1300 then 1200 else r.freq - 100 } }) ∧
    (r.draw ≤ r.cap → r.hotDies ≠ [] → exec .powerCapWindow s = .next s) ∧
    (r.draw ≤ r.cap → r.hotDies = [] →
      exec .powerCapWindow s = .next { s with regs := { r with freq := if 2300 < r.freq then 2400 else r.freq + 100 } })) ∧
  (∀ (s : State) (core : Nat),
    exec (.droop core) s = .next { s with cores := put s.cores core { s.core core with droop := true } } ∧
    exec (.droopEnd core) s = .next { s with cores := put s.cores core { s.core core with droop := false } }) ∧
  (∀ (s : State) (die : Fin 4) (temp : Nat),
    (105 < temp → ∃ t, exec (.thermal die temp) s = .next t ∧ t = { s with regs := t.regs, waybills := t.waybills } ∧ t.regs.freq = 1200 ∧
      (∀ d, d ∈ t.regs.hotDies ↔ d = die.val ∨ d ∈ s.regs.hotDies) ∧
      Recorded s t { time := s.clock, addr := BitVec.ofNat 64 die.val, detail := BitVec.ofNat 64 temp, code := 0x0021, part := none }) ∧
    (temp ≤ 105 → exec (.thermal die temp) s = .next s)) ∧
  (∀ (s : State) (die : Fin 4), ∃ t, exec (.dieBelow95c die) s = .next t ∧ t = { s with regs := t.regs } ∧ t.regs.freq = s.regs.freq ∧
    ∀ d, d ∈ t.regs.hotDies ↔ d ≠ die.val ∧ d ∈ s.regs.hotDies)

/-- PATROL_SCRUB and the error counters (R465, R466): a scrub changes no value, no tag and no dirty bit, and an uncorrectable granule is recorded with SCRUB set;
whether there was a correctable error is a free value. A field of RASCNT is cleared by writing 1 to any bit of it. -/
def Sys2Proof.Claims.scrub_and_counter_results : Prop :=
  (∀ (s : State) (dpa : Nat),
    (∃ t, exec (.patrolScrub dpa) s = .next t ∧ t.mem = s.mem ∧ t.dirtyMap = s.dirtyMap ∧ t.groups = s.groups ∧ t.monitors = s.monitors ∧ t.l1 = s.l1 ∧
      t.dir = s.dir ∧ t.clock = s.clock) ∧
    (dpa < dramSize → dpa / 16 ∈ s.mem.bad →
      ∃ t, exec (.patrolScrub dpa) s = .next t ∧
        (lookD t.ras 0 0).toNat / 2 ^ 32 = min ((lookD s.ras 0 0).toNat / 2 ^ 32 + 1) (2 ^ 32 - 1) ∧
        (lookD t.ras 0 0).toNat % 2 ^ 32 = (lookD s.ras 0 0).toNat % 2 ^ 32 ∧
        Recorded s t { time := s.clock, addr := BitVec.ofNat 64 (dpa / 16 * 16), detail := 0, code := 0x0001, part := none, scrub := true }) ∧
    (dpa < dramSize → dpa / 16 ∉ s.mem.bad →
      ∃ t, exec (.patrolScrub dpa) s = .next t ∧ (lookD t.ras 0 0).toNat / 2 ^ 32 = (lookD s.ras 0 0).toNat / 2 ^ 32 ∧
        ((lookD t.ras 0 0).toNat % 2 ^ 32 = (lookD s.ras 0 0).toNat % 2 ^ 32 ∨
          (lookD t.ras 0 0).toNat % 2 ^ 32 = min ((lookD s.ras 0 0).toNat % 2 ^ 32 + 1) (2 ^ 32 - 1)))) ∧
  (∀ (s : State) (n : Fin 8) (w : DWord),
    let v := lookD s.ras n.val 0
    ∃ t, exec (.rascntWrite n w) s = .next t ∧ t = { s with ras := t.ras } ∧ (∀ m, m ≠ n.val → lookD t.ras m 0 = lookD s.ras m 0) ∧
      (lookD t.ras n.val 0).toNat / 2 ^ 32 = (if w.toNat / 2 ^ 32 = 0 then v.toNat / 2 ^ 32 else 0) ∧
      (lookD t.ras n.val 0).toNat % 2 ^ 32 = (if w.toNat % 2 ^ 32 = 0 then v.toNat % 2 ^ 32 else 0)) ∧
  (∀ (s : State) (ch : Nat), s.clock < (s.chan ch).hour + hourTicks → (s.chan ch).corrected = 4095 →
    Recorded s (s.corrected ch) { time := s.clock, addr := BitVec.ofNat 64 ch, detail := 4096, code := 0x0003, part := none })

/-- Errors of the arrays (R81, R400, R464, R465): a struck granule or word changes no byte and is met by every access that touches it; an add that reads a struck
register traps MACHINE_CHECK with SRC 2 in the lane that read it, and one that writes it whole mends it; an error of a checkpoint store ends its launch FAULTED,
without a trap; a corrected error is only counted. -/
def Sys2Proof.Claims.strike_results : Prop :=
  (∀ (s : State) (r : List Turn) (loc : Nat),
    (s.agenda = .strike (.granule 0 loc) :: r → loc < dramSize → ∃ t, step s = .next t ∧ t = { s with agenda := r, mem := t.mem } ∧
      t.mem = { s.mem with bad := t.mem.bad } ∧
      ∀ k n, t.mem.isBad k n = true ↔ s.mem.isBad k n = true ∨ (k < 16 * (loc / 16) + 16 ∧ 16 * (loc / 16) < k + n)) ∧
    (s.agenda = .strike (.word loc) :: r → scratchBase ≤ loc → ∃ t, step s = .next t ∧ t = { s with agenda := r, mem := t.mem } ∧
      t.mem = { s.mem with badWords := t.mem.badWords } ∧
      ∀ k n, t.mem.isBad k n = true ↔ s.mem.isBad k n = true ∨ (k < loc / 4 * 4 + 4 ∧ loc / 4 * 4 < k + n)) ∧
    (∀ n, s.agenda = .strike (.corrected n) :: r → 1 ≤ n → n < 8 → ∃ t, step s = .next t ∧ t = { s with agenda := r, ras := t.ras } ∧
      (lookD t.ras n 0).toNat / 2 ^ 32 = (lookD s.ras n 0).toNat / 2 ^ 32 ∧
      (lookD t.ras n 0).toNat % 2 ^ 32 = min ((lookD s.ras n 0).toNat % 2 ^ 32 + 1) (2 ^ 32 - 1) ∧ ∀ m, m ≠ n → lookD t.ras m 0 = lookD s.ras m 0)) ∧
  (∀ (d a b : Fin 32) (f : Fin 16) (w : Fin 8) (u : State) (gid i : Nat) (mask : List Nat) (h : Group) (r : Fin 32),
    Plain u gid mask h → Whole h false w f → Resident h mask [d, a, b] → h.trapMode = false → i ∈ mask →
    let g : Group := { h with arch := { h.arch with struck := [{ lane := i, file := .v, key := (h.lane i).key r }] } }
    let s : State := { u with groups := put u.groups gid g }
    (r = a → ∃ t g', exec (.add d a b f w) s = .next t ∧ look t.groups gid = some g' ∧ t.mem = u.mem ∧
      TrapTaken g g' mask 0x3F (BitVec.ofNat 64 (2 ^ 61 + a.val + i % 64 * 2 ^ 7)) (pcOf h mask) [i] ∧
      (lookD t.ras 3 0).toNat / 2 ^ 32 = min ((lookD u.ras 3 0).toNat / 2 ^ 32 + 1) (2 ^ 32 - 1)) ∧
    (r = d → d ≠ a → d ≠ b → ∃ t g', exec (.add d a b f w) s = .next t ∧ look t.groups gid = some g' ∧ t.mem = u.mem ∧
      (g'.lane i).reg d = (h.lane i).reg a + (h.lane i).reg b ∧ g'.arch.struck = [])) ∧
  (∀ (s : State) (r : List Turn) (gid : Nat) (g : Group) (tm : Team) (l : Launch),
    s.agenda = .strike (.checkpoint gid) :: r → look s.groups gid = some g → g.epoch.isSome = true → look s.teams g.team = some tm →
    look s.launches tm.launch = some l → l.status = 0x10 →
    ∃ t l', step s = .next t ∧ look t.launches tm.launch = some l' ∧ l'.status = 0x30 ∧ (∀ e ∈ t.groups, e.2.team ≠ g.team) ∧ t.mem = s.mem ∧
      t.waybills = s.waybills ∧ (lookD t.ras 5 0).toNat / 2 ^ 32 = min ((lookD s.ras 5 0).toNat / 2 ^ 32 + 1) (2 ^ 32 - 1))

/-- WARM_RESET and COLD_RESET (R5, R97, R296, R451, R457, R458, R467): what each keeps. After either nothing runs and the registers have their Reset values; CLOCK runs
through a warm reset and is 0 after a cold one; an accepted image runs after a warm reset, which keeps tokens only if the image is unchanged. That memory
and installed keys stand over a warm reset is the model's choice (log entry 99). -/
def Obligations.reset_results : Prop :=
  (∀ s : State, ∃ t, exec .warmReset s = .next t ∧ t.clock = s.clock ∧ t.mem = s.mem ∧ t.sec.keys = s.sec.keys ∧ t.ras = s.ras ∧ t.retired = s.retired ∧
    Recorded s t { time := s.clock, addr := 0, detail := 0, code := 0x0030, part := none } ∧
    t.groups = [] ∧ t.teams = [] ∧ t.launches = [] ∧ t.ops = [] ∧ t.cur = .none ∧ t.regs = {} ∧ t.hotRegs = {} ∧ t.parts = [] ∧
    t.sec.fuse = s.sec.fuse ∧ t.sec.pending = none ∧
    (s.sec.pending = none → t.sec.svn = s.sec.svn ∧ t.sec.image = s.sec.image ∧ t.sec.tokens = s.sec.tokens) ∧
    (∀ h v, s.sec.pending = some (h, v) → t.sec.svn = v ∧ t.sec.image = some h ∧ (s.sec.image = some h → t.sec.tokens = s.sec.tokens) ∧
      (s.sec.image ≠ some h → t.sec.tokens = []))) ∧
  (∀ s : State, ∃ t, exec .coldReset s = .next t ∧ t.clock = 0 ∧ t.waybills = [] ∧ t.sec.keys = [] ∧ t.sec.tokens = [] ∧ t.retired = s.retired ∧
    t.sec.fuse = s.sec.fuse ∧ t.groups = [] ∧ t.teams = [] ∧ t.launches = [] ∧ t.ops = [] ∧ t.cur = .none ∧ t.regs = {} ∧ t.hotRegs = {} ∧ t.parts = [] ∧
    (∀ k, k < dramSize → t.mem.get k = 0 ∧ t.mem.tag k = false))

namespace Sys2Proof.Claims

/-- Chain micro-ops: the 32-bit words that the chain sequencers read, not the lanes (R230). -/
def isMicroOp (i : Instr) : Bool :=
  match i with
  | .chainFadd _ _ _ | .chainFsub _ _ _ | .chainFmul _ _ _ | .chainFfma _ _ _ _ | .chainFmin _ _ _ | .chainFmax _ _ _ | .chainFrcp _ _ | .chainFrsq _ _
  | .chainFsqrt _ _ | .chainFex2 _ _ | .chainFlg2 _ _ | .chainMov _ _ | .chainSel _ _ _ _ | .sumr _ _ | .maxr _ _ | .outq _ _ _ _ => true
  | _ => false

/-- What the decoder that reads words of an instruction's kind makes of its own words. -/
def readBack (i : Instr) : Option Instr :=
  let w := (encode i).2
  match (encode i).1 with
  | 16 => decodeLane w
  | 32 => if isMicroOp i then decodeChain w else decodeLane w
  | 64 => decodeMatrix w
  | 256 => decodeStep w
  | _ => some i

/-- A lane's word with the fields that hardware ignores set to zero (R210): the argument of NOP, the RD field of PREF, bit 31 of the U class. -/
def withoutIgnored (w : Nat) : Nat :=
  if w % 256 = 6 then 6
  else if w % 2 = 0 then w
  else if w / 16 % 8 = 1 then w % 2 ^ 31
  else if w / 16 % 8 = 3 ∧ w / 2 ^ 11 % 16 = 8 then w - w / 2 ^ 18 % 32 * 2 ^ 18
  else w

/-- The instruction comes next: the step is its meaning, on nobody's behalf afterwards. -/
def Runs (s : State) (i : Instr) (u : State) : Prop :=
  (∀ t, exec i u = .next t → step s = .next { t with cur := .none }) ∧ (∀ f, exec i u = .fault f → step s = .fault f) ∧
    (∀ f, exec i u = .refused f → step s = .refused f)

/-- The halfword at a location is what memory holds there. -/
def halfAt (s : State) (serial loc : Nat) : Nat := (s.mem.getUnder serial loc).toNat + 256 * (s.mem.getUnder serial (loc + 1)).toNat

end Sys2Proof.Claims

/-- R211 to R230, R347: every well-formed instruction is read back from its own words, operand for operand, and its words fit the width the tables give. -/
def Obligations.decode_reads_back_encode : Prop :=
  ∀ i : Instr, i.wf = true → readBack i = some i ∧ (encode i).2 < 2 ^ (encode i).1 ∨ (encode i).1 = 0 ∧ (encode i).2 = 0

/-- R208 to R210: a word that a decoder accepts is, but for the bits that R210 says are ignored, the one word of the instruction it stands for, and that
instruction is well formed: no two words of a kind stand for one instruction unless they differ in ignored bits alone. -/
def Obligations.words_have_one_meaning : Prop :=
  (∀ (w : Nat) (i : Instr), w < 2 ^ 32 → w % 2 = 1 → decodeLane w = some i → encode i = (32, withoutIgnored w) ∧ i.wf = true) ∧
  (∀ (w : Nat) (i : Instr), w < 2 ^ 16 → w % 2 = 0 → decodeLane w = some i → encode i = (16, withoutIgnored w) ∧ i.wf = true) ∧
  (∀ (w : Nat) (i : Instr), w < 2 ^ 32 → decodeChain w = some i → encode i = (32, w) ∧ i.wf = true) ∧
  (∀ (w : Nat) (i : Instr), w < 2 ^ 64 → decodeMatrix w = some i → encode i = (64, w) ∧ i.wf = true) ∧
  (∀ (w : Nat) (i : Instr), w < 2 ^ 256 → decodeStep w = some i → encode i = (256, w) ∧ i.wf = true)

/-- Words that the manual writes out, one and more of each class (R208 to R230, R347). -/
def Obligations.words_of_the_manual : Prop :=
  decodeLane 0x1940 = some (.addA16 5 3) ∧
  decodeLane 0x0022 = some (.waitf 2) ∧
  decodeLane 0x0046 = some .exit ∧
  decodeLane 0x0000 = none ∧
  decodeLane 0x00005FE1 = some .tret ∧
  decodeLane 0x00080241 = some (.call16 0x40 0) ∧
  decodeLane 0x01B067E1 = some (.spill 16 13 15 0) ∧
  decodeChain 0x68400000 = some (.maxr 0 8) ∧
  decodeMatrix 0x1000000000000100 = some (.mload 0 0 0x100)

/-- R46, R153 to R158, R208, R322, R337, R346, R371: an issue decision forms a convoy, and where its instruction's bytes are fetched and decode, the step is
that instruction's meaning; bytes that decode to nothing trap ILLEGAL_INSTRUCTION; the halfwords fetched are memory's
where no cache holds others. The sequencers read the next word,
micro-op or step, and the CP the packet at RPTR, in the same way. -/
def Obligations.step_runs_what_it_fetches : Prop :=
  (∀ (s : State) (gid j : Nat) (r : List Turn) (g : Group) (mask : List Nat) (w : Nat) (s1 : State),
    let s0 := ({ s with agenda := r } : State).takeAnswers gid
    let g0 := s0.wakeLanes gid g
    let g1 := g0.takeUp mask
    let u := s0.setGroup gid g1
    let pc := pcOf g1 mask
    s.agenda = .issue gid j :: r → look s0.groups gid = some g → s0.teamRuns g.team = true → g.idle ≤ s0.ownClock (s0.teamOf g).core →
    g0.convoyOf j = mask → mask ≠ [] → u.fetchAt g1 pc.toNat = .ok (s1, w) → u.breakAt g1 pc = none →
    (∀ i, decodeLane w = some i → Runs s i { s1 with fetched := BitVec.ofNat 64 w, cur := .convoy gid mask }) ∧
    (decodeLane w = none → look s1.groups gid = some g1 → g1.epoch = none → g1.drained = none →
      step s = .next (s1.trap gid { cause := .illegalInstruction, addr := BitVec.ofNat 64 w, lanes := mask, pc := pc, convoy := mask }))) ∧
  (∀ (s : State) (g : Group) (a : Nat) (lo hi : Grant),
    let t := s.teamOf g
    let c := if g.trapMode = true then g.cap 0 else g.cap 15
    let rq : Requester := { ctx := t.ctx, cluster := t.cluster, core := t.core, guide := g.isGuide, team := g.team }
    let loc := fun (x : Grant) => outLoc x.f.x.kind x.f.x.out
    let plain := fun (u : State) (x : Grant) => x.f.x.kind ≠ .peer ∧ u.isBad (loc x) 2 = false ∧ u.codeStale (loc x) = false ∧
      look (u.core t.core).icache (loc x) = none
    let half := fun (u : State) (x : Grant) => halfAt u (u.serialOf x.f.x.key) (loc x)
    c.base ≤ a → s.checkAccess rq c (a - c.base) 2 permX .fetch 2 1024 = .ok lo → plain s lo →
    (half s lo % 2 = 0 → ∃ s1, s.fetchAt g a = .ok (s1, half s lo)) ∧
    (half s lo % 2 = 1 → ∀ s1, s.fetchHalf g a 0 = .ok (s1, half s lo) → s1.teamOf g = t →
      s1.checkAccess rq c (a + 2 - c.base) 2 permX .fetch 2 1025 = .ok hi → plain s1 hi →
      ∃ s2, s.fetchAt g a = .ok (s2, half s lo + half s1 hi * 2 ^ 16))) ∧
  (∀ (s : State) (core : Nat) (r : List Turn) (q : MatrixRun) (loc : Nat) (i : Instr),
    let u := ({ s with agenda := r } : State).startMatrix core
    s.agenda = .matrix core :: r → (s.core core).matrixHalted = false → (u.core core).matrix = some q → q.pending = none → q.refill = false →
    u.teamRuns q.entry.team = true →
    u.scratchRead ((lookD u.teams q.entry.team {}).requester q.entry.team) ((q.entry.addr + 8 * q.index) % 2 ^ 32) 8 = .ok loc →
    decodeMatrix (ofBytes (u.mem.getsUnder 0 loc 8)) = some i → Runs s i { u with cur := .matrix core }) ∧
  (∀ (s : State) (core id : Nat) (r : List Turn) (o : EngineOp) (i : Instr),
    let u := ({ s with agenda := r } : State).chainSequencer core
    s.agenda = .chain core :: r → (s.core core).chainHalted = false → u.chainHead core = some (id, o) → o.run.begun = true →
    decodeChain o.run.word.toNat = some i → Runs s i { u with cur := .chain core id }) ∧
  (∀ (s : State) (p : Nat) (r : List Turn) (c : CollProg) (o : EngineOp) (i : Instr),
    let u : State := { s with agenda := r }
    let got := u.readInto (u.opRequester o) o {} (some c.cap) (c.offset + 32 * c.next) 32
    let v := u.installAll (got.1.founds.map (fun f => f.2.2))
    s.agenda = .coll p :: r → look s.colls p = some c → look s.ops c.fetchOp = some o → c.canStart = true → o.state = .live → o.out = none →
    u.opRuns o = true → peerRead got.1.needs = none → got.1.hitch = none → decodeStep (ofBytes got.2) = some i →
    Runs s i { v with ops := put v.ops c.fetchOp { o with got := [], broken := none }, cur := .coll p }) ∧
  (∀ (s : State) (i : Instr) (r : List Turn), s.agenda = .event i :: r → isCommand i = false → Runs s i { s with agenda := r }) ∧
  (∀ (s u : State) (p q : Nat) (r : List Turn) (f : State → Out),
    s.agenda = .cp p q :: r → (s.part p).migHeld = false → ({ s with agenda := r } : State).fetchPacket p q = .packet u f → step s = f u) ∧
  (∀ (p q : Nat) (b : List Byte),
    let n := fun (off k : Nat) => ofBytes ((b.drop off).take k)
    let h : CmdHead := { part := p, queue := q, cw := n 56 8 }
    let is := fun (i : Instr) => decodePacket p q b = .ok (exec i)
    (n 0 1 = 0x00 → is (.nopCommand h)) ∧
    (n 0 1 = 0x01 → is (.launch h (n 8 8) (n 1 1 % 2 == 1))) ∧
    (n 0 1 = 0x02 → is (.launchi h (n 8 8) (n 1 1 % 2 == 1) (n 16 8))) ∧
    (∀ c : Fin 4, n 0 1 = 0x03 → n 1 1 = c.val → is (.waitmem h (n 8 8) (BitVec.ofNat 32 (n 16 4)) c)) ∧
    (n 0 1 = 0x04 → is (.write h (n 8 8) (BitVec.ofNat 32 (n 16 4)))) ∧
    (∀ c : Fin 4, n 0 1 = 0x05 → n 1 1 = c.val → is (.branch h c (BitVec.ofNat 32 (n 16 4)) (n 20 4))) ∧
    (n 0 1 = 0x06 → is (.loop h (n 16 4) (n 20 4))) ∧
    (n 0 1 = 0x07 → n 10 1 ≤ 15 → is (.qprio h (n 8 2) (n 10 1))) ∧
    (n 0 1 = 0x08 → is (.process h (n 8 8) (n 16 4))) ∧
    (n 0 1 = 0x09 → n 8 2 ≤ 1024 → is (.kill h (n 8 2) (n 16 8))) ∧
    (n 0 1 = 0x10 → n 1 1 = 0 → n 8 2 ≤ 1024 → is (.invS1Va h (n 8 2) (n 10 2) (n 16 8) (n 24 8) (n 2 1 % 2 == 1))) ∧
    (n 0 1 = 0x10 → n 1 1 = 1 → n 8 2 ≤ 1024 → is (.invS1Asid h (n 8 2) (n 10 2))) ∧
    (n 0 1 = 0x10 → n 1 1 = 2 → n 8 2 ≤ 1024 → is (.invS2Gpa h (n 8 2) (n 16 8) (n 24 8))) ∧
    (n 0 1 = 0x10 → n 1 1 = 3 → n 8 2 ≤ 1024 → is (.invFn h (n 8 2))) ∧
    (n 0 1 = 0x10 → n 1 1 = 4 → is (.invPart h)) ∧
    (n 0 1 = 0x11 → n 8 2 ≤ 1024 → n 2 1 ≤ 1 → is (.biasflip h (n 8 2) (n 16 8) (n 2 1 == 1) (BitVec.ofNat 16 (n 10 2)))) ∧
    (n 0 1 = 0x12 → n 8 2 ≤ 1024 → is (.migrate64k h (n 8 2) (n 16 8) (n 24 8) (n 2 1) (n 12 2))) ∧
    (n 0 1 = 0x11 → 1 < n 2 1 → decodePacket p q b = .error 4) ∧
    (n 0 1 = 0x13 → is (.cancel h (n 8 8))))

/-- R13 to R26: with both stages off an address is its own DPA, read, written and executed under key 0; a stage-2 walk goes through the tables to a leaf of
4 KiB, 2 MiB or 1 GiB; an entry that is not valid ends it; what a leaf may not hold is refused with its reason,
of several in the order of log entry 70, the model's choice. -/
def Obligations.translation_results : Prop :=
  (∀ (s : State) (c : Ctx) (a : Access) (gva : Nat), c.s1en = false → c.s2en = false →
    (gva < dramSize → ∃ f, freshWalk s c a gva = .ok f ∧ f.x.kind = .dram ∧ f.x.out = gva ∧ f.x.key = 0 ∧ f.x.ms = false ∧ f.ad = none) ∧
    (dramSize ≤ gva → gva < 2 ^ 52 → freshWalk s c a gva = .error { stage2 := true, reason := 4, gpa := some gva }) ∧
    (2 ^ 52 ≤ gva → freshWalk s c a gva = .error { stage2 := false, reason := 4 })) ∧
  (∀ (s : State) (c : Ctx) (gpa j : Nat) (table : Nat → Nat) (e : DWord),
    let entry := fun (k : Nat) => s.readDWord 0 (table k + 8 * (gpa / 2 ^ (12 + 9 * k) % 512))
    let out := e.toNat / 2 ^ 12 % 2 ^ 40 * 2 ^ 12
    c.s2en = true → j ≤ 4 → table 4 = c.s2root → (∀ k, j ≤ k → k ≤ 4 → table k < dramSize) →
    (∀ k, j < k → k ≤ 4 → (entry k).toNat % 16 = 1 ∧ (entry k).toNat / 2 ^ 12 % 2 ^ 40 * 2 ^ 12 = table (k - 1)) → entry j = e →
    (e.getLsbD 0 = false → stage2 s c gpa = .error 0) ∧
    (e.getLsbD 0 = true → (e.getLsbD 1 = true ∨ e.getLsbD 2 = true ∨ e.getLsbD 3 = true) →
      (2 < j ∨ (e.getLsbD 2 = true ∧ e.getLsbD 1 = false) → stage2 s c gpa = .error 2) ∧
      (out % 2 ^ (12 + 9 * j) ≠ 0 → e.toNat / 2 ^ 5 % 4 ≠ 3 → stage2 s c gpa = .error 2) ∧
      (j = 1 ∨ j = 2 → e.toNat / 2 ^ 5 % 4 = 3 → (e.getLsbD 2 = true → e.getLsbD 1 = true) → stage2 s c gpa = .error 5) ∧
      (j ≤ 2 → (e.getLsbD 2 = true → e.getLsbD 1 = true) → out % 2 ^ (12 + 9 * j) = 0 → e.toNat / 2 ^ 5 % 4 = 0 → (j = 0 ∨ e.getLsbD 11 = false) →
        (dramSize < out + 2 ^ (12 + 9 * j) → stage2 s c gpa = .error 4) ∧
        (out + 2 ^ (12 + 9 * j) ≤ dramSize → e.getLsbD 7 = false →
          ∃ l, stage2 s c gpa = .ok l ∧ l.word = e ∧ l.out = out ∧ l.size = 2 ^ (12 + 9 * j) ∧ l.covers = 2 ^ (12 + 9 * j) ∧
            (xlatOf l gpa false).out = out + gpa % 2 ^ (12 + 9 * j) ∧ (xlatOf l gpa false).key = e.toNat / 2 ^ 52)))) ∧
  (∀ (s : State) (c : Ctx) (a : Access) (gva : Nat) (f1 : First) (l : Leaf),
    stage1 s c a gva = .ok f1 → stage2 s c f1.gpa = .ok l →
    (permits a (entryR l.word) (entryW l.word) (entryX l.word) = false →
      freshWalk s c a gva = .error { stage2 := true, reason := 1, gpa := some f1.gpa }) ∧
    (permits a (entryR l.word) (entryW l.word) (entryX l.word) = true → f1.ms = false →
      ∃ f, freshWalk s c a gva = .ok f ∧ f.x = { xlatOf l f1.gpa false with global := f1.global } ∧ f.ad = f1.ad))

/-- R106: whatever comes next, memory stays in its canonical form. -/
def Obligations.memory_stays_canonical : Prop :=
  ∀ s t : State, s.memOk = true → step s = .next t → t.memOk = true

/-- R111, R391: no step leaves a group in trap mode with an open outrider epoch. -/
def Obligations.no_epoch_in_trap_mode : Prop :=
  ∀ s t : State, Orderly s → step s = .next t → Orderly t

/-- The machine after reset (R5, R79, R95, R100, R296, R426, R449, R451, R462, R467): CLOCK is 0, the registers read as their maps' Reset column, every key ID is EMPTY, the
waybill rings are empty, no partition holds a cluster, and the invariants hold. That unwritten memory reads 0 is the model's choice (log
entry 4). -/
def Obligations.reset_state : Prop :=
  let s := State.reset
  s.clock = 0 ∧ s.regs.hbmpwr = 0x0000010000400000 ∧ s.readPwrcap = 2000 ∧ s.hotRegs.hothi = 0x400 ∧ s.hotRegs.hotlo = 0x100 ∧ s.hotRegs.epoch = 0x2580 ∧
    s.hotRegs.en = false ∧ s.hotRegs.readHpthead = 0 ∧ s.readChretire = 0 ∧ s.readChretmap = 0 ∧ s.readWbsel = 0 ∧ s.readSecstat = 0 ∧ s.readRostdata = 0 ∧
    (∀ p, (s.part p).clusters = 0 ∧ (s.part p).readPartcfg = 0 ∧ (s.part p).readMigstat = 0 ∧ (s.part p).readMigin = 0 ∧ (s.part p).readVloghead = 0) ∧
    (∀ id, look s.sec.keys id = none) ∧ (∀ n, lookD s.waybills n {} = {}) ∧ (∀ k, s.mem.get k = 0 ∧ s.mem.tag k = false) ∧ s.memOk = true ∧ Orderly s

/-- R17: a valid entry with R = W = X = 0 is a table pointer, whose bits [51:12] alone say where the walk goes on; any other valid entry is a leaf. A leaf at
level 3 or 4, a table pointer at level 0, and a leaf with W = 1 and R = 0 are each MALFORMED. In both stages. -/
def Obligations.entry_kinds : Prop :=
  (∀ (s : State) (level table gpa : Nat),
    let e := s.readDWord 0 (table + 8 * (gpa / 2 ^ (12 + 9 * level) % 512))
    let pointer := e.getLsbD 1 = false ∧ e.getLsbD 2 = false ∧ e.getLsbD 3 = false
    table < dramSize → e.getLsbD 0 = true →
    (pointer → (level = 0 → walk2 s level table gpa = .error 2) ∧
      (∀ l, level = l + 1 → walk2 s level table gpa = walk2 s l (e.toNat / 2 ^ 12 % 2 ^ 40 * 2 ^ 12) gpa)) ∧
    (¬pointer → (level = 3 ∨ level = 4 ∨ (e.getLsbD 2 = true ∧ e.getLsbD 1 = false) → walk2 s level table gpa = .error 2) ∧
      ∀ l, walk2 s level table gpa = .ok l → l.word = e)) ∧
  (∀ (s : State) (c : Ctx) (level table gva loc serial : Nat),
    let e := s.readDWord serial loc
    let pointer := e.getLsbD 1 = false ∧ e.getLsbD 2 = false ∧ e.getLsbD 3 = false
    tableLoc s c (table + 8 * (gva / 2 ^ (12 + 9 * level) % 512)) = .ok (loc, serial) → e.getLsbD 0 = true →
    (pointer → (level = 0 → walk1 s c level table gva = .error { stage2 := false, reason := 2 }) ∧
      (∀ l, level = l + 1 → walk1 s c level table gva = walk1 s c l (e.toNat / 2 ^ 12 % 2 ^ 40 * 2 ^ 12) gva)) ∧
    (¬pointer →
      (level = 3 ∨ level = 4 ∨ (e.getLsbD 2 = true ∧ e.getLsbD 1 = false) → walk1 s c level table gva = .error { stage2 := false, reason := 2 }) ∧
      ∀ l n, walk1 s c level table gva = .ok (l, n) → l.word = e))

/-- R189: under scale 0xFF every element of a block is NaN, whatever its format and code; an MXINT8 element of code 0x80 is read as -128 × 2^-6 = -2 times
the scale; and no MXINT8 block that the quantiser of R190 makes holds that code, whatever the values, the rounding and the element's place. -/
def Obligations.mx_special_codes : Prop :=
  (∀ n code : Nat, isMx n = true → elemValue n 0xFF code = .nan) ∧
  (∀ x : Nat, x < 0xFF → elemValue 13 x 0x80 = .num true 128 ((x : Int) - 127 - 6)) ∧
  (∀ (mode : Nat → Mode) (ws : List Word), 0x80 ∉ (quantBlock .int8 mode ws).2.1) ∧
  (∀ (mode : Nat → Mode) (xs : List FVal), 0x80 ∉ (quantMx xs .int8 mode).2)

/-- R183, R240 to R246: integer arithmetic and logic. -/
def Obligations.integer_results : Prop :=
  Claims.integer_arithmetic_results ∧ Claims.integer_logic_results

/-- Bit counts, bit fields and moves, and what the bit-field functions are. -/
def Obligations.bit_results : Prop :=
  Claims.bit_and_move_results ∧ Claims.bit_field_functions

/-- 64-bit pairs; comparisons, selections and the uniform forms. -/
def Obligations.wide_and_compare_results : Prop :=
  Claims.wide_integer_results ∧ Claims.compare_select_uniform_results

/-- What rounding leaves alone, what NaN operands give, and the trap of an enabled condition. -/
def Obligations.fp_value_rules : Prop :=
  Claims.representable_values_stand ∧ Claims.nan_operands ∧ Claims.enabled_condition_traps

/-- Shuffles, votes, matches and reductions across lanes. -/
def Obligations.cross_lane_results : Prop :=
  Claims.shuffle_results ∧ Claims.vote_match_redux_results ∧ Claims.redux_tree

/-- Branches, jumps, calls and returns. -/
def Obligations.branch_and_call_results : Prop :=
  Claims.branch_results ∧ Claims.jump_call_return_results

/-- The forms with no operand, and the CSRs. -/
def Obligations.simple_and_csr_results : Prop :=
  Claims.simple_forms ∧ Claims.csr_results

/-- WAITF, SLEEPT and WAITC: when a lane goes on and when it parks. -/
def Obligations.wait_results : Prop :=
  Claims.waitf_results ∧ Claims.sleept_results ∧ Claims.waitc_results

/-- The decision queue, RVZ and EXIT. -/
def Obligations.queue_and_end_results : Prop :=
  Claims.decision_queue_results ∧ Claims.rvz_results ∧ Claims.exit_results

/-- LDMX and STMX, and where each piece of a block stands. -/
def Obligations.mx_results : Prop :=
  Claims.mx_block_results ∧ Claims.mx_piece_layout

/-- ATOM: the old value, the new one, and each operation. -/
def Obligations.atom_results : Prop :=
  Claims.atomic_results ∧ Claims.atomic_operations

/-- Derivation of capabilities, which never widens one. -/
def Obligations.derivation_results : Prop :=
  Claims.capability_derivation_results ∧ Claims.derivation_never_widens

/-- CGET and CTEST, CLOAD and CSTORE, PREF. -/
def Obligations.capability_use_results : Prop :=
  Claims.capability_query_results ∧ Claims.capability_memory_results ∧ Claims.prefetch_results

/-- The order of the checks, and the trap of an access that fails one. -/
def Obligations.access_checks : Prop :=
  Claims.check_order ∧ Claims.out_of_bounds_traps

/-- COPY: what it gives its engine, and its rows and promise. -/
def Obligations.copy_command_results : Prop :=
  Claims.copy_results ∧ Claims.copy_rows_and_prediction

/-- COPYQ, ECANCEL, ESTAT and POST. -/
def Obligations.engine_query_results : Prop :=
  Claims.copyq_results ∧ Claims.ecancel_estat_results ∧ Claims.post_results

/-- FORK, CHAIN and COLL, and the commands whose block is wrong. -/
def Obligations.engine_command_results : Prop :=
  Claims.fork_results ∧ Claims.chain_command_results ∧ Claims.coll_results ∧ Claims.block_field_traps

/-- The matrix commands and their arithmetic. -/
def Obligations.matrix_results : Prop :=
  Claims.matrix_command_results ∧ Claims.matrix_arithmetic

/-- The commands of a queue, and the CP's own stores. -/
def Obligations.queue_and_store_results : Prop :=
  Claims.queue_command_results ∧ Claims.cp_store_reads_back

/-- LAUNCH and LAUNCHI, and what is wrong with a record. -/
def Obligations.launch_results : Prop :=
  Claims.launch_command_results ∧ Claims.launch_checks

/-- The CP's events and the admission of team sets. -/
def Obligations.cp_and_admission_results : Prop :=
  Claims.cp_event_results ∧ Claims.admission_results

/-- PROCESS and KILL, and the commands on pages. -/
def Obligations.process_and_page_results : Prop :=
  Claims.process_kill_results ∧ Claims.page_command_results

/-- ATOMM and REDX, and the steps of the drained accesses. -/
def Obligations.drained_results : Prop :=
  Claims.memory_side_issue ∧ Claims.memory_side_results

/-- The commit of an epoch, and the rollback of its readers. -/
def Obligations.epoch_results : Prop :=
  Claims.epoch_commit_results ∧ Claims.store_rolls_readers_back

/-- Requests at a home and the messages of the protocol. -/
def Obligations.coherence_results : Prop :=
  Claims.home_requests ∧ Claims.coherence_message_results

/-- The HBM channels, and their retirement. -/
def Obligations.memory_channel_results : Prop :=
  Claims.hbm_event_results ∧ Claims.retirement_results

/-- Inbound flits: accesses, refusals and messages. -/
def Obligations.inbound_results : Prop :=
  Claims.inbound_access_results ∧ Claims.inbound_refusals ∧ Claims.inbound_message_results

/-- Responses to outbound packets, and their routes. -/
def Obligations.outbound_results : Prop :=
  Claims.outbound_response_results ∧ Claims.route_results

/-- Live migration: source, destination, switch. -/
def Obligations.migration_results : Prop :=
  Claims.migration_source_results ∧ Claims.migration_destination_results ∧ Claims.migration_switch_results

/-- Partitions and the host driver's registers. -/
def Obligations.host_register_results : Prop :=
  Claims.partition_results ∧ Claims.register_write_results

/-- Power, thermal events, the scrubber, the error counters and errors of the arrays. -/
def Obligations.power_and_error_results : Prop :=
  Claims.power_results ∧ Claims.scrub_and_counter_results ∧ Claims.strike_results
end

