-- ==== Sys2Proof/Laws/Below.lean ====
section
/-! SUPPORT. What the accesses of a party outside the cores leave alone: the MSC side of an access (R72), and the taking of its lines
where no core holds anything (R67). -/

namespace Sys2Proof.Machine

/-- What an access leaves alone below the homes of its lines, the hot-page tracker being off: all but the MSC, its channels, and which
granules are uncorrectable. -/
structure Still (s t : State) : Prop where
  sec : t.sec = s.sec
  bytes : t.mem.bytes = s.mem.bytes
  groups : t.groups = s.groups
  homes : t.msgs = s.msgs ∧ t.dir = s.dir ∧ t.tlb = s.tlb
  parts : t.parts = s.parts
  host : t.snoopFilter = s.snoopFilter
  hot : t.hotRegs = s.hotRegs

theorem Still.refl (s : State) : Still s s := ⟨rfl, rfl, rfl, ⟨rfl, rfl, rfl⟩, rfl, rfl, rfl⟩

theorem Still.trans {s t u : State} (h : Still s t) (k : Still t u) : Still s u :=
  ⟨k.sec.trans h.sec, k.bytes.trans h.bytes, k.groups.trans h.groups,
    ⟨k.homes.1.trans h.homes.1, k.homes.2.1.trans h.homes.2.1, k.homes.2.2.trans h.homes.2.2⟩, k.parts.trans h.parts, k.host.trans h.host, k.hot.trans h.hot⟩

/-- Either branch leaves it alone. -/
theorem Still.ite {s a b : State} (c : Prop) [Decidable c] (ha : Still s a) (hb : Still s b) : Still s (if c then a else b) := by
  split
  · exact ha
  · exact hb

/-- A fold of steps that each leave it alone. -/
theorem still_fold {α : Type} (f : State → α → State) (h : ∀ s a, s.hotRegs.en = false → Still s (f s a)) (l : List α) (s : State) (hs : s.hotRegs.en = false) :
    Still s (l.foldl f s) := by
  induction l generalizing s with
  | nil => exact Still.refl s
  | cons a r ih => exact (h s a hs).trans (ih _ (by rw [(h s a hs).hot]; exact hs))

theorem still_mscEvict (s : State) (k : Nat) : Still s (s.mscEvict k) := by
  unfold State.mscEvict
  split
  · exact Still.refl s
  · split <;> exact ⟨rfl, rfl, rfl, ⟨rfl, rfl, rfl⟩, rfl, rfl, rfl⟩

theorem still_mscRoom (s : State) (k : Nat) : Still s (s.mscRoom k) := by
  unfold State.mscRoom
  refine Still.ite _ (Still.refl s) ?_
  split
  · exact still_mscEvict s _
  · exact Still.refl s

theorem still_mscTouch (s : State) (l : Nat) (m : BitVec 8) (w : Bool) : Still s (s.mscTouch l m w) := by
  unfold State.mscTouch
  refine Still.ite _ (Still.refl s) ((still_mscRoom s (l / 16)).trans (Still.ite _ ?_ ?_)) <;> exact ⟨rfl, rfl, rfl, ⟨rfl, rfl, rfl⟩, rfl, rfl, rfl⟩

theorem still_mscKey (s : State) (l k : Nat) : Still s (s.mscKey l k) := by
  unfold State.mscKey
  split <;> exact ⟨rfl, rfl, rfl, ⟨rfl, rfl, rfl⟩, rfl, rfl, rfl⟩

theorem still_mscDrop (s : State) (l : Nat) : Still s (s.mscDrop l) := by
  unfold State.mscDrop
  refine Still.ite _ ?_ (Still.refl s)
  split
  · exact Still.refl s
  · rename_i m _
    exact (Still.ite (b := (s.mendBlock (l / 16) (m.dirty &&& (0xFF#128 <<< (l % 16 * 8)))).chanRequest (l * 128) true (m.dirty &&& (0xFF#128 <<< (l % 16 * 8))))
      (m.dirty &&& (0xFF#128 <<< (l % 16 * 8)) = 0) (Still.refl s) ⟨rfl, rfl, rfl, ⟨rfl, rfl, rfl⟩, rfl, rfl, rfl⟩).trans ⟨rfl, rfl, rfl, ⟨rfl, rfl, rfl⟩, rfl, rfl, rfl⟩

theorem still_countHot (s : State) (a b c : Nat) (d : Bool) (h : s.hotRegs.en = false) : Still s (s.countHot a b c d) := by
  unfold State.countHot
  rw [h]
  exact Still.refl s

theorem still_line (u : State) (l k : Nat) (g m : BitVec 8) (c w : Bool) :
    Still u ((if w = true then ((if c = true then u.mscDrop l else u).mscRead l g).mscWrite l m else (if c = true then u.mscDrop l else u).mscRead l g).mscKey l k) := by
  have a : Still u (if c = true then u.mscDrop l else u) := Still.ite _ (still_mscDrop u l) (Still.refl u)
  have b := a.trans (still_mscTouch _ l g false)
  exact (Still.ite _ (b.trans (still_mscTouch _ l m true)) b).trans (still_mscKey _ _ _)

/-- An access through the MSC changes nothing but the MSC and its channels. -/
theorem still_below (s : State) (a n k : Nat) (w : Bool) (h : s.hotRegs.en = false) : Still s (s.below a n k false w) := by
  unfold State.below
  split
  · exact Still.refl s
  · refine still_fold _ (fun t l ht => ?_) _ s h
    exact (still_fold (fun (u : State) (_ : Nat) => u.countHot (128 * l) (hotDie (128 * l) none) (t.hotInfo l).1 (t.hotInfo l).2)
      (fun u _ hu => still_countHot u _ _ _ _ hu) (List.range ((none : Option Nat).getD (coalesce (touched l a n)).length)) t ht).trans (still_line _ l k _ _ _ w)

/-- No core holds anything, no line is on its way, no flip goes on, and the host holds nothing. -/
structure Blank (s : State) : Prop where
  homes : s.msgs = [] ∧ s.dir = [] ∧ s.tlb = []
  host : s.snoopFilter = []
  flips : ∀ l, s.flipping l = false
  hot : s.hotRegs.en = false

theorem Blank.of_still {s t : State} (b : Blank s) (h : Still s t) : Blank t :=
  ⟨⟨h.homes.1.trans b.homes.1, h.homes.2.1.trans b.homes.2.1, h.homes.2.2.trans b.homes.2.2⟩, h.host.trans b.host,
    fun l => by have := b.flips l; unfold State.flipping at this ⊢; rw [h.parts]; exact this, by rw [h.hot]; exact b.hot⟩

theorem deliver_nothing (s : State) (l n : Nat) (h : s.msgs = []) : s.deliverLine l n = s := by
  cases n with
  | zero => rfl
  | succ n =>
    unfold State.deliverLine State.findMsg
    rw [h]
    cases s
    simp_all

/-- With nothing held and nothing on its way, a party outside the cores is given a line at once. -/
theorem still_takeLine (s : State) (l : Nat) (own : Bool) (b : Blank s) (hl : isHostLine l = false) : Still s (s.takeLine l own) := by
  have he : s.entry l = {} := by simp [State.entry, b.homes.2.1, lookD, look]
  unfold State.takeLine State.ask
  rw [he, deliver_nothing s _ _ b.homes.1]
  simp only [Option.any_none, List.any_nil, Bool.or_self, Bool.false_eq_true, if_false]
  have hr : Still s (s.request l { core := none, own := own }) := by
    have ready (t : State) (ht : t.parts = s.parts) (hu : t.snoopFilter = s.snoopFilter) (hv : t.tlb = s.tlb) :
        t.homeReady l { core := none, own := own } = true := by
      have hf : t.flipping l = false := by
        have := b.flips l
        unfold State.flipping at this ⊢
        rw [ht]
        exact this
      have ho : t.isHostOwned l = false := by simp [State.isHostOwned, hv, b.homes.2.2]
      simp [State.homeReady, State.hostReady, hf, hu, b.host, hl, ho]
    unfold State.request
    rw [he]
    have hn : ({ waiting := [{ core := none, own := own }] } : DirEntry) ≠ {} := by intro h; injection h; contradiction
    have hs : s.setEntry l { waiting := [{ core := none, own := own }] } = { s with dir := [(l, { waiting := [{ core := none, own := own }] })] } := by
      simp [State.setEntry, b.homes.2.1, put]
    simp only [List.nil_append, List.length_nil, Nat.zero_add]
    rw [hs]
    simp only [State.pump, State.entry, lookD, look, if_true, Option.getD_some]
    rw [ready { s with dir := [(l, { waiting := [{ core := none, own := own }] })] } rfl rfl rfl]
    have he2 : (({ s with dir := [(l, { waiting := [{ core := none, own := own }] })] } : State).setEntry l {}) = s := by
      have hd := b.homes.2.1
      clear ready hs
      cases s
      simp_all [State.setEntry, del]
    rw [if_pos rfl]
    show Still s ((({ s with dir := [(l, { waiting := [{ core := none, own := own }] })] } : State).setEntry l {}).serve l { core := none, own := own })
    rw [he2]
    simp only [State.serve, he]
    exact ⟨rfl, rfl, rfl, ⟨rfl, rfl, rfl⟩, rfl, rfl, rfl⟩
  rw [deliver_nothing _ _ _ (hr.homes.1.trans b.homes.1)]
  exact hr

theorem still_takeRange (s : State) (a n : Nat) (own : Bool) (b : Blank s) (h : ∀ l ∈ linesFrom a n, isHostLine l = false) : Still s (s.takeRange a n own) := by
  unfold State.takeRange
  split
  · exact Still.refl s
  · generalize linesFrom a n = ls at h
    induction ls generalizing s with
    | nil => exact Still.refl s
    | cons l r ih =>
      have k := still_takeLine s l own b (h l (by simp))
      exact k.trans (ih _ (b.of_still k) (fun x hx => h x (by simp [hx])))

end Sys2Proof.Machine
end

