-- ==== Sys2Proof/Laws/State.lean ====
section
/-! SUPPORT. What each named update of the state does to each field: one lemma per field and update. -/

namespace Sys2Proof.Machine

@[simp] theorem State.bump_mem (s : State) : s.bump.mem = s.mem := rfl
@[simp] theorem State.bump_clock (s : State) : s.bump.clock = s.clock := rfl
@[simp] theorem State.bump_agenda (s : State) : s.bump.agenda = s.agenda := rfl
@[simp] theorem State.bump_cur (s : State) : s.bump.cur = s.cur := rfl
@[simp] theorem State.bump_rota (s : State) : s.bump.rota = s.rota := rfl
@[simp] theorem State.bump_free (s : State) : s.bump.free = s.free + 1 := rfl
@[simp] theorem State.bump_fetched (s : State) : s.bump.fetched = s.fetched := rfl
@[simp] theorem State.bump_cpWrites (s : State) : s.bump.cpWrites = s.cpWrites := rfl
@[simp] theorem State.bump_groups (s : State) : s.bump.groups = s.groups := rfl
@[simp] theorem State.bump_teams (s : State) : s.bump.teams = s.teams := rfl
@[simp] theorem State.bump_launches (s : State) : s.bump.launches = s.launches := rfl
@[simp] theorem State.bump_cores (s : State) : s.bump.cores = s.cores := rfl
@[simp] theorem State.bump_shadows (s : State) : s.bump.shadows = s.shadows := rfl
@[simp] theorem State.bump_stowed (s : State) : s.bump.stowed = s.stowed := rfl
@[simp] theorem State.bump_ops (s : State) : s.bump.ops = s.ops := rfl
@[simp] theorem State.bump_colls (s : State) : s.bump.colls = s.colls := rfl
@[simp] theorem State.bump_nextId (s : State) : s.bump.nextId = s.nextId := rfl
@[simp] theorem State.bump_tlb (s : State) : s.bump.tlb = s.tlb := rfl
@[simp] theorem State.bump_walkCache (s : State) : s.bump.walkCache = s.walkCache := rfl
@[simp] theorem State.bump_walks (s : State) : s.bump.walks = s.walks := rfl
@[simp] theorem State.bump_dir (s : State) : s.bump.dir = s.dir := rfl
@[simp] theorem State.bump_dirOrder (s : State) : s.bump.dirOrder = s.dirOrder := rfl
@[simp] theorem State.bump_l1 (s : State) : s.bump.l1 = s.l1 := rfl
@[simp] theorem State.bump_msgs (s : State) : s.bump.msgs = s.msgs := rfl
@[simp] theorem State.bump_msc (s : State) : s.bump.msc = s.msc := rfl
@[simp] theorem State.bump_foot (s : State) : s.bump.foot = s.foot := rfl
@[simp] theorem State.bump_monitors (s : State) : s.bump.monitors = s.monitors := rfl
@[simp] theorem State.bump_prioTokens (s : State) : s.bump.prioTokens = s.prioTokens := rfl
@[simp] theorem State.bump_channels (s : State) : s.bump.channels = s.channels := rfl
@[simp] theorem State.bump_retired (s : State) : s.bump.retired = s.retired := rfl
@[simp] theorem State.bump_retire (s : State) : s.bump.retire = s.retire := rfl
@[simp] theorem State.bump_drains (s : State) : s.bump.drains = s.drains := rfl
@[simp] theorem State.bump_reduces (s : State) : s.bump.reduces = s.reduces := rfl
@[simp] theorem State.bump_snoopFilter (s : State) : s.bump.snoopFilter = s.snoopFilter := rfl
@[simp] theorem State.bump_bisnp (s : State) : s.bump.bisnp = s.bisnp := rfl
@[simp] theorem State.bump_halves (s : State) : s.bump.halves = s.halves := rfl
@[simp] theorem State.bump_hot (s : State) : s.bump.hot = s.hot := rfl
@[simp] theorem State.bump_hotRegs (s : State) : s.bump.hotRegs = s.hotRegs := rfl
@[simp] theorem State.bump_dirtyMap (s : State) : s.bump.dirtyMap = s.dirtyMap := rfl
@[simp] theorem State.bump_parts (s : State) : s.bump.parts = s.parts := rfl
@[simp] theorem State.bump_vdn (s : State) : s.bump.vdn = s.vdn := rfl
@[simp] theorem State.bump_roster (s : State) : s.bump.roster = s.roster := rfl
@[simp] theorem State.bump_portsDown (s : State) : s.bump.portsDown = s.portsDown := rfl
@[simp] theorem State.bump_outbound (s : State) : s.bump.outbound = s.outbound := rfl
@[simp] theorem State.bump_early (s : State) : s.bump.early = s.early := rfl
@[simp] theorem State.bump_streams (s : State) : s.bump.streams = s.streams := rfl
@[simp] theorem State.bump_heldLines (s : State) : s.bump.heldLines = s.heldLines := rfl
@[simp] theorem State.bump_sent (s : State) : s.bump.sent = s.sent := rfl
@[simp] theorem State.bump_sec (s : State) : s.bump.sec = s.sec := rfl
@[simp] theorem State.bump_regs (s : State) : s.bump.regs = s.regs := rfl
@[simp] theorem State.bump_ras (s : State) : s.bump.ras = s.ras := rfl
@[simp] theorem State.bump_waybills (s : State) : s.bump.waybills = s.waybills := rfl

@[simp] theorem State.onGroup_mem (s : State) (k : Nat) (f : Group → Group) : (s.onGroup k f).mem = s.mem := rfl
@[simp] theorem State.onGroup_clock (s : State) (k : Nat) (f : Group → Group) : (s.onGroup k f).clock = s.clock := rfl
@[simp] theorem State.onGroup_agenda (s : State) (k : Nat) (f : Group → Group) : (s.onGroup k f).agenda = s.agenda := rfl
@[simp] theorem State.onGroup_cur (s : State) (k : Nat) (f : Group → Group) : (s.onGroup k f).cur = s.cur := rfl
@[simp] theorem State.onGroup_rota (s : State) (k : Nat) (f : Group → Group) : (s.onGroup k f).rota = s.rota := rfl
@[simp] theorem State.onGroup_free (s : State) (k : Nat) (f : Group → Group) : (s.onGroup k f).free = s.free := rfl
@[simp] theorem State.onGroup_fetched (s : State) (k : Nat) (f : Group → Group) : (s.onGroup k f).fetched = s.fetched := rfl
@[simp] theorem State.onGroup_cpWrites (s : State) (k : Nat) (f : Group → Group) : (s.onGroup k f).cpWrites = s.cpWrites := rfl
@[simp] theorem State.onGroup_groups (s : State) (k : Nat) (f : Group → Group) : (s.onGroup k f).groups = alter s.groups k f := rfl
@[simp] theorem State.onGroup_teams (s : State) (k : Nat) (f : Group → Group) : (s.onGroup k f).teams = s.teams := rfl
@[simp] theorem State.onGroup_launches (s : State) (k : Nat) (f : Group → Group) : (s.onGroup k f).launches = s.launches := rfl
@[simp] theorem State.onGroup_cores (s : State) (k : Nat) (f : Group → Group) : (s.onGroup k f).cores = s.cores := rfl
@[simp] theorem State.onGroup_shadows (s : State) (k : Nat) (f : Group → Group) : (s.onGroup k f).shadows = s.shadows := rfl
@[simp] theorem State.onGroup_stowed (s : State) (k : Nat) (f : Group → Group) : (s.onGroup k f).stowed = s.stowed := rfl
@[simp] theorem State.onGroup_ops (s : State) (k : Nat) (f : Group → Group) : (s.onGroup k f).ops = s.ops := rfl
@[simp] theorem State.onGroup_colls (s : State) (k : Nat) (f : Group → Group) : (s.onGroup k f).colls = s.colls := rfl
@[simp] theorem State.onGroup_nextId (s : State) (k : Nat) (f : Group → Group) : (s.onGroup k f).nextId = s.nextId := rfl
@[simp] theorem State.onGroup_tlb (s : State) (k : Nat) (f : Group → Group) : (s.onGroup k f).tlb = s.tlb := rfl
@[simp] theorem State.onGroup_walkCache (s : State) (k : Nat) (f : Group → Group) : (s.onGroup k f).walkCache = s.walkCache := rfl
@[simp] theorem State.onGroup_walks (s : State) (k : Nat) (f : Group → Group) : (s.onGroup k f).walks = s.walks := rfl
@[simp] theorem State.onGroup_dir (s : State) (k : Nat) (f : Group → Group) : (s.onGroup k f).dir = s.dir := rfl
@[simp] theorem State.onGroup_dirOrder (s : State) (k : Nat) (f : Group → Group) : (s.onGroup k f).dirOrder = s.dirOrder := rfl
@[simp] theorem State.onGroup_l1 (s : State) (k : Nat) (f : Group → Group) : (s.onGroup k f).l1 = s.l1 := rfl
@[simp] theorem State.onGroup_msgs (s : State) (k : Nat) (f : Group → Group) : (s.onGroup k f).msgs = s.msgs := rfl
@[simp] theorem State.onGroup_msc (s : State) (k : Nat) (f : Group → Group) : (s.onGroup k f).msc = s.msc := rfl
@[simp] theorem State.onGroup_foot (s : State) (k : Nat) (f : Group → Group) : (s.onGroup k f).foot = s.foot := rfl
@[simp] theorem State.onGroup_monitors (s : State) (k : Nat) (f : Group → Group) : (s.onGroup k f).monitors = s.monitors := rfl
@[simp] theorem State.onGroup_prioTokens (s : State) (k : Nat) (f : Group → Group) : (s.onGroup k f).prioTokens = s.prioTokens := rfl
@[simp] theorem State.onGroup_channels (s : State) (k : Nat) (f : Group → Group) : (s.onGroup k f).channels = s.channels := rfl
@[simp] theorem State.onGroup_retired (s : State) (k : Nat) (f : Group → Group) : (s.onGroup k f).retired = s.retired := rfl
@[simp] theorem State.onGroup_retire (s : State) (k : Nat) (f : Group → Group) : (s.onGroup k f).retire = s.retire := rfl
@[simp] theorem State.onGroup_drains (s : State) (k : Nat) (f : Group → Group) : (s.onGroup k f).drains = s.drains := rfl
@[simp] theorem State.onGroup_reduces (s : State) (k : Nat) (f : Group → Group) : (s.onGroup k f).reduces = s.reduces := rfl
@[simp] theorem State.onGroup_snoopFilter (s : State) (k : Nat) (f : Group → Group) : (s.onGroup k f).snoopFilter = s.snoopFilter := rfl
@[simp] theorem State.onGroup_bisnp (s : State) (k : Nat) (f : Group → Group) : (s.onGroup k f).bisnp = s.bisnp := rfl
@[simp] theorem State.onGroup_halves (s : State) (k : Nat) (f : Group → Group) : (s.onGroup k f).halves = s.halves := rfl
@[simp] theorem State.onGroup_hot (s : State) (k : Nat) (f : Group → Group) : (s.onGroup k f).hot = s.hot := rfl
@[simp] theorem State.onGroup_hotRegs (s : State) (k : Nat) (f : Group → Group) : (s.onGroup k f).hotRegs = s.hotRegs := rfl
@[simp] theorem State.onGroup_dirtyMap (s : State) (k : Nat) (f : Group → Group) : (s.onGroup k f).dirtyMap = s.dirtyMap := rfl
@[simp] theorem State.onGroup_parts (s : State) (k : Nat) (f : Group → Group) : (s.onGroup k f).parts = s.parts := rfl
@[simp] theorem State.onGroup_vdn (s : State) (k : Nat) (f : Group → Group) : (s.onGroup k f).vdn = s.vdn := rfl
@[simp] theorem State.onGroup_roster (s : State) (k : Nat) (f : Group → Group) : (s.onGroup k f).roster = s.roster := rfl
@[simp] theorem State.onGroup_portsDown (s : State) (k : Nat) (f : Group → Group) : (s.onGroup k f).portsDown = s.portsDown := rfl
@[simp] theorem State.onGroup_outbound (s : State) (k : Nat) (f : Group → Group) : (s.onGroup k f).outbound = s.outbound := rfl
@[simp] theorem State.onGroup_early (s : State) (k : Nat) (f : Group → Group) : (s.onGroup k f).early = s.early := rfl
@[simp] theorem State.onGroup_streams (s : State) (k : Nat) (f : Group → Group) : (s.onGroup k f).streams = s.streams := rfl
@[simp] theorem State.onGroup_heldLines (s : State) (k : Nat) (f : Group → Group) : (s.onGroup k f).heldLines = s.heldLines := rfl
@[simp] theorem State.onGroup_sent (s : State) (k : Nat) (f : Group → Group) : (s.onGroup k f).sent = s.sent := rfl
@[simp] theorem State.onGroup_sec (s : State) (k : Nat) (f : Group → Group) : (s.onGroup k f).sec = s.sec := rfl
@[simp] theorem State.onGroup_regs (s : State) (k : Nat) (f : Group → Group) : (s.onGroup k f).regs = s.regs := rfl
@[simp] theorem State.onGroup_ras (s : State) (k : Nat) (f : Group → Group) : (s.onGroup k f).ras = s.ras := rfl
@[simp] theorem State.onGroup_waybills (s : State) (k : Nat) (f : Group → Group) : (s.onGroup k f).waybills = s.waybills := rfl

@[simp] theorem State.setGroup_mem (s : State) (k : Nat) (g : Group) : (s.setGroup k g).mem = s.mem := rfl
@[simp] theorem State.setGroup_clock (s : State) (k : Nat) (g : Group) : (s.setGroup k g).clock = s.clock := rfl
@[simp] theorem State.setGroup_agenda (s : State) (k : Nat) (g : Group) : (s.setGroup k g).agenda = s.agenda := rfl
@[simp] theorem State.setGroup_cur (s : State) (k : Nat) (g : Group) : (s.setGroup k g).cur = s.cur := rfl
@[simp] theorem State.setGroup_rota (s : State) (k : Nat) (g : Group) : (s.setGroup k g).rota = s.rota := rfl
@[simp] theorem State.setGroup_free (s : State) (k : Nat) (g : Group) : (s.setGroup k g).free = s.free := rfl
@[simp] theorem State.setGroup_fetched (s : State) (k : Nat) (g : Group) : (s.setGroup k g).fetched = s.fetched := rfl
@[simp] theorem State.setGroup_cpWrites (s : State) (k : Nat) (g : Group) : (s.setGroup k g).cpWrites = s.cpWrites := rfl
@[simp] theorem State.setGroup_groups (s : State) (k : Nat) (g : Group) : (s.setGroup k g).groups = put s.groups k g := rfl
@[simp] theorem State.setGroup_teams (s : State) (k : Nat) (g : Group) : (s.setGroup k g).teams = s.teams := rfl
@[simp] theorem State.setGroup_launches (s : State) (k : Nat) (g : Group) : (s.setGroup k g).launches = s.launches := rfl
@[simp] theorem State.setGroup_cores (s : State) (k : Nat) (g : Group) : (s.setGroup k g).cores = s.cores := rfl
@[simp] theorem State.setGroup_shadows (s : State) (k : Nat) (g : Group) : (s.setGroup k g).shadows = s.shadows := rfl
@[simp] theorem State.setGroup_stowed (s : State) (k : Nat) (g : Group) : (s.setGroup k g).stowed = s.stowed := rfl
@[simp] theorem State.setGroup_ops (s : State) (k : Nat) (g : Group) : (s.setGroup k g).ops = s.ops := rfl
@[simp] theorem State.setGroup_colls (s : State) (k : Nat) (g : Group) : (s.setGroup k g).colls = s.colls := rfl
@[simp] theorem State.setGroup_nextId (s : State) (k : Nat) (g : Group) : (s.setGroup k g).nextId = s.nextId := rfl
@[simp] theorem State.setGroup_tlb (s : State) (k : Nat) (g : Group) : (s.setGroup k g).tlb = s.tlb := rfl
@[simp] theorem State.setGroup_walkCache (s : State) (k : Nat) (g : Group) : (s.setGroup k g).walkCache = s.walkCache := rfl
@[simp] theorem State.setGroup_walks (s : State) (k : Nat) (g : Group) : (s.setGroup k g).walks = s.walks := rfl
@[simp] theorem State.setGroup_dir (s : State) (k : Nat) (g : Group) : (s.setGroup k g).dir = s.dir := rfl
@[simp] theorem State.setGroup_dirOrder (s : State) (k : Nat) (g : Group) : (s.setGroup k g).dirOrder = s.dirOrder := rfl
@[simp] theorem State.setGroup_l1 (s : State) (k : Nat) (g : Group) : (s.setGroup k g).l1 = s.l1 := rfl
@[simp] theorem State.setGroup_msgs (s : State) (k : Nat) (g : Group) : (s.setGroup k g).msgs = s.msgs := rfl
@[simp] theorem State.setGroup_msc (s : State) (k : Nat) (g : Group) : (s.setGroup k g).msc = s.msc := rfl
@[simp] theorem State.setGroup_foot (s : State) (k : Nat) (g : Group) : (s.setGroup k g).foot = s.foot := rfl
@[simp] theorem State.setGroup_monitors (s : State) (k : Nat) (g : Group) : (s.setGroup k g).monitors = s.monitors := rfl
@[simp] theorem State.setGroup_prioTokens (s : State) (k : Nat) (g : Group) : (s.setGroup k g).prioTokens = s.prioTokens := rfl
@[simp] theorem State.setGroup_channels (s : State) (k : Nat) (g : Group) : (s.setGroup k g).channels = s.channels := rfl
@[simp] theorem State.setGroup_retired (s : State) (k : Nat) (g : Group) : (s.setGroup k g).retired = s.retired := rfl
@[simp] theorem State.setGroup_retire (s : State) (k : Nat) (g : Group) : (s.setGroup k g).retire = s.retire := rfl
@[simp] theorem State.setGroup_drains (s : State) (k : Nat) (g : Group) : (s.setGroup k g).drains = s.drains := rfl
@[simp] theorem State.setGroup_reduces (s : State) (k : Nat) (g : Group) : (s.setGroup k g).reduces = s.reduces := rfl
@[simp] theorem State.setGroup_snoopFilter (s : State) (k : Nat) (g : Group) : (s.setGroup k g).snoopFilter = s.snoopFilter := rfl
@[simp] theorem State.setGroup_bisnp (s : State) (k : Nat) (g : Group) : (s.setGroup k g).bisnp = s.bisnp := rfl
@[simp] theorem State.setGroup_halves (s : State) (k : Nat) (g : Group) : (s.setGroup k g).halves = s.halves := rfl
@[simp] theorem State.setGroup_hot (s : State) (k : Nat) (g : Group) : (s.setGroup k g).hot = s.hot := rfl
@[simp] theorem State.setGroup_hotRegs (s : State) (k : Nat) (g : Group) : (s.setGroup k g).hotRegs = s.hotRegs := rfl
@[simp] theorem State.setGroup_dirtyMap (s : State) (k : Nat) (g : Group) : (s.setGroup k g).dirtyMap = s.dirtyMap := rfl
@[simp] theorem State.setGroup_parts (s : State) (k : Nat) (g : Group) : (s.setGroup k g).parts = s.parts := rfl
@[simp] theorem State.setGroup_vdn (s : State) (k : Nat) (g : Group) : (s.setGroup k g).vdn = s.vdn := rfl
@[simp] theorem State.setGroup_roster (s : State) (k : Nat) (g : Group) : (s.setGroup k g).roster = s.roster := rfl
@[simp] theorem State.setGroup_portsDown (s : State) (k : Nat) (g : Group) : (s.setGroup k g).portsDown = s.portsDown := rfl
@[simp] theorem State.setGroup_outbound (s : State) (k : Nat) (g : Group) : (s.setGroup k g).outbound = s.outbound := rfl
@[simp] theorem State.setGroup_early (s : State) (k : Nat) (g : Group) : (s.setGroup k g).early = s.early := rfl
@[simp] theorem State.setGroup_streams (s : State) (k : Nat) (g : Group) : (s.setGroup k g).streams = s.streams := rfl
@[simp] theorem State.setGroup_heldLines (s : State) (k : Nat) (g : Group) : (s.setGroup k g).heldLines = s.heldLines := rfl
@[simp] theorem State.setGroup_sent (s : State) (k : Nat) (g : Group) : (s.setGroup k g).sent = s.sent := rfl
@[simp] theorem State.setGroup_sec (s : State) (k : Nat) (g : Group) : (s.setGroup k g).sec = s.sec := rfl
@[simp] theorem State.setGroup_regs (s : State) (k : Nat) (g : Group) : (s.setGroup k g).regs = s.regs := rfl
@[simp] theorem State.setGroup_ras (s : State) (k : Nat) (g : Group) : (s.setGroup k g).ras = s.ras := rfl
@[simp] theorem State.setGroup_waybills (s : State) (k : Nat) (g : Group) : (s.setGroup k g).waybills = s.waybills := rfl

@[simp] theorem State.onTeam_mem (s : State) (k : Nat) (f : Team → Team) : (s.onTeam k f).mem = s.mem := rfl
@[simp] theorem State.onTeam_clock (s : State) (k : Nat) (f : Team → Team) : (s.onTeam k f).clock = s.clock := rfl
@[simp] theorem State.onTeam_agenda (s : State) (k : Nat) (f : Team → Team) : (s.onTeam k f).agenda = s.agenda := rfl
@[simp] theorem State.onTeam_cur (s : State) (k : Nat) (f : Team → Team) : (s.onTeam k f).cur = s.cur := rfl
@[simp] theorem State.onTeam_rota (s : State) (k : Nat) (f : Team → Team) : (s.onTeam k f).rota = s.rota := rfl
@[simp] theorem State.onTeam_free (s : State) (k : Nat) (f : Team → Team) : (s.onTeam k f).free = s.free := rfl
@[simp] theorem State.onTeam_fetched (s : State) (k : Nat) (f : Team → Team) : (s.onTeam k f).fetched = s.fetched := rfl
@[simp] theorem State.onTeam_cpWrites (s : State) (k : Nat) (f : Team → Team) : (s.onTeam k f).cpWrites = s.cpWrites := rfl
@[simp] theorem State.onTeam_groups (s : State) (k : Nat) (f : Team → Team) : (s.onTeam k f).groups = s.groups := rfl
@[simp] theorem State.onTeam_teams (s : State) (k : Nat) (f : Team → Team) : (s.onTeam k f).teams = alter s.teams k f := rfl
@[simp] theorem State.onTeam_launches (s : State) (k : Nat) (f : Team → Team) : (s.onTeam k f).launches = s.launches := rfl
@[simp] theorem State.onTeam_cores (s : State) (k : Nat) (f : Team → Team) : (s.onTeam k f).cores = s.cores := rfl
@[simp] theorem State.onTeam_shadows (s : State) (k : Nat) (f : Team → Team) : (s.onTeam k f).shadows = s.shadows := rfl
@[simp] theorem State.onTeam_stowed (s : State) (k : Nat) (f : Team → Team) : (s.onTeam k f).stowed = s.stowed := rfl
@[simp] theorem State.onTeam_ops (s : State) (k : Nat) (f : Team → Team) : (s.onTeam k f).ops = s.ops := rfl
@[simp] theorem State.onTeam_colls (s : State) (k : Nat) (f : Team → Team) : (s.onTeam k f).colls = s.colls := rfl
@[simp] theorem State.onTeam_nextId (s : State) (k : Nat) (f : Team → Team) : (s.onTeam k f).nextId = s.nextId := rfl
@[simp] theorem State.onTeam_tlb (s : State) (k : Nat) (f : Team → Team) : (s.onTeam k f).tlb = s.tlb := rfl
@[simp] theorem State.onTeam_walkCache (s : State) (k : Nat) (f : Team → Team) : (s.onTeam k f).walkCache = s.walkCache := rfl
@[simp] theorem State.onTeam_walks (s : State) (k : Nat) (f : Team → Team) : (s.onTeam k f).walks = s.walks := rfl
@[simp] theorem State.onTeam_dir (s : State) (k : Nat) (f : Team → Team) : (s.onTeam k f).dir = s.dir := rfl
@[simp] theorem State.onTeam_dirOrder (s : State) (k : Nat) (f : Team → Team) : (s.onTeam k f).dirOrder = s.dirOrder := rfl
@[simp] theorem State.onTeam_l1 (s : State) (k : Nat) (f : Team → Team) : (s.onTeam k f).l1 = s.l1 := rfl
@[simp] theorem State.onTeam_msgs (s : State) (k : Nat) (f : Team → Team) : (s.onTeam k f).msgs = s.msgs := rfl
@[simp] theorem State.onTeam_msc (s : State) (k : Nat) (f : Team → Team) : (s.onTeam k f).msc = s.msc := rfl
@[simp] theorem State.onTeam_foot (s : State) (k : Nat) (f : Team → Team) : (s.onTeam k f).foot = s.foot := rfl
@[simp] theorem State.onTeam_monitors (s : State) (k : Nat) (f : Team → Team) : (s.onTeam k f).monitors = s.monitors := rfl
@[simp] theorem State.onTeam_prioTokens (s : State) (k : Nat) (f : Team → Team) : (s.onTeam k f).prioTokens = s.prioTokens := rfl
@[simp] theorem State.onTeam_channels (s : State) (k : Nat) (f : Team → Team) : (s.onTeam k f).channels = s.channels := rfl
@[simp] theorem State.onTeam_retired (s : State) (k : Nat) (f : Team → Team) : (s.onTeam k f).retired = s.retired := rfl
@[simp] theorem State.onTeam_retire (s : State) (k : Nat) (f : Team → Team) : (s.onTeam k f).retire = s.retire := rfl
@[simp] theorem State.onTeam_drains (s : State) (k : Nat) (f : Team → Team) : (s.onTeam k f).drains = s.drains := rfl
@[simp] theorem State.onTeam_reduces (s : State) (k : Nat) (f : Team → Team) : (s.onTeam k f).reduces = s.reduces := rfl
@[simp] theorem State.onTeam_snoopFilter (s : State) (k : Nat) (f : Team → Team) : (s.onTeam k f).snoopFilter = s.snoopFilter := rfl
@[simp] theorem State.onTeam_bisnp (s : State) (k : Nat) (f : Team → Team) : (s.onTeam k f).bisnp = s.bisnp := rfl
@[simp] theorem State.onTeam_halves (s : State) (k : Nat) (f : Team → Team) : (s.onTeam k f).halves = s.halves := rfl
@[simp] theorem State.onTeam_hot (s : State) (k : Nat) (f : Team → Team) : (s.onTeam k f).hot = s.hot := rfl
@[simp] theorem State.onTeam_hotRegs (s : State) (k : Nat) (f : Team → Team) : (s.onTeam k f).hotRegs = s.hotRegs := rfl
@[simp] theorem State.onTeam_dirtyMap (s : State) (k : Nat) (f : Team → Team) : (s.onTeam k f).dirtyMap = s.dirtyMap := rfl
@[simp] theorem State.onTeam_parts (s : State) (k : Nat) (f : Team → Team) : (s.onTeam k f).parts = s.parts := rfl
@[simp] theorem State.onTeam_vdn (s : State) (k : Nat) (f : Team → Team) : (s.onTeam k f).vdn = s.vdn := rfl
@[simp] theorem State.onTeam_roster (s : State) (k : Nat) (f : Team → Team) : (s.onTeam k f).roster = s.roster := rfl
@[simp] theorem State.onTeam_portsDown (s : State) (k : Nat) (f : Team → Team) : (s.onTeam k f).portsDown = s.portsDown := rfl
@[simp] theorem State.onTeam_outbound (s : State) (k : Nat) (f : Team → Team) : (s.onTeam k f).outbound = s.outbound := rfl
@[simp] theorem State.onTeam_early (s : State) (k : Nat) (f : Team → Team) : (s.onTeam k f).early = s.early := rfl
@[simp] theorem State.onTeam_streams (s : State) (k : Nat) (f : Team → Team) : (s.onTeam k f).streams = s.streams := rfl
@[simp] theorem State.onTeam_heldLines (s : State) (k : Nat) (f : Team → Team) : (s.onTeam k f).heldLines = s.heldLines := rfl
@[simp] theorem State.onTeam_sent (s : State) (k : Nat) (f : Team → Team) : (s.onTeam k f).sent = s.sent := rfl
@[simp] theorem State.onTeam_sec (s : State) (k : Nat) (f : Team → Team) : (s.onTeam k f).sec = s.sec := rfl
@[simp] theorem State.onTeam_regs (s : State) (k : Nat) (f : Team → Team) : (s.onTeam k f).regs = s.regs := rfl
@[simp] theorem State.onTeam_ras (s : State) (k : Nat) (f : Team → Team) : (s.onTeam k f).ras = s.ras := rfl
@[simp] theorem State.onTeam_waybills (s : State) (k : Nat) (f : Team → Team) : (s.onTeam k f).waybills = s.waybills := rfl

@[simp] theorem State.onCore_mem (s : State) (k : Nat) (f : Core → Core) : (s.onCore k f).mem = s.mem := rfl
@[simp] theorem State.onCore_clock (s : State) (k : Nat) (f : Core → Core) : (s.onCore k f).clock = s.clock := rfl
@[simp] theorem State.onCore_agenda (s : State) (k : Nat) (f : Core → Core) : (s.onCore k f).agenda = s.agenda := rfl
@[simp] theorem State.onCore_cur (s : State) (k : Nat) (f : Core → Core) : (s.onCore k f).cur = s.cur := rfl
@[simp] theorem State.onCore_rota (s : State) (k : Nat) (f : Core → Core) : (s.onCore k f).rota = s.rota := rfl
@[simp] theorem State.onCore_free (s : State) (k : Nat) (f : Core → Core) : (s.onCore k f).free = s.free := rfl
@[simp] theorem State.onCore_fetched (s : State) (k : Nat) (f : Core → Core) : (s.onCore k f).fetched = s.fetched := rfl
@[simp] theorem State.onCore_cpWrites (s : State) (k : Nat) (f : Core → Core) : (s.onCore k f).cpWrites = s.cpWrites := rfl
@[simp] theorem State.onCore_groups (s : State) (k : Nat) (f : Core → Core) : (s.onCore k f).groups = s.groups := rfl
@[simp] theorem State.onCore_teams (s : State) (k : Nat) (f : Core → Core) : (s.onCore k f).teams = s.teams := rfl
@[simp] theorem State.onCore_launches (s : State) (k : Nat) (f : Core → Core) : (s.onCore k f).launches = s.launches := rfl
@[simp] theorem State.onCore_cores (s : State) (k : Nat) (f : Core → Core) : (s.onCore k f).cores = put s.cores k (f (s.core k)) := rfl
@[simp] theorem State.onCore_shadows (s : State) (k : Nat) (f : Core → Core) : (s.onCore k f).shadows = s.shadows := rfl
@[simp] theorem State.onCore_stowed (s : State) (k : Nat) (f : Core → Core) : (s.onCore k f).stowed = s.stowed := rfl
@[simp] theorem State.onCore_ops (s : State) (k : Nat) (f : Core → Core) : (s.onCore k f).ops = s.ops := rfl
@[simp] theorem State.onCore_colls (s : State) (k : Nat) (f : Core → Core) : (s.onCore k f).colls = s.colls := rfl
@[simp] theorem State.onCore_nextId (s : State) (k : Nat) (f : Core → Core) : (s.onCore k f).nextId = s.nextId := rfl
@[simp] theorem State.onCore_tlb (s : State) (k : Nat) (f : Core → Core) : (s.onCore k f).tlb = s.tlb := rfl
@[simp] theorem State.onCore_walkCache (s : State) (k : Nat) (f : Core → Core) : (s.onCore k f).walkCache = s.walkCache := rfl
@[simp] theorem State.onCore_walks (s : State) (k : Nat) (f : Core → Core) : (s.onCore k f).walks = s.walks := rfl
@[simp] theorem State.onCore_dir (s : State) (k : Nat) (f : Core → Core) : (s.onCore k f).dir = s.dir := rfl
@[simp] theorem State.onCore_dirOrder (s : State) (k : Nat) (f : Core → Core) : (s.onCore k f).dirOrder = s.dirOrder := rfl
@[simp] theorem State.onCore_l1 (s : State) (k : Nat) (f : Core → Core) : (s.onCore k f).l1 = s.l1 := rfl
@[simp] theorem State.onCore_msgs (s : State) (k : Nat) (f : Core → Core) : (s.onCore k f).msgs = s.msgs := rfl
@[simp] theorem State.onCore_msc (s : State) (k : Nat) (f : Core → Core) : (s.onCore k f).msc = s.msc := rfl
@[simp] theorem State.onCore_foot (s : State) (k : Nat) (f : Core → Core) : (s.onCore k f).foot = s.foot := rfl
@[simp] theorem State.onCore_monitors (s : State) (k : Nat) (f : Core → Core) : (s.onCore k f).monitors = s.monitors := rfl
@[simp] theorem State.onCore_prioTokens (s : State) (k : Nat) (f : Core → Core) : (s.onCore k f).prioTokens = s.prioTokens := rfl
@[simp] theorem State.onCore_channels (s : State) (k : Nat) (f : Core → Core) : (s.onCore k f).channels = s.channels := rfl
@[simp] theorem State.onCore_retired (s : State) (k : Nat) (f : Core → Core) : (s.onCore k f).retired = s.retired := rfl
@[simp] theorem State.onCore_retire (s : State) (k : Nat) (f : Core → Core) : (s.onCore k f).retire = s.retire := rfl
@[simp] theorem State.onCore_drains (s : State) (k : Nat) (f : Core → Core) : (s.onCore k f).drains = s.drains := rfl
@[simp] theorem State.onCore_reduces (s : State) (k : Nat) (f : Core → Core) : (s.onCore k f).reduces = s.reduces := rfl
@[simp] theorem State.onCore_snoopFilter (s : State) (k : Nat) (f : Core → Core) : (s.onCore k f).snoopFilter = s.snoopFilter := rfl
@[simp] theorem State.onCore_bisnp (s : State) (k : Nat) (f : Core → Core) : (s.onCore k f).bisnp = s.bisnp := rfl
@[simp] theorem State.onCore_halves (s : State) (k : Nat) (f : Core → Core) : (s.onCore k f).halves = s.halves := rfl
@[simp] theorem State.onCore_hot (s : State) (k : Nat) (f : Core → Core) : (s.onCore k f).hot = s.hot := rfl
@[simp] theorem State.onCore_hotRegs (s : State) (k : Nat) (f : Core → Core) : (s.onCore k f).hotRegs = s.hotRegs := rfl
@[simp] theorem State.onCore_dirtyMap (s : State) (k : Nat) (f : Core → Core) : (s.onCore k f).dirtyMap = s.dirtyMap := rfl
@[simp] theorem State.onCore_parts (s : State) (k : Nat) (f : Core → Core) : (s.onCore k f).parts = s.parts := rfl
@[simp] theorem State.onCore_vdn (s : State) (k : Nat) (f : Core → Core) : (s.onCore k f).vdn = s.vdn := rfl
@[simp] theorem State.onCore_roster (s : State) (k : Nat) (f : Core → Core) : (s.onCore k f).roster = s.roster := rfl
@[simp] theorem State.onCore_portsDown (s : State) (k : Nat) (f : Core → Core) : (s.onCore k f).portsDown = s.portsDown := rfl
@[simp] theorem State.onCore_outbound (s : State) (k : Nat) (f : Core → Core) : (s.onCore k f).outbound = s.outbound := rfl
@[simp] theorem State.onCore_early (s : State) (k : Nat) (f : Core → Core) : (s.onCore k f).early = s.early := rfl
@[simp] theorem State.onCore_streams (s : State) (k : Nat) (f : Core → Core) : (s.onCore k f).streams = s.streams := rfl
@[simp] theorem State.onCore_heldLines (s : State) (k : Nat) (f : Core → Core) : (s.onCore k f).heldLines = s.heldLines := rfl
@[simp] theorem State.onCore_sent (s : State) (k : Nat) (f : Core → Core) : (s.onCore k f).sent = s.sent := rfl
@[simp] theorem State.onCore_sec (s : State) (k : Nat) (f : Core → Core) : (s.onCore k f).sec = s.sec := rfl
@[simp] theorem State.onCore_regs (s : State) (k : Nat) (f : Core → Core) : (s.onCore k f).regs = s.regs := rfl
@[simp] theorem State.onCore_ras (s : State) (k : Nat) (f : Core → Core) : (s.onCore k f).ras = s.ras := rfl
@[simp] theorem State.onCore_waybills (s : State) (k : Nat) (f : Core → Core) : (s.onCore k f).waybills = s.waybills := rfl

@[simp] theorem State.onPart_mem (s : State) (k : Nat) (f : Part → Part) : (s.onPart k f).mem = s.mem := rfl
@[simp] theorem State.onPart_clock (s : State) (k : Nat) (f : Part → Part) : (s.onPart k f).clock = s.clock := rfl
@[simp] theorem State.onPart_agenda (s : State) (k : Nat) (f : Part → Part) : (s.onPart k f).agenda = s.agenda := rfl
@[simp] theorem State.onPart_cur (s : State) (k : Nat) (f : Part → Part) : (s.onPart k f).cur = s.cur := rfl
@[simp] theorem State.onPart_rota (s : State) (k : Nat) (f : Part → Part) : (s.onPart k f).rota = s.rota := rfl
@[simp] theorem State.onPart_free (s : State) (k : Nat) (f : Part → Part) : (s.onPart k f).free = s.free := rfl
@[simp] theorem State.onPart_fetched (s : State) (k : Nat) (f : Part → Part) : (s.onPart k f).fetched = s.fetched := rfl
@[simp] theorem State.onPart_cpWrites (s : State) (k : Nat) (f : Part → Part) : (s.onPart k f).cpWrites = s.cpWrites := rfl
@[simp] theorem State.onPart_groups (s : State) (k : Nat) (f : Part → Part) : (s.onPart k f).groups = s.groups := rfl
@[simp] theorem State.onPart_teams (s : State) (k : Nat) (f : Part → Part) : (s.onPart k f).teams = s.teams := rfl
@[simp] theorem State.onPart_launches (s : State) (k : Nat) (f : Part → Part) : (s.onPart k f).launches = s.launches := rfl
@[simp] theorem State.onPart_cores (s : State) (k : Nat) (f : Part → Part) : (s.onPart k f).cores = s.cores := rfl
@[simp] theorem State.onPart_shadows (s : State) (k : Nat) (f : Part → Part) : (s.onPart k f).shadows = s.shadows := rfl
@[simp] theorem State.onPart_stowed (s : State) (k : Nat) (f : Part → Part) : (s.onPart k f).stowed = s.stowed := rfl
@[simp] theorem State.onPart_ops (s : State) (k : Nat) (f : Part → Part) : (s.onPart k f).ops = s.ops := rfl
@[simp] theorem State.onPart_colls (s : State) (k : Nat) (f : Part → Part) : (s.onPart k f).colls = s.colls := rfl
@[simp] theorem State.onPart_nextId (s : State) (k : Nat) (f : Part → Part) : (s.onPart k f).nextId = s.nextId := rfl
@[simp] theorem State.onPart_tlb (s : State) (k : Nat) (f : Part → Part) : (s.onPart k f).tlb = s.tlb := rfl
@[simp] theorem State.onPart_walkCache (s : State) (k : Nat) (f : Part → Part) : (s.onPart k f).walkCache = s.walkCache := rfl
@[simp] theorem State.onPart_walks (s : State) (k : Nat) (f : Part → Part) : (s.onPart k f).walks = s.walks := rfl
@[simp] theorem State.onPart_dir (s : State) (k : Nat) (f : Part → Part) : (s.onPart k f).dir = s.dir := rfl
@[simp] theorem State.onPart_dirOrder (s : State) (k : Nat) (f : Part → Part) : (s.onPart k f).dirOrder = s.dirOrder := rfl
@[simp] theorem State.onPart_l1 (s : State) (k : Nat) (f : Part → Part) : (s.onPart k f).l1 = s.l1 := rfl
@[simp] theorem State.onPart_msgs (s : State) (k : Nat) (f : Part → Part) : (s.onPart k f).msgs = s.msgs := rfl
@[simp] theorem State.onPart_msc (s : State) (k : Nat) (f : Part → Part) : (s.onPart k f).msc = s.msc := rfl
@[simp] theorem State.onPart_foot (s : State) (k : Nat) (f : Part → Part) : (s.onPart k f).foot = s.foot := rfl
@[simp] theorem State.onPart_monitors (s : State) (k : Nat) (f : Part → Part) : (s.onPart k f).monitors = s.monitors := rfl
@[simp] theorem State.onPart_prioTokens (s : State) (k : Nat) (f : Part → Part) : (s.onPart k f).prioTokens = s.prioTokens := rfl
@[simp] theorem State.onPart_channels (s : State) (k : Nat) (f : Part → Part) : (s.onPart k f).channels = s.channels := rfl
@[simp] theorem State.onPart_retired (s : State) (k : Nat) (f : Part → Part) : (s.onPart k f).retired = s.retired := rfl
@[simp] theorem State.onPart_retire (s : State) (k : Nat) (f : Part → Part) : (s.onPart k f).retire = s.retire := rfl
@[simp] theorem State.onPart_drains (s : State) (k : Nat) (f : Part → Part) : (s.onPart k f).drains = s.drains := rfl
@[simp] theorem State.onPart_reduces (s : State) (k : Nat) (f : Part → Part) : (s.onPart k f).reduces = s.reduces := rfl
@[simp] theorem State.onPart_snoopFilter (s : State) (k : Nat) (f : Part → Part) : (s.onPart k f).snoopFilter = s.snoopFilter := rfl
@[simp] theorem State.onPart_bisnp (s : State) (k : Nat) (f : Part → Part) : (s.onPart k f).bisnp = s.bisnp := rfl
@[simp] theorem State.onPart_halves (s : State) (k : Nat) (f : Part → Part) : (s.onPart k f).halves = s.halves := rfl
@[simp] theorem State.onPart_hot (s : State) (k : Nat) (f : Part → Part) : (s.onPart k f).hot = s.hot := rfl
@[simp] theorem State.onPart_hotRegs (s : State) (k : Nat) (f : Part → Part) : (s.onPart k f).hotRegs = s.hotRegs := rfl
@[simp] theorem State.onPart_dirtyMap (s : State) (k : Nat) (f : Part → Part) : (s.onPart k f).dirtyMap = s.dirtyMap := rfl
@[simp] theorem State.onPart_parts (s : State) (k : Nat) (f : Part → Part) : (s.onPart k f).parts = put s.parts k (f (s.part k)) := rfl
@[simp] theorem State.onPart_vdn (s : State) (k : Nat) (f : Part → Part) : (s.onPart k f).vdn = s.vdn := rfl
@[simp] theorem State.onPart_roster (s : State) (k : Nat) (f : Part → Part) : (s.onPart k f).roster = s.roster := rfl
@[simp] theorem State.onPart_portsDown (s : State) (k : Nat) (f : Part → Part) : (s.onPart k f).portsDown = s.portsDown := rfl
@[simp] theorem State.onPart_outbound (s : State) (k : Nat) (f : Part → Part) : (s.onPart k f).outbound = s.outbound := rfl
@[simp] theorem State.onPart_early (s : State) (k : Nat) (f : Part → Part) : (s.onPart k f).early = s.early := rfl
@[simp] theorem State.onPart_streams (s : State) (k : Nat) (f : Part → Part) : (s.onPart k f).streams = s.streams := rfl
@[simp] theorem State.onPart_heldLines (s : State) (k : Nat) (f : Part → Part) : (s.onPart k f).heldLines = s.heldLines := rfl
@[simp] theorem State.onPart_sent (s : State) (k : Nat) (f : Part → Part) : (s.onPart k f).sent = s.sent := rfl
@[simp] theorem State.onPart_sec (s : State) (k : Nat) (f : Part → Part) : (s.onPart k f).sec = s.sec := rfl
@[simp] theorem State.onPart_regs (s : State) (k : Nat) (f : Part → Part) : (s.onPart k f).regs = s.regs := rfl
@[simp] theorem State.onPart_ras (s : State) (k : Nat) (f : Part → Part) : (s.onPart k f).ras = s.ras := rfl
@[simp] theorem State.onPart_waybills (s : State) (k : Nat) (f : Part → Part) : (s.onPart k f).waybills = s.waybills := rfl

end Sys2Proof.Machine
end

