-- ==== Sys2Proof/Laws/Table.lean ====
section
/-! SUPPORT. Laws of the finite tables: what reading gives after a write. -/

namespace Sys2Proof.Machine

variable {α : Type}

/-- An entry just written is read back. -/
@[simp] theorem look_put_same (t : Store α) (k : Nat) (a : α) : look (put t k a) k = some a := by
  induction t with
  | nil => simp [put, look]
  | cons e r ih =>
    obtain ⟨j, b⟩ := e
    simp only [put]
    split
    · rename_i h; simp [look, Nat.ne_of_lt h, ih]
    · split <;> simp [look]

/-- A write at one key leaves every other key alone. -/
theorem look_put_other (t : Store α) (k j : Nat) (a : α) (h : j ≠ k) : look (put t k a) j = look t j := by
  induction t with
  | nil => simp [put, look, Ne.symm h]
  | cons e r ih =>
    obtain ⟨i, b⟩ := e
    simp only [put]
    split
    · simp [look, ih]
    · split
      · rename_i _ hik; subst hik; simp [look, Ne.symm h]
      · simp [look, Ne.symm h]

/-- Reading with a default after a write to the same key. -/
@[simp] theorem lookD_put_same (t : Store α) (k : Nat) (a d : α) : lookD (put t k a) k d = a := by simp [lookD]

/-- Reading with a default after a write to another key. -/
theorem lookD_put_other (t : Store α) (k j : Nat) (a d : α) (h : j ≠ k) : lookD (put t k a) j d = lookD t j d := by
  simp [lookD, look_put_other t k j a h]

/-- A deleted key reads as absent. -/
@[simp] theorem look_del_same (t : Store α) (k : Nat) : look (del t k) k = none := by
  induction t with
  | nil => rfl
  | cons e r ih =>
    obtain ⟨j, b⟩ := e
    simp only [del]
    split
    · exact ih
    · rename_i h; simp [look, h, ih]

/-- A deletion leaves every other key alone. -/
theorem look_del_other (t : Store α) (k j : Nat) (h : j ≠ k) : look (del t k) j = look t j := by
  induction t with
  | nil => rfl
  | cons e r ih =>
    obtain ⟨i, b⟩ := e
    simp only [del]
    split
    · rename_i hik; subst hik; simp [look, Ne.symm h, ih]
    · simp [look, ih]

/-- A change of a present entry is a write. -/
theorem alter_of_look (t : Store α) (k : Nat) (f : α → α) (a : α) (h : look t k = some a) : alter t k f = put t k (f a) := by
  simp [alter, h]

/-- A change of an absent entry does nothing. -/
theorem alter_of_none (t : Store α) (k : Nat) (f : α → α) (h : look t k = none) : alter t k f = t := by simp [alter, h]

/-- A number put into a list is in it, with all that was there. -/
theorem mem_insertNat (l : List Nat) (k j : Nat) : j ∈ insertNat l k ↔ j = k ∨ j ∈ l := by
  induction l with
  | nil => simp [insertNat]
  | cons a r ih =>
    simp only [insertNat]
    split
    · simp [ih, or_left_comm]
    · split
      · rename_i _ h; subst h; simp
      · simp

/-- n bytes of a number are n bytes. -/
@[simp] theorem toBytes_length (n v : Nat) : (toBytes n v).length = n := by
  induction n generalizing v with
  | zero => rfl
  | succ k ih => simp [toBytes, ih]

/-- The bytes of a number give it back, up to their width. -/
theorem ofBytes_toBytes (n v : Nat) : ofBytes (toBytes n v) = v % 2 ^ (8 * n) := by
  induction n generalizing v with
  | zero => simp [toBytes, ofBytes, Nat.mod_one]
  | succ k ih =>
    simp only [toBytes, ofBytes, ih, BitVec.toNat_ofNat]
    rw [show 8 * (k + 1) = 8 + 8 * k by omega, Nat.pow_add, Nat.mod_mul]

end Sys2Proof.Machine
end

