-- ==== Sys2Proof/Laws/Issue.lean ====
section
/-! SUPPORT. Laws of the frame in which lane instructions issue (Ops.lean, Operands.lean): what re-numbering the paths,
moving the sequencers and finishing an instruction leave alone, and when `prepare` lets an instruction take effect. -/

namespace Sys2Proof.Machine

/-! ### Lanes of a group -/

/-- A change of some lanes leaves the number of lanes alone. -/
@[simp] theorem Group.onLanes_length (g : Group) (ls : List Nat) (f : Nat → Lane → Lane) :
    (g.onLanes ls f).arch.lanes.length = g.arch.lanes.length := by simp [Group.onLanes]

/-- A changed lane. -/
theorem Group.onLanes_lane (g : Group) (ls : List Nat) (f : Nat → Lane → Lane) (i : Nat) (h : i < g.arch.lanes.length) :
    (g.onLanes ls f).lane i = if ls.contains i then f i (g.lane i) else g.lane i := by
  simp [Group.lane, Group.onLanes, h]

/-! ### Paths -/

/-- Two group states whose lanes agree but for their path numbers, and whose other fields agree but for the sequencers' and the
path counter. -/
structure GroupArch.SamePaths (a b : GroupArch) : Prop where
  len : b.lanes.length = a.lanes.length
  lane : ∀ (i : Nat) (l : Lane), a.lanes[i]? = some l → ∃ p, b.lanes[i]? = some { l with path := p }
  rest : b = { a with lanes := b.lanes, slices := b.slices, nextPath := b.nextPath }

/-- Every state agrees with itself. -/
theorem GroupArch.SamePaths.rfl (a : GroupArch) : a.SamePaths a :=
  ⟨Eq.refl _, fun _ l h => ⟨l.path, h⟩, by cases a; simp⟩

/-- Agreement passes on. -/
theorem GroupArch.SamePaths.trans {a b c : GroupArch} (h : a.SamePaths b) (k : b.SamePaths c) : a.SamePaths c := by
  refine ⟨k.len.trans h.len, fun i l hl => ?_, ?_⟩
  · obtain ⟨p, hp⟩ := h.lane i l hl
    obtain ⟨q, hq⟩ := k.lane i _ hp
    exact ⟨q, hq⟩
  · rw [k.rest, h.rest]

/-- Dividing and merging the paths of a slice changes nothing else. -/
theorem GroupArch.repathSlice_same (a : GroupArch) (j : Nat) : a.SamePaths (a.repathSlice j) := by
  refine ⟨by simp [GroupArch.repathSlice], fun i l hl => ?_, by simp [GroupArch.repathSlice]⟩
  simp only [GroupArch.repathSlice, List.getElem?_mapIdx, hl, Option.map_some]
  split
  · exact ⟨_, Eq.refl _⟩
  · exact ⟨l.path, Eq.refl _⟩

/-- Dividing and merging the paths of some slices. -/
theorem GroupArch.repathFold_same (js : List Nat) (a : GroupArch) : a.SamePaths (js.foldl (fun b j => b.repathSlice j) a) := by
  induction js generalizing a with
  | nil => exact .rfl a
  | cons j r ih => exact (a.repathSlice_same j).trans (ih (a.repathSlice j))

/-- Dividing and merging paths changes nothing else. -/
theorem GroupArch.repath_same (a : GroupArch) : a.SamePaths a.repath := repathFold_same _ a

/-- Steps of which none changes more than paths and slices change no more together. -/
theorem GroupArch.foldl_same {α : Type} (f : GroupArch → α → GroupArch) (h : ∀ b x, GroupArch.SamePaths b (f b x)) (l : List α) (a : GroupArch) :
    a.SamePaths (l.foldl f a) := by
  induction l generalizing a with
  | nil => exact .rfl a
  | cons x r ih => exact (h a x).trans (ih (f a x))

/-- A slice moving on from a path changes nothing else. -/
theorem GroupArch.rotate_same (a : GroupArch) (j k : Nat) : a.SamePaths (a.rotate j k) :=
  ⟨Eq.refl _, fun _ l h => ⟨l.path, h⟩, by simp [GroupArch.rotate]⟩

/-- Slices moving on from the path of some lanes change nothing else. -/
theorem GroupArch.rotateFrom_same (a : GroupArch) (lanes : List Nat) : a.SamePaths (a.rotateFrom lanes) := by
  refine GroupArch.foldl_same _ (fun b j => ?_) _ _
  split
  · exact b.rotate_same _ _
  · exact .rfl b

/-- A change of the slices alone. -/
theorem GroupArch.slices_same (a : GroupArch) (f : List Slice) : a.SamePaths { a with slices := f } :=
  ⟨Eq.refl _, fun _ l h => ⟨l.path, h⟩, by simp⟩

/-- The sequencers after an instruction change nothing but paths and slices (R155). -/
theorem GroupArch.sequence_same (a : GroupArch) (mask back : List Nat) (inRegion : Bool) :
    a.SamePaths (a.sequence mask back inRegion) := by
  unfold GroupArch.sequence
  split
  · exact a.repath_same
  · refine ((a.repath_same.trans (a.repath.slices_same _)).trans (GroupArch.rotateFrom_same _ back)).trans (GroupArch.foldl_same _ (fun b j => ?_) _ _)
    split
    · split
      · exact b.rotate_same _ _
      · exact .rfl b
    · exact .rfl b

/-! ### Registers with nothing unfinished (R225, R226) -/

/-- No unfinished write is met where every one is whole by this issue distance (R225). -/
theorem Issue.hazardsOn_nil (x : Issue) (h : ∀ e ∈ x.g.arch.hazards, e.live x.fm.short x.dist = false) (lane : Nat)
    (file : RegFile) (key : Nat) : x.hazardsOn lane file key = [] := by
  simp only [Issue.hazardsOn, List.filter_eq_nil_iff, List.mem_map]
  rintro ⟨i, e⟩ ⟨⟨e', j⟩, hm, heq⟩
  simp only [Prod.mk.injEq] at heq
  have hmem : e' ∈ x.g.arch.hazards := by
    have := List.mem_zipIdx hm
    simp only [this.2.2]
    exact List.getElem_mem _
  have := h e' hmem
  rw [← heq.2]
  simp [this]

/-- A lane register read with nothing unfinished reads as it stands (R225). -/
theorem Issue.v_whole (x : Issue) (h : ∀ e ∈ x.g.arch.hazards, e.live x.fm.short x.dist = false) (slot i r : Nat) :
    x.v slot i r = (x.lane i).reg (rename x.rg (x.lane i) r) := by
  simp [Issue.v, Issue.pick, x.hazardsOn_nil h, Lane.reg]

/-- An s-register read with nothing unfinished reads as it stands. -/
theorem Issue.sreg_whole (x : Issue) (h : ∀ e ∈ x.g.arch.hazards, e.live x.fm.short x.dist = false) (slot r : Nat) :
    x.sreg slot r = x.g.sreg r := by
  simp [Issue.sreg, Issue.pick, x.hazardsOn_nil h]

/-- A predicate read with nothing unfinished reads as it stands; p0 is true (R3). -/
theorem Issue.p_whole (x : Issue) (h : ∀ e ∈ x.g.arch.hazards, e.live x.fm.short x.dist = false) (i n : Nat) :
    x.p i n = (x.lane i).pred n := by
  unfold Issue.p
  split
  · rename_i hn; subst hn; rfl
  · simp only [Issue.pick, x.hazardsOn_nil h]
    cases (x.lane i).pred n <;> simp

/-- No write meets one that completes later where every earlier one is whole. -/
theorem Issue.outlived_none (x : Issue) (h : ∀ e ∈ x.g.arch.hazards, e.live x.fm.short x.dist = false) (lane : Nat) (file : RegFile)
    (key : Nat) : x.outlived lane file key = none := by
  simp [Issue.outlived, x.hazardsOn_nil h]

/-- A lane register written with nothing unfinished takes its value (R226). -/
theorem Issue.writeV_whole (x : Issue) (h : ∀ e ∈ x.g.arch.hazards, e.live x.fm.short x.dist = false) (i : Nat) (l : Lane)
    (w : Nat × Word) : x.writeV i l w = l.setReg (rename x.rg l w.1) w.2 := by
  simp [Issue.writeV, Issue.leaves, x.outlived_none h]

/-- A predicate written with nothing unfinished takes its value. -/
theorem Issue.writeP_whole (x : Issue) (h : ∀ e ∈ x.g.arch.hazards, e.live x.fm.short x.dist = false) (i : Nat) (l : Lane)
    (w : Nat × Bool) : x.writeP i l w = l.setPred w.1 w.2 := by
  simp [Issue.writeP, Issue.leaves, x.outlived_none h]

/-- An s-register written with nothing unfinished takes its value. -/
theorem Issue.writeS_whole (x : Issue) (h : ∀ e ∈ x.g.arch.hazards, e.live x.fm.short x.dist = false) (g : Group) (w : Nat × Word) :
    x.writeS g w = g.setSreg w.1 w.2 := by
  simp [Issue.writeS, Issue.leaves, x.outlived_none h]

/-! ### Finishing an instruction -/

/-- Raising a flag touches flags and the epoch's record alone. -/
theorem Group.raise_eq (g : Group) (n : Nat) :
    g.raise n = { g with flags := (g.raise n).flags, epoch := (g.raise n).epoch } := by
  unfold Group.raise
  split <;> simp

/-- An s-register written: the binding of its pair ends, nothing else changes but the value. -/
theorem Group.setSregs_eq (l : List (Nat × Word)) (g : Group) :
    l.foldl (fun h w => h.setSreg w.1 w.2) g =
      { g with arch := { g.arch with
          sregs := l.foldl (fun t w => put t w.1 w.2) g.arch.sregs
          struck := l.foldl (fun (t : List BadReg) w => t.filter (fun b => b.file != .s || b.key != w.1)) g.arch.struck
          bound := l.foldl (fun (t : List (Nat × Nat)) w => t.filter (fun b => b.1 != w.1 / 2 * 2)) g.arch.bound } } := by
  induction l generalizing g with
  | nil => rfl
  | cons e r ih => rw [List.foldl_cons, ih]; rfl

/-- s-registers written by an instruction: nothing else of the group changes but the bindings of their pairs and their marks. -/
theorem Issue.writeS_eq (x : Issue) (l : List (Nat × Word)) (g : Group) :
    l.foldl x.writeS g =
      { g with arch := { g.arch with
          sregs := (l.foldl x.writeS g).arch.sregs
          struck := (l.foldl x.writeS g).arch.struck
          bound := (l.foldl x.writeS g).arch.bound } } := by
  induction l generalizing g with
  | nil => rfl
  | cons e r ih => rw [List.foldl_cons, ih]; rfl

/-- What a group holds after an instruction whose result changes nothing of the group beyond its lanes and s-registers, every
earlier result whole, outside an epoch. -/
theorem Group.finish_eq (g : Group) (x : Issue) (r : Result) (hr : r.group = id) (he : g.epoch = none)
    (hw : ∀ e ∈ x.g.arch.hazards, e.live x.fm.short x.dist = false) :
    g.finish x r =
      { g with
        arch := { g.arch with
          lanes := (g.finish x r).arch.lanes
          slices := (g.finish x r).arch.slices
          nextPath := (g.finish x r).arch.nextPath
          hazards := x.oldHazards r g.arch.hazards ++ x.newHazards r
          struck := (r.sregs.foldl (fun (t : List BadReg) w => t.filter (fun b => b.file != .s || b.key != w.1)) g.arch.struck).filter
            (fun b => !(x.mended r.v r.p).contains b)
          distance := x.dist
          fpcsr := fpRaise g.arch.fpcsr (x.act.foldl (fun c i => c ||| r.fp i) 0)
          sregs := r.sregs.foldl (fun t w => put t w.1 w.2) g.arch.sregs
          bound := r.sregs.foldl (fun (t : List (Nat × Nat)) w => t.filter (fun b => b.1 != w.1 / 2 * 2)) g.arch.bound }
        flags := if x.fm.flag < 12 then put g.flags x.fm.flag (g.flag x.fm.flag + 1) else g.flags
        inflight := if x.fm.flag < 12 ∧ r.pend = false then g.inflight ++ [x.fm.flag] else g.inflight
        outctl := g.outctl.step x.mask
        kept := x.keeps r
        cmdWait := g.cmdWait.filter (fun w => !w.1.any x.mask.contains)
        issuedCount := g.issuedCount + 1 } := by
  have key : ∀ (a : GroupArch) (m b : List Nat) (q : Bool), a.sequence m b q =
      { a with lanes := (a.sequence m b q).lanes, slices := (a.sequence m b q).slices, nextPath := (a.sequence m b q).nextPath } :=
    fun a m b q => (a.sequence_same m b q).rest
  have hraise : ∀ (k : Group), k.epoch = none → k.raise x.fm.flag =
      { k with flags := if x.fm.flag < 12 then put k.flags x.fm.flag (k.flag x.fm.flag + 1) else k.flags } := by
    intro k hk
    cases k
    unfold Group.raise
    split <;> simp_all
  have hfold : ∀ (l : List (Nat × Word)) (k : Group), l.foldl x.writeS k = l.foldl (fun h w => h.setSreg w.1 w.2) k := by
    intro l
    induction l with
    | nil => intro k; rfl
    | cons e r ih => intro k; rw [List.foldl_cons, List.foldl_cons, x.writeS_whole hw, ih]
  unfold Group.finish
  simp only [hr, id]
  rw [hfold, Group.setSregs_eq]
  simp only [Group.onLanes, he, Option.map_none, Option.isSome_none, Bool.false_eq_true, if_false]
  rw [key]
  split
  · rename_i hf
    rw [hraise _ rfl]
    cases hp : r.pend <;> simp [hf, Group.flag]
  · rename_i hf
    simp [hf]

/-- The lanes after an instruction whose result changes nothing of the group beyond its lanes and s-registers: those that took
effect changed and moved on, the rest of the convoy moved on, every other lane as it was, but for path numbers (R153). -/
theorem Group.finish_lane (g : Group) (x : Issue) (r : Result) (hr : r.group = id) (i : Nat)
    (hi : i < g.arch.lanes.length) :
    ∃ p, (g.finish x r).lane i =
      { (let l := if x.act.contains i then x.laneAfter r i (g.lane i) else g.lane i
         if x.mask.contains i then x.advance r i l else l) with path := p } := by
  have hraise : ∀ (k : Group) (n : Nat), (k.raise n).arch = k.arch := by
    intro k n; unfold Group.raise; split <;> rfl
  unfold Group.finish
  simp only [hr, id]
  rw [x.writeS_eq]
  have key : ∀ (a : GroupArch) (m b : List Nat) (q : Bool) (l : Lane), a.lanes[i]? = some l →
      ∃ p, ((a.sequence m b q).lanes[i]?).getD {} = { l with path := p } := by
    intro a m b q l hl
    obtain ⟨p, hp⟩ := (a.sequence_same m b q).lane i l hl
    exact ⟨p, by simp [hp]⟩
  split
  · split
    all_goals
      simp only [Group.lane, hraise]
      exact key _ _ _ _ _ (by simp [Group.onLanes, hi])
  · simp only [Group.lane]
    exact key _ _ _ _ _ (by simp [Group.onLanes, hi])

/-- The number of lanes after an instruction. -/
theorem Group.finish_length (g : Group) (x : Issue) (r : Result) (hr : r.group = id) :
    (g.finish x r).arch.lanes.length = g.arch.lanes.length := by
  have hraise : ∀ (k : Group) (n : Nat), (k.raise n).arch = k.arch := by
    intro k n; unfold Group.raise; split <;> rfl
  unfold Group.finish
  simp only [hr, id]
  rw [x.writeS_eq]
  split
  · split
    all_goals simp [hraise, (GroupArch.sequence_same _ _ _ _).len]
  · simp [(GroupArch.sequence_same _ _ _ _).len]

/-! ### Coming to take effect -/

/-- The instruction a convoy issues outside a region, as `prepare` hands it on. -/
def Issue.at (fm : Form) (s : State) (gid : Nat) (mask : List Nat) (g : Group) : Issue :=
  { s := s, gid := gid, g := g, mask := mask, act := mask, rg := none, fm := fm
    pc := (g.lane ((mask.head?).getD 0)).pc
    dist := g.arch.distance + (if fm.short then 1 else max fm.stall 1) }

/-- No register is met unfinished. -/
theorem Issue.shortOf_none (x : Issue) (h : ∀ e ∈ x.g.arch.hazards, e.live x.fm.short x.dist = false) (i : Nat) :
    x.shortOf i = none := by
  simp only [Issue.shortOf, x.hazardsOn_nil h, List.head?_nil, Option.map_none, List.head?_eq_none_iff, List.filterMap_eq_nil_iff,
    List.mem_append, List.mem_map, List.mem_flatMap, id]
  rintro a ((((⟨_, _, rfl⟩ | ⟨_, _, _, _, rfl⟩) | ⟨_, _, rfl⟩) | ⟨_, _, rfl⟩) | ⟨_, _, _, _, rfl⟩) <;> rfl

/-- Outside a region, every register name stands for itself (R8). -/
@[simp] theorem rename_none (l : Lane) (r : Nat) : rename none l r = r := rfl

/-- Outside a region, an instruction that does not end one issues for its whole convoy (R164). -/
theorem applicability_plain (g : Group) (l : Launch) (mask : List Nat) (rule : InRegion)
    (hm : (g.lane ((mask.head?).getD 0)).meld = none) (hr : rule ≠ .mend) : applicability g l mask rule = .lanes mask none := by
  simp [applicability, Group.regionOf, hm, hr]

/-- With no register marked uncorrectable, none is met (R400). -/
@[simp] theorem Issue.struckAt_none (x : Issue) (h : x.g.arch.struck = []) (lane : Nat) (file : RegFile) (reg key : Nat) :
    x.struckAt lane file reg key = none := by
  simp [Issue.struckAt, h]

/-- With no register marked uncorrectable, no lane reads one. -/
theorem Issue.struckOf_none (x : Issue) (h : x.g.arch.struck = []) (i : Nat) : x.struckOf i = none := by
  simp only [Issue.struckOf, Issue.struckV, x.struckAt_none h, List.head?_eq_none_iff, List.filterMap_eq_nil_iff,
    List.mem_append, List.mem_map, List.mem_flatMap, id]
  rintro a ((((⟨_, _, rfl⟩ | ⟨_, _, _, _, rfl⟩) | ⟨_, _, rfl⟩) | ⟨_, _, rfl⟩) | ⟨_, _, _, _, rfl⟩) <;> rfl

/-- When `prepare` lets an instruction take effect: outside a region, every earlier result whole, every register it names
resident, its pairs aligned, nothing to wait for, and its flag below 63. -/
theorem prepare_go (fm : Form) (s : State) (gid : Nat) (mask : List Nat) (g : Group) (hcur : s.cur = .convoy gid mask)
    (hg : look s.groups gid = some g) (hm : (g.lane ((mask.head?).getD 0)).meld = none) (hrule : fm.rule ≠ .mend)
    (whole : ∀ e ∈ g.arch.hazards, e.live fm.short (g.arch.distance + (if fm.short then 1 else max fm.stall 1)) = false)
    (resident : ∀ i ∈ mask, (g.lane i).underflow none (fm.vr ++ fm.vw ++ fm.vx) = none)
    (wide : ∀ w ∈ fm.wide, w.1 % w.2 = 0) (wait : (Issue.at fm s gid mask g).mustWait = false)
    (flag : fm.flag < 12 → g.flag fm.flag ≠ 63) : prepare fm s = .go (Issue.at fm s gid mask g) := by
  have hs : ∀ i, (Issue.at fm s gid mask g).shortOf i = none := (Issue.at fm s gid mask g).shortOf_none whole
  have h1 : (if g.depchk then mask.filter (fun i => ((Issue.at fm s gid mask g).shortOf i).isSome) else []) = [] := by
    simp [hs]
  have h2 : mask.filter (fun i => ((g.lane i).underflow none (fm.vr ++ fm.vw ++ fm.vx)).isSome) = [] := by
    rw [List.filter_eq_nil_iff]
    intro i hi
    rw [resident i hi]
    simp
  have h3 : mask.filter (fun i => !(g.lane i).keepsWide none fm.wide) = [] := by
    rw [List.filter_eq_nil_iff]
    intro i _
    have : (g.lane i).keepsWide none fm.wide = true := by
      simp only [Lane.keepsWide, rename_none, List.all_eq_true]
      exact fun w hw => by simp [wide w hw]
    simp [this]
  have h4 : ¬ (fm.flag < 12 ∧ g.flag fm.flag = 63) := fun h => flag h.1 h.2
  unfold prepare
  simp only [hcur, hg, applicability_plain g _ mask fm.rule hm hrule]
  have e : ({ s := s, gid := gid, g := g, mask := mask, act := mask, rg := none, fm := fm
              pc := (g.lane ((mask.head?).getD 0)).pc
              dist := g.arch.distance + (if fm.short then 1 else max fm.stall 1) } : Issue) = Issue.at fm s gid mask g := rfl
  simp only [e, h1, h2, h3, wait, h4, Bool.false_eq_true, if_false]

/-- With no register marked uncorrectable, an instruction that takes effect does so as it is. -/
theorem Issue.perform_whole (x : Issue) (h : x.g.arch.struck = []) (effect : Issue → State) : x.perform effect = effect x := by
  have : x.struckLanes = [] := by simp [Issue.struckLanes, x.struckOf_none h]
  simp [Issue.perform, this]

/-- When an instruction takes effect: as for `prepare`, and no register uncorrectable. -/
theorem issue_go (fm : Form) (effect : Issue → State) (s : State) (gid : Nat) (mask : List Nat) (g : Group) (hcur : s.cur = .convoy gid mask)
    (hg : look s.groups gid = some g) (hm : (g.lane ((mask.head?).getD 0)).meld = none) (hrule : fm.rule ≠ .mend)
    (whole : ∀ e ∈ g.arch.hazards, e.live fm.short (g.arch.distance + (if fm.short then 1 else max fm.stall 1)) = false)
    (resident : ∀ i ∈ mask, (g.lane i).underflow none (fm.vr ++ fm.vw ++ fm.vx) = none)
    (wide : ∀ w ∈ fm.wide, w.1 % w.2 = 0) (wait : (Issue.at fm s gid mask g).mustWait = false)
    (flag : fm.flag < 12 → g.flag fm.flag ≠ 63) (struck : g.arch.struck = []) :
    issue fm effect s = .next (effect (Issue.at fm s gid mask g)) := by
  simp only [issue, prepare_go fm s gid mask g hcur hg hm hrule whole resident wide wait flag]
  rw [Issue.perform_whole _ struck]

end Sys2Proof.Machine
end

