-- ==== Sys2Proof/Laws/Memory.lean ====
section
/-! SUPPORT. Laws of memory: reading after a write, and the canonical form, which every memory operation keeps. -/

namespace Sys2Proof.Machine

/-- A lower bound that is lower still. -/
theorem cellsFrom_mono (l : List Host.Cell) (lo lo' : Nat) (h : lo' ≤ lo) (hc : cellsFrom (some lo) l = true) :
    cellsFrom (some lo') l = true := by
  cases l with
  | nil => rfl
  | cons e r =>
    obtain ⟨a, b⟩ := e
    simp only [cellsFrom, Bool.and_eq_true, decide_eq_true_eq] at hc ⊢
    exact ⟨⟨by omega, hc.1.2⟩, hc.2⟩

/-- A list in canonical form has it above no bound. -/
theorem cellsFrom_none (l : List Host.Cell) (lo : Nat) (hc : cellsFrom (some lo) l = true) : cellsFrom none l = true := by
  cases l with
  | nil => rfl
  | cons e r =>
    obtain ⟨a, b⟩ := e
    simp only [cellsFrom, Bool.and_eq_true, decide_eq_true_eq] at hc ⊢
    exact ⟨⟨trivial, hc.1.2⟩, hc.2⟩

/-- A list in canonical form above a bound lists nothing at or below it. -/
theorem cellGet_below (l : List Host.Cell) (lo k : Nat) (hc : cellsFrom (some lo) l = true) (hk : k ≤ lo) : cellGet l k = 0 := by
  induction l generalizing lo with
  | nil => rfl
  | cons e r ih =>
    obtain ⟨a, b⟩ := e
    simp only [cellsFrom, Bool.and_eq_true, decide_eq_true_eq] at hc
    have : a ≠ k := by omega
    simp only [cellGet, this, if_false]
    exact ih a hc.2 (by omega)

/-- Storing keeps the canonical form above a bound that the location exceeds. -/
theorem cellsFrom_cellSet (l : List Host.Cell) (lo k : Nat) (v : Byte) (hc : cellsFrom (some lo) l = true) (hk : lo < k) :
    cellsFrom (some lo) (cellSet l k v) = true := by
  induction l generalizing lo with
  | nil =>
    simp only [cellSet]
    split <;> simp_all [cellsFrom]
  | cons e r ih =>
    obtain ⟨a, b⟩ := e
    simp only [cellsFrom, Bool.and_eq_true, decide_eq_true_eq] at hc
    simp only [cellSet]
    split
    · rename_i h
      simp only [cellsFrom, Bool.and_eq_true, decide_eq_true_eq]
      exact ⟨⟨hc.1.1, hc.1.2⟩, ih a hc.2 h⟩
    · split
      · rename_i _ h
        subst h
        split
        · exact cellsFrom_mono r a lo (by omega) hc.2
        · rename_i hv
          simp only [cellsFrom, Bool.and_eq_true, decide_eq_true_eq]
          exact ⟨⟨hc.1.1, hv⟩, hc.2⟩
      · split
        · simp only [cellsFrom, Bool.and_eq_true, decide_eq_true_eq]; exact ⟨⟨hc.1.1, hc.1.2⟩, hc.2⟩
        · rename_i h1 h2 hv
          simp only [cellsFrom, Bool.and_eq_true, decide_eq_true_eq]
          exact ⟨⟨hk, hv⟩, ⟨by omega, hc.1.2⟩, hc.2⟩

/-- Storing keeps the canonical form. -/
theorem cellSet_wf (l : List Host.Cell) (k : Nat) (v : Byte) (hc : cellsFrom none l = true) : cellsFrom none (cellSet l k v) = true := by
  cases l with
  | nil =>
    simp only [cellSet]
    split <;> simp_all [cellsFrom]
  | cons e r =>
    obtain ⟨a, b⟩ := e
    simp only [cellsFrom, Bool.and_eq_true, decide_eq_true_eq] at hc
    simp only [cellSet]
    split
    · rename_i h
      simp only [cellsFrom, Bool.and_eq_true, decide_eq_true_eq]
      exact ⟨⟨trivial, hc.1.2⟩, cellsFrom_cellSet r a k v hc.2 h⟩
    · split
      · rename_i _ h
        subst h
        split
        · exact cellsFrom_none r a hc.2
        · rename_i hv
          simp only [cellsFrom, Bool.and_eq_true, decide_eq_true_eq]
          exact ⟨⟨trivial, hv⟩, hc.2⟩
      · split
        · simp only [cellsFrom, Bool.and_eq_true, decide_eq_true_eq]; exact ⟨⟨trivial, hc.1.2⟩, hc.2⟩
        · rename_i h1 h2 hv
          simp only [cellsFrom, Bool.and_eq_true, decide_eq_true_eq]
          exact ⟨⟨trivial, hv⟩, ⟨by omega, hc.1.2⟩, hc.2⟩

/-- A byte just stored is read back. -/
theorem cellGet_cellSet_same (l : List Host.Cell) (k : Nat) (v : Byte) (hc : cellsFrom none l = true) :
    cellGet (cellSet l k v) k = v := by
  induction l with
  | nil => simp only [cellSet]; split <;> simp_all [cellGet]
  | cons e r ih =>
    obtain ⟨a, b⟩ := e
    simp only [cellsFrom, Bool.and_eq_true, decide_eq_true_eq] at hc
    simp only [cellSet]
    split
    · rename_i h
      simp only [cellGet, Nat.ne_of_lt h, if_false]
      exact ih (cellsFrom_none r a hc.2)
    · split
      · rename_i _ h
        subst h
        split
        · rename_i hv; rw [hv]; exact cellGet_below r a a hc.2 (Nat.le_refl a)
        · simp [cellGet]
      · split
        · rename_i h1 h2 hv
          simp only [cellGet, h2, if_false, hv]
          exact cellGet_below r a k hc.2 (by omega)
        · simp [cellGet]

/-- A byte stored at one location leaves every other location alone. -/
theorem cellGet_cellSet_other (l : List Host.Cell) (k j : Nat) (v : Byte) (hj : j ≠ k) : cellGet (cellSet l k v) j = cellGet l j := by
  induction l with
  | nil => simp only [cellSet]; split <;> simp [cellGet, Ne.symm hj]
  | cons e r ih =>
    obtain ⟨a, b⟩ := e
    simp only [cellSet]
    split
    · simp [cellGet, ih]
    · split
      · rename_i _ h
        subst h
        split <;> simp [cellGet, Ne.symm hj]
      · split <;> simp [cellGet, Ne.symm hj]

/-- Reset memory is in canonical form. -/
@[simp] theorem memory_reset_wf : ({} : Memory).wf = true := rfl

/-- Storing a byte keeps the canonical form. -/
theorem Memory.set_wf (m : Memory) (k : Nat) (v : Byte) (h : m.wf = true) : (m.set k v).wf = true := cellSet_wf m.bytes k v h

/-- A byte just stored is read back. -/
theorem Memory.get_set_same (m : Memory) (k : Nat) (v : Byte) (h : m.wf = true) : (m.set k v).get k = v :=
  cellGet_cellSet_same m.bytes k v h

/-- A byte stored at one location leaves every other location alone. -/
theorem Memory.get_set_other (m : Memory) (k j : Nat) (v : Byte) (h : j ≠ k) : (m.set k v).get j = m.get j :=
  cellGet_cellSet_other m.bytes k j v h

/-- Storing bytes keeps the canonical form. -/
theorem Memory.sets_wf (m : Memory) (k : Nat) (l : List Byte) (h : m.wf = true) : (m.sets k l).wf = true := by
  induction l generalizing m k with
  | nil => exact h
  | cons b r ih => exact ih (m.set k b) (k + 1) (m.set_wf k b h)

/-- Storing cells keeps the canonical form. -/
theorem Memory.setCells_wf (m : Memory) (l : List (Nat × Byte)) (h : m.wf = true) : (m.setCells l).wf = true := by
  induction l generalizing m with
  | nil => exact h
  | cons e r ih => obtain ⟨k, b⟩ := e; exact ih (m.set k b) (m.set_wf k b h)

/-- Storing cells leaves every location none of them names alone. -/
theorem Memory.get_setCells_other (m : Memory) (l : List (Nat × Byte)) (j : Nat) (h : ∀ e ∈ l, e.1 ≠ j) :
    (m.setCells l).get j = m.get j := by
  induction l generalizing m with
  | nil => rfl
  | cons e r ih =>
    obtain ⟨k, b⟩ := e
    have hk : k ≠ j := h (k, b) (by simp)
    simp only [Memory.setCells]
    rw [ih (m.set k b) (fun e he => h e (by simp [he])), m.get_set_other k j b (Ne.symm hk)]

/-- A granule put under another key keeps the canonical form. -/
theorem Memory.rekey_wf (m : Memory) (j g : Nat) (h : m.wf = true) : (m.rekey j g).wf = true := by
  unfold Memory.rekey
  split
  · exact h
  · exact m.sets_wf _ _ h

/-- Granules put under another key keep the canonical form. -/
theorem Memory.rekeys_wf (gs : List Nat) (m : Memory) (j : Nat) (h : m.wf = true) :
    (gs.foldl (fun m g => m.rekey j g) m).wf = true := by
  induction gs generalizing m with
  | nil => exact h
  | cons g r ih => exact ih (m.rekey j g) (m.rekey_wf j g h)

/-- A tag write keeps the canonical form. -/
theorem Memory.setTag_wf (m : Memory) (g : Nat) (t : Bool) (h : m.wf = true) : (m.setTag g t).wf = true := h

/-- A data write keeps the canonical form. -/
theorem Memory.write_wf (m : Memory) (j : Nat) (cells : List (Nat × Byte)) (h : m.wf = true) : (m.write j cells).wf = true :=
  Memory.setCells_wf _ cells (Memory.rekeys_wf _ m j h)

/-- Dropping cells keeps the canonical form. -/
theorem cellsFrom_filter (l : List Host.Cell) (lo : Option Nat) (p : Host.Cell → Bool) (hc : cellsFrom lo l = true) :
    cellsFrom lo (l.filter p) = true := by
  induction l generalizing lo with
  | nil => rfl
  | cons e r ih =>
    obtain ⟨a, b⟩ := e
    simp only [cellsFrom, Bool.and_eq_true] at hc
    obtain ⟨⟨h1, h2⟩, h3⟩ := hc
    by_cases hp : p (a, b) = true
    · simp only [List.filter_cons, hp, if_true, cellsFrom, Bool.and_eq_true]
      exact ⟨⟨h1, h2⟩, ih (some a) h3⟩
    · simp only [List.filter_cons, hp]
      cases lo with
      | none => exact cellsFrom_none _ _ (ih (some a) h3)
      | some x => exact cellsFrom_mono _ a x (Nat.le_of_lt (by simpa using h1)) (ih (some a) h3)

/-- Clearing a range keeps the canonical form. -/
theorem Memory.clear_wf (m : Memory) (loc n : Nat) (h : m.wf = true) : (m.clear loc n).wf = true :=
  cellsFrom_filter m.bytes none _ h

end Sys2Proof.Machine
end

