-- ==== Sys2Proof/Laws/PerInstr.lean ====
section
/-! SUPPORT. What holds of every instruction as syntax, one lemma per constructor: how many bits its encoding has (R208, R211,
R319, R332, R347). -/

namespace Sys2Proof

/-- An instruction takes 16 or 32 bits of lane code, 32 bits of a chain program, 64 of a matrix program or 256 of a collective
program; an event of the machine has no encoding. -/
def Laws.Width.Statement (i : Instr) : Prop :=
  (encode i).1 = 0 ∨ (encode i).1 = 16 ∨ (encode i).1 = 32 ∨ (encode i).1 = 64 ∨ (encode i).1 = 256

theorem Laws.Width.add (d a b : Fin 32) (f : Fin 16) (s : Fin 8) : Laws.Width.Statement (.add d a b f s) := .inr (.inr (.inl rfl))
theorem Laws.Width.sub (d a b : Fin 32) (f : Fin 16) (s : Fin 8) : Laws.Width.Statement (.sub d a b f s) := .inr (.inr (.inl rfl))
theorem Laws.Width.mul (d a b : Fin 32) (f : Fin 16) (s : Fin 8) : Laws.Width.Statement (.mul d a b f s) := .inr (.inr (.inl rfl))
theorem Laws.Width.mulhi (d a b : Fin 32) (f : Fin 16) (s : Fin 8) :
    Laws.Width.Statement (.mulhi d a b f s) := .inr (.inr (.inl rfl))
theorem Laws.Width.mulhiUns (d a b : Fin 32) (f : Fin 16) (s : Fin 8) :
    Laws.Width.Statement (.mulhiUns d a b f s) := .inr (.inr (.inl rfl))
theorem Laws.Width.mad (d a b : Fin 32) (f : Fin 16) (s : Fin 8) : Laws.Width.Statement (.mad d a b f s) := .inr (.inr (.inl rfl))
theorem Laws.Width.and (d a b : Fin 32) (f : Fin 16) (s : Fin 8) : Laws.Width.Statement (.and d a b f s) := .inr (.inr (.inl rfl))
theorem Laws.Width.or (d a b : Fin 32) (f : Fin 16) (s : Fin 8) : Laws.Width.Statement (.or d a b f s) := .inr (.inr (.inl rfl))
theorem Laws.Width.xor (d a b : Fin 32) (f : Fin 16) (s : Fin 8) : Laws.Width.Statement (.xor d a b f s) := .inr (.inr (.inl rfl))
theorem Laws.Width.not (d a : Fin 32) (f : Fin 16) (s : Fin 8) : Laws.Width.Statement (.not d a f s) := .inr (.inr (.inl rfl))
theorem Laws.Width.shl (d a b : Fin 32) (f : Fin 16) (s : Fin 8) : Laws.Width.Statement (.shl d a b f s) := .inr (.inr (.inl rfl))
theorem Laws.Width.shr (d a b : Fin 32) (f : Fin 16) (s : Fin 8) : Laws.Width.Statement (.shr d a b f s) := .inr (.inr (.inl rfl))
theorem Laws.Width.sar (d a b : Fin 32) (f : Fin 16) (s : Fin 8) : Laws.Width.Statement (.sar d a b f s) := .inr (.inr (.inl rfl))
theorem Laws.Width.min (d a b : Fin 32) (f : Fin 16) (s : Fin 8) : Laws.Width.Statement (.min d a b f s) := .inr (.inr (.inl rfl))
theorem Laws.Width.minUns (d a b : Fin 32) (f : Fin 16) (s : Fin 8) :
    Laws.Width.Statement (.minUns d a b f s) := .inr (.inr (.inl rfl))
theorem Laws.Width.max (d a b : Fin 32) (f : Fin 16) (s : Fin 8) : Laws.Width.Statement (.max d a b f s) := .inr (.inr (.inl rfl))
theorem Laws.Width.maxUns (d a b : Fin 32) (f : Fin 16) (s : Fin 8) :
    Laws.Width.Statement (.maxUns d a b f s) := .inr (.inr (.inl rfl))
theorem Laws.Width.abs (d a : Fin 32) (f : Fin 16) (s : Fin 8) : Laws.Width.Statement (.abs d a f s) := .inr (.inr (.inl rfl))
theorem Laws.Width.clz (d a : Fin 32) (f : Fin 16) (s : Fin 8) : Laws.Width.Statement (.clz d a f s) := .inr (.inr (.inl rfl))
theorem Laws.Width.popc (d a : Fin 32) (f : Fin 16) (s : Fin 8) : Laws.Width.Statement (.popc d a f s) := .inr (.inr (.inl rfl))
theorem Laws.Width.brev (d a : Fin 32) (f : Fin 16) (s : Fin 8) : Laws.Width.Statement (.brev d a f s) := .inr (.inr (.inl rfl))
theorem Laws.Width.bfe (d a b : Fin 32) (f : Fin 16) (s : Fin 8) : Laws.Width.Statement (.bfe d a b f s) := .inr (.inr (.inl rfl))
theorem Laws.Width.bfeUns (d a b : Fin 32) (f : Fin 16) (s : Fin 8) :
    Laws.Width.Statement (.bfeUns d a b f s) := .inr (.inr (.inl rfl))
theorem Laws.Width.bfi (d a b : Fin 32) (f : Fin 16) (s : Fin 8) : Laws.Width.Statement (.bfi d a b f s) := .inr (.inr (.inl rfl))
theorem Laws.Width.sel (p : Fin 4) (d a b : Fin 32) (f : Fin 16) (s : Fin 8) :
    Laws.Width.Statement (.sel p d a b f s) := .inr (.inr (.inl rfl))
theorem Laws.Width.cmp (c : Fin 8) (p : Fin 4) (a b : Fin 32) (f : Fin 16) (s : Fin 8) :
    Laws.Width.Statement (.cmp c p a b f s) := .inr (.inr (.inl rfl))
theorem Laws.Width.mov (d a : Fin 32) (f : Fin 16) (s : Fin 8) : Laws.Width.Statement (.mov d a f s) := .inr (.inr (.inl rfl))
theorem Laws.Width.add64 (d a b : Fin 32) (f : Fin 16) (s : Fin 8) :
    Laws.Width.Statement (.add64 d a b f s) := .inr (.inr (.inl rfl))
theorem Laws.Width.sub64 (d a b : Fin 32) (f : Fin 16) (s : Fin 8) :
    Laws.Width.Statement (.sub64 d a b f s) := .inr (.inr (.inl rfl))
theorem Laws.Width.mad64 (d a b : Fin 32) (f : Fin 16) (s : Fin 8) :
    Laws.Width.Statement (.mad64 d a b f s) := .inr (.inr (.inl rfl))
theorem Laws.Width.fadd (d a b : Fin 32) (f : Fin 16) (s : Fin 8) :
    Laws.Width.Statement (.fadd d a b f s) := .inr (.inr (.inl rfl))
theorem Laws.Width.fsub (d a b : Fin 32) (f : Fin 16) (s : Fin 8) :
    Laws.Width.Statement (.fsub d a b f s) := .inr (.inr (.inl rfl))
theorem Laws.Width.fmul (d a b : Fin 32) (f : Fin 16) (s : Fin 8) :
    Laws.Width.Statement (.fmul d a b f s) := .inr (.inr (.inl rfl))
theorem Laws.Width.ffma (d a b : Fin 32) (f : Fin 16) (s : Fin 8) :
    Laws.Width.Statement (.ffma d a b f s) := .inr (.inr (.inl rfl))
theorem Laws.Width.fmin (d a b : Fin 32) (f : Fin 16) (s : Fin 8) :
    Laws.Width.Statement (.fmin d a b f s) := .inr (.inr (.inl rfl))
theorem Laws.Width.fmax (d a b : Fin 32) (f : Fin 16) (s : Fin 8) :
    Laws.Width.Statement (.fmax d a b f s) := .inr (.inr (.inl rfl))
theorem Laws.Width.fcmp (c : Fin 8) (p : Fin 4) (a b : Fin 32) (f : Fin 16) (s : Fin 8) :
    Laws.Width.Statement (.fcmp c p a b f s) := .inr (.inr (.inl rfl))
theorem Laws.Width.frcp (d a : Fin 32) (f : Fin 16) (s : Fin 8) : Laws.Width.Statement (.frcp d a f s) := .inr (.inr (.inl rfl))
theorem Laws.Width.frsq (d a : Fin 32) (f : Fin 16) (s : Fin 8) : Laws.Width.Statement (.frsq d a f s) := .inr (.inr (.inl rfl))
theorem Laws.Width.fsqrt (d a : Fin 32) (f : Fin 16) (s : Fin 8) : Laws.Width.Statement (.fsqrt d a f s) := .inr (.inr (.inl rfl))
theorem Laws.Width.fex2 (d a : Fin 32) (f : Fin 16) (s : Fin 8) : Laws.Width.Statement (.fex2 d a f s) := .inr (.inr (.inl rfl))
theorem Laws.Width.flg2 (d a : Fin 32) (f : Fin 16) (s : Fin 8) : Laws.Width.Statement (.flg2 d a f s) := .inr (.inr (.inl rfl))
theorem Laws.Width.fsin (d a : Fin 32) (f : Fin 16) (s : Fin 8) : Laws.Width.Statement (.fsin d a f s) := .inr (.inr (.inl rfl))
theorem Laws.Width.fcos (d a : Fin 32) (f : Fin 16) (s : Fin 8) : Laws.Width.Statement (.fcos d a f s) := .inr (.inr (.inl rfl))
theorem Laws.Width.hadd2F16 (d a b : Fin 32) (f : Fin 16) (s : Fin 8) :
    Laws.Width.Statement (.hadd2F16 d a b f s) := .inr (.inr (.inl rfl))
theorem Laws.Width.hadd2Bf16 (d a b : Fin 32) (f : Fin 16) (s : Fin 8) :
    Laws.Width.Statement (.hadd2Bf16 d a b f s) := .inr (.inr (.inl rfl))
theorem Laws.Width.hmul2F16 (d a b : Fin 32) (f : Fin 16) (s : Fin 8) :
    Laws.Width.Statement (.hmul2F16 d a b f s) := .inr (.inr (.inl rfl))
theorem Laws.Width.hmul2Bf16 (d a b : Fin 32) (f : Fin 16) (s : Fin 8) :
    Laws.Width.Statement (.hmul2Bf16 d a b f s) := .inr (.inr (.inl rfl))
theorem Laws.Width.hfma2F16 (d a b : Fin 32) (f : Fin 16) (s : Fin 8) :
    Laws.Width.Statement (.hfma2F16 d a b f s) := .inr (.inr (.inl rfl))
theorem Laws.Width.hfma2Bf16 (d a b : Fin 32) (f : Fin 16) (s : Fin 8) :
    Laws.Width.Statement (.hfma2Bf16 d a b f s) := .inr (.inr (.inl rfl))
theorem Laws.Width.dot4S8 (d a b : Fin 32) (f : Fin 16) (s : Fin 8) :
    Laws.Width.Statement (.dot4S8 d a b f s) := .inr (.inr (.inl rfl))
theorem Laws.Width.dot4E4m3 (d a b : Fin 32) (f : Fin 16) (s : Fin 8) :
    Laws.Width.Statement (.dot4E4m3 d a b f s) := .inr (.inr (.inl rfl))
theorem Laws.Width.dot4E5m2 (d a b : Fin 32) (f : Fin 16) (s : Fin 8) :
    Laws.Width.Statement (.dot4E5m2 d a b f s) := .inr (.inr (.inl rfl))
theorem Laws.Width.dot8S4 (d a b : Fin 32) (f : Fin 16) (s : Fin 8) :
    Laws.Width.Statement (.dot8S4 d a b f s) := .inr (.inr (.inl rfl))
theorem Laws.Width.dot8E2m1 (d a b : Fin 32) (f : Fin 16) (s : Fin 8) :
    Laws.Width.Statement (.dot8E2m1 d a b f s) := .inr (.inr (.inl rfl))
theorem Laws.Width.cvt (c d a : Fin 32) (f : Fin 16) (s : Fin 8) : Laws.Width.Statement (.cvt c d a f s) := .inr (.inr (.inl rfl))
theorem Laws.Width.cvtsr (c d a : Fin 32) (f : Fin 16) (s : Fin 8) :
    Laws.Width.Statement (.cvtsr c d a f s) := .inr (.inr (.inl rfl))
theorem Laws.Width.pack (d a b : Fin 32) (f : Fin 16) (s : Fin 8) :
    Laws.Width.Statement (.pack d a b f s) := .inr (.inr (.inl rfl))
theorem Laws.Width.unpk (e d a : Fin 32) (f : Fin 16) (s : Fin 8) :
    Laws.Width.Statement (.unpk e d a f s) := .inr (.inr (.inl rfl))
theorem Laws.Width.addU (d a : Fin 32) (b : Fin 256) (s : Fin 8) : Laws.Width.Statement (.addU d a b s) := .inr (.inr (.inl rfl))
theorem Laws.Width.subU (d a : Fin 32) (b : Fin 256) (s : Fin 8) : Laws.Width.Statement (.subU d a b s) := .inr (.inr (.inl rfl))
theorem Laws.Width.mulU (d a : Fin 32) (b : Fin 256) (s : Fin 8) : Laws.Width.Statement (.mulU d a b s) := .inr (.inr (.inl rfl))
theorem Laws.Width.mulhiU (d a : Fin 32) (b : Fin 256) (s : Fin 8) :
    Laws.Width.Statement (.mulhiU d a b s) := .inr (.inr (.inl rfl))
theorem Laws.Width.mulhiUnsU (d a : Fin 32) (b : Fin 256) (s : Fin 8) :
    Laws.Width.Statement (.mulhiUnsU d a b s) := .inr (.inr (.inl rfl))
theorem Laws.Width.madU (d a : Fin 32) (b : Fin 256) (s : Fin 8) : Laws.Width.Statement (.madU d a b s) := .inr (.inr (.inl rfl))
theorem Laws.Width.andU (d a : Fin 32) (b : Fin 256) (s : Fin 8) : Laws.Width.Statement (.andU d a b s) := .inr (.inr (.inl rfl))
theorem Laws.Width.orU (d a : Fin 32) (b : Fin 256) (s : Fin 8) : Laws.Width.Statement (.orU d a b s) := .inr (.inr (.inl rfl))
theorem Laws.Width.xorU (d a : Fin 32) (b : Fin 256) (s : Fin 8) : Laws.Width.Statement (.xorU d a b s) := .inr (.inr (.inl rfl))
theorem Laws.Width.notU (d : Fin 32) (b : Fin 256) (s : Fin 8) : Laws.Width.Statement (.notU d b s) := .inr (.inr (.inl rfl))
theorem Laws.Width.shlU (d a : Fin 32) (b : Fin 256) (s : Fin 8) : Laws.Width.Statement (.shlU d a b s) := .inr (.inr (.inl rfl))
theorem Laws.Width.shrU (d a : Fin 32) (b : Fin 256) (s : Fin 8) : Laws.Width.Statement (.shrU d a b s) := .inr (.inr (.inl rfl))
theorem Laws.Width.sarU (d a : Fin 32) (b : Fin 256) (s : Fin 8) : Laws.Width.Statement (.sarU d a b s) := .inr (.inr (.inl rfl))
theorem Laws.Width.minU (d a : Fin 32) (b : Fin 256) (s : Fin 8) : Laws.Width.Statement (.minU d a b s) := .inr (.inr (.inl rfl))
theorem Laws.Width.minUnsU (d a : Fin 32) (b : Fin 256) (s : Fin 8) :
    Laws.Width.Statement (.minUnsU d a b s) := .inr (.inr (.inl rfl))
theorem Laws.Width.maxU (d a : Fin 32) (b : Fin 256) (s : Fin 8) : Laws.Width.Statement (.maxU d a b s) := .inr (.inr (.inl rfl))
theorem Laws.Width.maxUnsU (d a : Fin 32) (b : Fin 256) (s : Fin 8) :
    Laws.Width.Statement (.maxUnsU d a b s) := .inr (.inr (.inl rfl))
theorem Laws.Width.absU (d : Fin 32) (b : Fin 256) (s : Fin 8) : Laws.Width.Statement (.absU d b s) := .inr (.inr (.inl rfl))
theorem Laws.Width.clzU (d : Fin 32) (b : Fin 256) (s : Fin 8) : Laws.Width.Statement (.clzU d b s) := .inr (.inr (.inl rfl))
theorem Laws.Width.popcU (d : Fin 32) (b : Fin 256) (s : Fin 8) : Laws.Width.Statement (.popcU d b s) := .inr (.inr (.inl rfl))
theorem Laws.Width.brevU (d : Fin 32) (b : Fin 256) (s : Fin 8) : Laws.Width.Statement (.brevU d b s) := .inr (.inr (.inl rfl))
theorem Laws.Width.bfeU (d a : Fin 32) (b : Fin 256) (s : Fin 8) : Laws.Width.Statement (.bfeU d a b s) := .inr (.inr (.inl rfl))
theorem Laws.Width.bfeUnsU (d a : Fin 32) (b : Fin 256) (s : Fin 8) :
    Laws.Width.Statement (.bfeUnsU d a b s) := .inr (.inr (.inl rfl))
theorem Laws.Width.bfiU (d a : Fin 32) (b : Fin 256) (s : Fin 8) : Laws.Width.Statement (.bfiU d a b s) := .inr (.inr (.inl rfl))
theorem Laws.Width.selU (p : Fin 4) (d a : Fin 32) (b : Fin 256) (s : Fin 8) :
    Laws.Width.Statement (.selU p d a b s) := .inr (.inr (.inl rfl))
theorem Laws.Width.cmpU (c : Fin 8) (p : Fin 4) (a : Fin 32) (b : Fin 256) (s : Fin 8) :
    Laws.Width.Statement (.cmpU c p a b s) := .inr (.inr (.inl rfl))
theorem Laws.Width.movU (d : Fin 32) (b : Fin 256) (s : Fin 8) : Laws.Width.Statement (.movU d b s) := .inr (.inr (.inl rfl))
theorem Laws.Width.add64U (d a : Fin 32) (b : Fin 256) (s : Fin 8) :
    Laws.Width.Statement (.add64U d a b s) := .inr (.inr (.inl rfl))
theorem Laws.Width.sub64U (d a : Fin 32) (b : Fin 256) (s : Fin 8) :
    Laws.Width.Statement (.sub64U d a b s) := .inr (.inr (.inl rfl))
theorem Laws.Width.mad64U (d a : Fin 32) (b : Fin 256) (s : Fin 8) :
    Laws.Width.Statement (.mad64U d a b s) := .inr (.inr (.inl rfl))
theorem Laws.Width.faddU (d a : Fin 32) (b : Fin 256) (s : Fin 8) :
    Laws.Width.Statement (.faddU d a b s) := .inr (.inr (.inl rfl))
theorem Laws.Width.fsubU (d a : Fin 32) (b : Fin 256) (s : Fin 8) :
    Laws.Width.Statement (.fsubU d a b s) := .inr (.inr (.inl rfl))
theorem Laws.Width.fmulU (d a : Fin 32) (b : Fin 256) (s : Fin 8) :
    Laws.Width.Statement (.fmulU d a b s) := .inr (.inr (.inl rfl))
theorem Laws.Width.ffmaU (d a : Fin 32) (b : Fin 256) (s : Fin 8) :
    Laws.Width.Statement (.ffmaU d a b s) := .inr (.inr (.inl rfl))
theorem Laws.Width.fminU (d a : Fin 32) (b : Fin 256) (s : Fin 8) :
    Laws.Width.Statement (.fminU d a b s) := .inr (.inr (.inl rfl))
theorem Laws.Width.fmaxU (d a : Fin 32) (b : Fin 256) (s : Fin 8) :
    Laws.Width.Statement (.fmaxU d a b s) := .inr (.inr (.inl rfl))
theorem Laws.Width.fcmpU (c : Fin 8) (p : Fin 4) (a : Fin 32) (b : Fin 256) (s : Fin 8) :
    Laws.Width.Statement (.fcmpU c p a b s) := .inr (.inr (.inl rfl))
theorem Laws.Width.hadd2F16U (d a : Fin 32) (b : Fin 256) (s : Fin 8) :
    Laws.Width.Statement (.hadd2F16U d a b s) := .inr (.inr (.inl rfl))
theorem Laws.Width.hadd2Bf16U (d a : Fin 32) (b : Fin 256) (s : Fin 8) :
    Laws.Width.Statement (.hadd2Bf16U d a b s) := .inr (.inr (.inl rfl))
theorem Laws.Width.hmul2F16U (d a : Fin 32) (b : Fin 256) (s : Fin 8) :
    Laws.Width.Statement (.hmul2F16U d a b s) := .inr (.inr (.inl rfl))
theorem Laws.Width.hmul2Bf16U (d a : Fin 32) (b : Fin 256) (s : Fin 8) :
    Laws.Width.Statement (.hmul2Bf16U d a b s) := .inr (.inr (.inl rfl))
theorem Laws.Width.hfma2F16U (d a : Fin 32) (b : Fin 256) (s : Fin 8) :
    Laws.Width.Statement (.hfma2F16U d a b s) := .inr (.inr (.inl rfl))
theorem Laws.Width.hfma2Bf16U (d a : Fin 32) (b : Fin 256) (s : Fin 8) :
    Laws.Width.Statement (.hfma2Bf16U d a b s) := .inr (.inr (.inl rfl))
theorem Laws.Width.dot4S8U (d a : Fin 32) (b : Fin 256) (s : Fin 8) :
    Laws.Width.Statement (.dot4S8U d a b s) := .inr (.inr (.inl rfl))
theorem Laws.Width.dot4E4m3U (d a : Fin 32) (b : Fin 256) (s : Fin 8) :
    Laws.Width.Statement (.dot4E4m3U d a b s) := .inr (.inr (.inl rfl))
theorem Laws.Width.dot4E5m2U (d a : Fin 32) (b : Fin 256) (s : Fin 8) :
    Laws.Width.Statement (.dot4E5m2U d a b s) := .inr (.inr (.inl rfl))
theorem Laws.Width.dot8S4U (d a : Fin 32) (b : Fin 256) (s : Fin 8) :
    Laws.Width.Statement (.dot8S4U d a b s) := .inr (.inr (.inl rfl))
theorem Laws.Width.dot8E2m1U (d a : Fin 32) (b : Fin 256) (s : Fin 8) :
    Laws.Width.Statement (.dot8E2m1U d a b s) := .inr (.inr (.inl rfl))
theorem Laws.Width.packU (d a : Fin 32) (b : Fin 256) (s : Fin 8) :
    Laws.Width.Statement (.packU d a b s) := .inr (.inr (.inl rfl))
theorem Laws.Width.addI (d : Fin 32) (i : BitVec 16) (s : Fin 8) : Laws.Width.Statement (.addI d i s) := .inr (.inr (.inl rfl))
theorem Laws.Width.mulI (d : Fin 32) (i : BitVec 16) (s : Fin 8) : Laws.Width.Statement (.mulI d i s) := .inr (.inr (.inl rfl))
theorem Laws.Width.andI (d : Fin 32) (i : BitVec 16) (s : Fin 8) : Laws.Width.Statement (.andI d i s) := .inr (.inr (.inl rfl))
theorem Laws.Width.orI (d : Fin 32) (i : BitVec 16) (s : Fin 8) : Laws.Width.Statement (.orI d i s) := .inr (.inr (.inl rfl))
theorem Laws.Width.xorI (d : Fin 32) (i : BitVec 16) (s : Fin 8) : Laws.Width.Statement (.xorI d i s) := .inr (.inr (.inl rfl))
theorem Laws.Width.shlI (d i : Fin 32) (s : Fin 8) : Laws.Width.Statement (.shlI d i s) := .inr (.inr (.inl rfl))
theorem Laws.Width.shrI (d i : Fin 32) (s : Fin 8) : Laws.Width.Statement (.shrI d i s) := .inr (.inr (.inl rfl))
theorem Laws.Width.sarI (d i : Fin 32) (s : Fin 8) : Laws.Width.Statement (.sarI d i s) := .inr (.inr (.inl rfl))
theorem Laws.Width.movI (d : Fin 32) (i : BitVec 16) (s : Fin 8) : Laws.Width.Statement (.movI d i s) := .inr (.inr (.inl rfl))
theorem Laws.Width.movHi (d : Fin 32) (i : BitVec 16) (s : Fin 8) : Laws.Width.Statement (.movHi d i s) := .inr (.inr (.inl rfl))
theorem Laws.Width.faddI (d : Fin 32) (i : BitVec 16) (s : Fin 8) : Laws.Width.Statement (.faddI d i s) := .inr (.inr (.inl rfl))
theorem Laws.Width.fmulI (d : Fin 32) (i : BitVec 16) (s : Fin 8) : Laws.Width.Statement (.fmulI d i s) := .inr (.inr (.inl rfl))
theorem Laws.Width.movF32 (d : Fin 32) (i : BitVec 16) (s : Fin 8) :
    Laws.Width.Statement (.movF32 d i s) := .inr (.inr (.inl rfl))
theorem Laws.Width.hadd2F16I (d : Fin 32) (i : BitVec 16) (s : Fin 8) :
    Laws.Width.Statement (.hadd2F16I d i s) := .inr (.inr (.inl rfl))
theorem Laws.Width.hmul2F16I (d : Fin 32) (i : BitVec 16) (s : Fin 8) :
    Laws.Width.Statement (.hmul2F16I d i s) := .inr (.inr (.inl rfl))
theorem Laws.Width.movE4m3x2 (d : Fin 32) (i : BitVec 16) (s : Fin 8) :
    Laws.Width.Statement (.movE4m3x2 d i s) := .inr (.inr (.inl rfl))
theorem Laws.Width.addA16 (d r : Fin 32) : Laws.Width.Statement (.addA16 d r) := .inr (.inl rfl)
theorem Laws.Width.subA16 (d r : Fin 32) : Laws.Width.Statement (.subA16 d r) := .inr (.inl rfl)
theorem Laws.Width.mulA16 (d r : Fin 32) : Laws.Width.Statement (.mulA16 d r) := .inr (.inl rfl)
theorem Laws.Width.andA16 (d r : Fin 32) : Laws.Width.Statement (.andA16 d r) := .inr (.inl rfl)
theorem Laws.Width.orA16 (d r : Fin 32) : Laws.Width.Statement (.orA16 d r) := .inr (.inl rfl)
theorem Laws.Width.xorA16 (d r : Fin 32) : Laws.Width.Statement (.xorA16 d r) := .inr (.inl rfl)
theorem Laws.Width.shlA16 (d r : Fin 32) : Laws.Width.Statement (.shlA16 d r) := .inr (.inl rfl)
theorem Laws.Width.shrA16 (d r : Fin 32) : Laws.Width.Statement (.shrA16 d r) := .inr (.inl rfl)
theorem Laws.Width.minA16 (d r : Fin 32) : Laws.Width.Statement (.minA16 d r) := .inr (.inl rfl)
theorem Laws.Width.maxA16 (d r : Fin 32) : Laws.Width.Statement (.maxA16 d r) := .inr (.inl rfl)
theorem Laws.Width.movA16 (d r : Fin 32) : Laws.Width.Statement (.movA16 d r) := .inr (.inl rfl)
theorem Laws.Width.faddA16 (d r : Fin 32) : Laws.Width.Statement (.faddA16 d r) := .inr (.inl rfl)
theorem Laws.Width.fmulA16 (d r : Fin 32) : Laws.Width.Statement (.fmulA16 d r) := .inr (.inl rfl)
theorem Laws.Width.fminA16 (d r : Fin 32) : Laws.Width.Statement (.fminA16 d r) := .inr (.inl rfl)
theorem Laws.Width.fmaxA16 (d r : Fin 32) : Laws.Width.Statement (.fmaxA16 d r) := .inr (.inl rfl)
theorem Laws.Width.ffmaA16 (d r : Fin 32) : Laws.Width.Statement (.ffmaA16 d r) := .inr (.inl rfl)
theorem Laws.Width.waitf (m : BitVec 12) : Laws.Width.Statement (.waitf m) := .inr (.inl rfl)
theorem Laws.Width.nop : Laws.Width.Statement (.nop) := .inr (.inl rfl)
theorem Laws.Width.yield : Laws.Width.Statement (.yield) := .inr (.inl rfl)
theorem Laws.Width.ret8 : Laws.Width.Statement (.ret8) := .inr (.inl rfl)
theorem Laws.Width.ret16 : Laws.Width.Statement (.ret16) := .inr (.inl rfl)
theorem Laws.Width.mend : Laws.Width.Statement (.mend) := .inr (.inl rfl)
theorem Laws.Width.exit : Laws.Width.Statement (.exit) := .inr (.inl rfl)
theorem Laws.Width.fence : Laws.Width.Statement (.fence) := .inr (.inl rfl)
theorem Laws.Width.stall (n : Fin 256) : Laws.Width.Statement (.stall n) := .inr (.inl rfl)
theorem Laws.Width.ld (d : Fin 32) (c : Fin 16) (i : Fin 32) (z : Fin 8) (f : Fin 16) (s : Fin 8) :
    Laws.Width.Statement (.ld d c i z f s) := .inr (.inr (.inl rfl))
theorem Laws.Width.ldS (d : Fin 32) (c : Fin 16) (i : Fin 32) (z : Fin 8) (f : Fin 16) (s : Fin 8) :
    Laws.Width.Statement (.ldS d c i z f s) := .inr (.inr (.inl rfl))
theorem Laws.Width.st (d : Fin 32) (c : Fin 16) (i : Fin 32) (z : Fin 8) (f : Fin 16) (s : Fin 8) :
    Laws.Width.Statement (.st d c i z f s) := .inr (.inr (.inl rfl))
theorem Laws.Width.lds (d i : Fin 32) (z : Fin 8) (f : Fin 16) (s : Fin 8) :
    Laws.Width.Statement (.lds d i z f s) := .inr (.inr (.inl rfl))
theorem Laws.Width.ldsS (d i : Fin 32) (z : Fin 8) (f : Fin 16) (s : Fin 8) :
    Laws.Width.Statement (.ldsS d i z f s) := .inr (.inr (.inl rfl))
theorem Laws.Width.sts (d i : Fin 32) (z : Fin 8) (f : Fin 16) (s : Fin 8) :
    Laws.Width.Statement (.sts d i z f s) := .inr (.inr (.inl rfl))
theorem Laws.Width.ldmx (d : Fin 32) (c : Fin 16) (i : Fin 32) (z : Fin 8) (f : Fin 16) (s : Fin 8) :
    Laws.Width.Statement (.ldmx d c i z f s) := .inr (.inr (.inl rfl))
theorem Laws.Width.stmx (d : Fin 32) (c : Fin 16) (i : Fin 32) (z : Fin 8) (f : Fin 16) (s : Fin 8) :
    Laws.Width.Statement (.stmx d c i z f s) := .inr (.inr (.inl rfl))
theorem Laws.Width.pref (c : Fin 16) (i : Fin 32) (z s : Fin 8) : Laws.Width.Statement (.pref c i z s) := .inr (.inr (.inl rfl))
theorem Laws.Width.cload (d c : Fin 16) (i : Fin 32) (f : Fin 16) (s : Fin 8) :
    Laws.Width.Statement (.cload d c i f s) := .inr (.inr (.inl rfl))
theorem Laws.Width.cstore (d c : Fin 16) (i : Fin 32) (f : Fin 16) (s : Fin 8) :
    Laws.Width.Statement (.cstore d c i f s) := .inr (.inr (.inl rfl))
theorem Laws.Width.cnarrow (d c : Fin 16) (i : Fin 32) (s : Fin 8) :
    Laws.Width.Statement (.cnarrow d c i s) := .inr (.inr (.inl rfl))
theorem Laws.Width.crestr (d c : Fin 16) (i : Fin 32) (s : Fin 8) :
    Laws.Width.Statement (.crestr d c i s) := .inr (.inr (.inl rfl))
theorem Laws.Width.cget (d : Fin 32) (c : Fin 16) (z s : Fin 8) : Laws.Width.Statement (.cget d c z s) := .inr (.inr (.inl rfl))
theorem Laws.Width.cseal (d c a : Fin 16) (s : Fin 8) : Laws.Width.Statement (.cseal d c a s) := .inr (.inr (.inl rfl))
theorem Laws.Width.csealUn (d c a : Fin 16) (s : Fin 8) : Laws.Width.Statement (.csealUn d c a s) := .inr (.inr (.inl rfl))
theorem Laws.Width.ctestTag (p : Fin 4) (c : Fin 16) (s : Fin 8) :
    Laws.Width.Statement (.ctestTag p c s) := .inr (.inr (.inl rfl))
theorem Laws.Width.ctestUnsealed (p : Fin 4) (c : Fin 16) (s : Fin 8) :
    Laws.Width.Statement (.ctestUnsealed p c s) := .inr (.inr (.inl rfl))
theorem Laws.Width.ctestSub (p : Fin 4) (c k : Fin 16) (s : Fin 8) :
    Laws.Width.Statement (.ctestSub p c k s) := .inr (.inr (.inl rfl))
theorem Laws.Width.ctestIn (p : Fin 4) (c : Fin 16) (i : Fin 32) (z s : Fin 8) :
    Laws.Width.Statement (.ctestIn p c i z s) := .inr (.inr (.inl rfl))
theorem Laws.Width.bra (p : Fin 4) (o : BitVec 19) (s : Fin 8) : Laws.Width.Statement (.bra p o s) := .inr (.inr (.inl rfl))
theorem Laws.Width.braN (p : Fin 4) (o : BitVec 19) (s : Fin 8) : Laws.Width.Statement (.braN p o s) := .inr (.inr (.inl rfl))
theorem Laws.Width.brl (p : Fin 4) (o : BitVec 19) (s : Fin 8) : Laws.Width.Statement (.brl p o s) := .inr (.inr (.inl rfl))
theorem Laws.Width.call8 (o : BitVec 19) (s : Fin 8) : Laws.Width.Statement (.call8 o s) := .inr (.inr (.inl rfl))
theorem Laws.Width.call16 (o : BitVec 19) (s : Fin 8) : Laws.Width.Statement (.call16 o s) := .inr (.inr (.inl rfl))
theorem Laws.Width.jmp (r : Fin 32) (s : Fin 8) : Laws.Width.Statement (.jmp r s) := .inr (.inr (.inl rfl))
theorem Laws.Width.meld (p : Fin 4) (t : Fin 64) (s : Fin 8) : Laws.Width.Statement (.meld p t s) := .inr (.inr (.inl rfl))
theorem Laws.Width.shflIdx (d a b : Fin 32) (z : Bool) (f : Fin 16) (s : Fin 8) :
    Laws.Width.Statement (.shflIdx d a b z f s) := .inr (.inr (.inl rfl))
theorem Laws.Width.shflUp (d a b : Fin 32) (z : Bool) (f : Fin 16) (s : Fin 8) :
    Laws.Width.Statement (.shflUp d a b z f s) := .inr (.inr (.inl rfl))
theorem Laws.Width.shflDown (d a b : Fin 32) (z : Bool) (f : Fin 16) (s : Fin 8) :
    Laws.Width.Statement (.shflDown d a b z f s) := .inr (.inr (.inl rfl))
theorem Laws.Width.shflXor (d a b : Fin 32) (z : Bool) (f : Fin 16) (s : Fin 8) :
    Laws.Width.Statement (.shflXor d a b z f s) := .inr (.inr (.inl rfl))
theorem Laws.Width.voteAll (p q : Fin 4) (f : Fin 16) (s : Fin 8) :
    Laws.Width.Statement (.voteAll p q f s) := .inr (.inr (.inl rfl))
theorem Laws.Width.voteAny (p q : Fin 4) (f : Fin 16) (s : Fin 8) :
    Laws.Width.Statement (.voteAny p q f s) := .inr (.inr (.inl rfl))
theorem Laws.Width.voteBallot (d : Fin 32) (q : Fin 4) (f : Fin 16) (s : Fin 8) :
    Laws.Width.Statement (.voteBallot d q f s) := .inr (.inr (.inl rfl))
theorem Laws.Width.redux (o d a : Fin 32) (f : Fin 16) (s : Fin 8) :
    Laws.Width.Statement (.redux o d a f s) := .inr (.inr (.inl rfl))
theorem Laws.Width.matchAny (d a : Fin 32) (f : Fin 16) (s : Fin 8) :
    Laws.Width.Statement (.matchAny d a f s) := .inr (.inr (.inl rfl))
theorem Laws.Width.matchAll (p : Fin 4) (a : Fin 32) (f : Fin 16) (s : Fin 8) :
    Laws.Width.Statement (.matchAll p a f s) := .inr (.inr (.inl rfl))
theorem Laws.Width.fork (x : Fin 64) (q s : Fin 8) : Laws.Width.Statement (.fork x q s) := .inr (.inr (.inl rfl))
theorem Laws.Width.copy (x : Fin 64) (a b f : Fin 16) (s : Fin 8) :
    Laws.Width.Statement (.copy x a b f s) := .inr (.inr (.inl rfl))
theorem Laws.Width.copyq (x : Fin 64) (s : Fin 8) : Laws.Width.Statement (.copyq x s) := .inr (.inr (.inl rfl))
theorem Laws.Width.chain (x : Fin 64) (a b f : Fin 16) (s : Fin 8) :
    Laws.Width.Statement (.chain x a b f s) := .inr (.inr (.inl rfl))
theorem Laws.Width.coll (x : Fin 64) (a f : Fin 16) (s : Fin 8) : Laws.Width.Statement (.coll x a f s) := .inr (.inr (.inl rfl))
theorem Laws.Width.post (x : Fin 64) (f : Fin 16) (s : Fin 8) : Laws.Width.Statement (.post x f s) := .inr (.inr (.inl rfl))
theorem Laws.Width.ecancel (x : Fin 64) (s : Fin 8) : Laws.Width.Statement (.ecancel x s) := .inr (.inr (.inl rfl))
theorem Laws.Width.estat (x : Fin 64) (s : Fin 8) : Laws.Width.Statement (.estat x s) := .inr (.inr (.inl rfl))
theorem Laws.Width.sleept (t : Fin 256) (s : Fin 8) : Laws.Width.Statement (.sleept t s) := .inr (.inr (.inl rfl))
theorem Laws.Width.waitc (n : Fin 4) (k : Fin 16) (a d : Fin 32) (s : Fin 8) :
    Laws.Width.Statement (.waitc n k a d s) := .inr (.inr (.inl rfl))
theorem Laws.Width.bar (b : Fin 16) (m : BitVec 4) (s : Fin 8) : Laws.Width.Statement (.bar b m s) := .inr (.inr (.inl rfl))
theorem Laws.Width.arrive (b : Fin 16) (m : BitVec 4) (s : Fin 8) : Laws.Width.Statement (.arrive b m s) := .inr (.inr (.inl rfl))
theorem Laws.Width.await (b : Fin 16) (m : BitVec 4) (s : Fin 8) : Laws.Width.Statement (.await b m s) := .inr (.inr (.inl rfl))
theorem Laws.Width.rvz (q s : Fin 8) : Laws.Width.Statement (.rvz q s) := .inr (.inr (.inl rfl))
theorem Laws.Width.dqpush (a : Fin 32) (m : BitVec 4) (s : Fin 8) : Laws.Width.Statement (.dqpush a m s) := .inr (.inr (.inl rfl))
theorem Laws.Width.dqpop (t : Fin 256) (s : Fin 8) : Laws.Width.Statement (.dqpop t s) := .inr (.inr (.inl rfl))
theorem Laws.Width.csrr (c : Fin 64) (d : Fin 32) (s : Fin 8) : Laws.Width.Statement (.csrr c d s) := .inr (.inr (.inl rfl))
theorem Laws.Width.csrw (c : Fin 64) (a : Fin 32) (s : Fin 8) : Laws.Width.Statement (.csrw c a s) := .inr (.inr (.inl rfl))
theorem Laws.Width.trap (c : Fin 64) (s : Fin 8) : Laws.Width.Statement (.trap c s) := .inr (.inr (.inl rfl))
theorem Laws.Width.tret : Laws.Width.Statement (.tret) := .inr (.inr (.inl rfl))
theorem Laws.Width.spill (n : Fin 256) (c f : Fin 16) (s : Fin 8) :
    Laws.Width.Statement (.spill n c f s) := .inr (.inr (.inl rfl))
theorem Laws.Width.fill (n : Fin 256) (c f : Fin 16) (s : Fin 8) : Laws.Width.Statement (.fill n c f s) := .inr (.inr (.inl rfl))
theorem Laws.Width.redx (y : Fin 4) (t : Fin 16) (a : Fin 32) (r : Fin 8) (f : Fin 16) (s : Fin 8) :
    Laws.Width.Statement (.redx y t a r f s) := .inr (.inr (.inl rfl))
theorem Laws.Width.movS (t : Fin 256) (a : Fin 32) (s : Fin 8) : Laws.Width.Statement (.movS t a s) := .inr (.inr (.inl rfl))
theorem Laws.Width.atom (o : Fin 16) (z : Bool) (c : Fin 16) (a d : Fin 32) (f : Fin 16) (s : Fin 8) :
    Laws.Width.Statement (.atom o z c a d f s) := .inr (.inr (.inl rfl))
theorem Laws.Width.atomm (o : Fin 16) (z : Bool) (c : Fin 16) (a d : Fin 32) (f : Fin 16) (s : Fin 8) :
    Laws.Width.Statement (.atomm o z c a d f s) := .inr (.inr (.inl rfl))
theorem Laws.Width.mcfg (afmt bfmt : Fin 16) (kb : Fin 256) :
    Laws.Width.Statement (.mcfg afmt bfmt kb) := .inr (.inr (.inr (.inl rfl)))
theorem Laws.Width.mload (buf : Fin 4) (mcast : BitVec 8) (addr : Word) :
    Laws.Width.Statement (.mload buf mcast addr) := .inr (.inr (.inr (.inl rfl)))
theorem Laws.Width.mma (acc : Fin 8) (zero : Bool) : Laws.Width.Statement (.mma acc zero) := .inr (.inr (.inr (.inl rfl)))
theorem Laws.Width.mdrain (acc : Fin 8) (ofmt : Fin 16) (rm : Fin 8) (trans : Bool) (trm : Fin 8) (mem : Bool) (toff : BitVec 13) (dest : Word) :
    Laws.Width.Statement (.mdrain acc ofmt rm trans trm mem toff dest) := .inr (.inr (.inr (.inl rfl)))
theorem Laws.Width.mwait (kind : Fin 4) (value : BitVec 16) (addr : Word) :
    Laws.Width.Statement (.mwait kind value addr) := .inr (.inr (.inr (.inl rfl)))
theorem Laws.Width.mstep (back : Fin 64) (count : BitVec 12) (addinc : Word) :
    Laws.Width.Statement (.mstep back count addinc) := .inr (.inr (.inr (.inl rfl)))
theorem Laws.Width.chainFadd (d : Fin 8) (a b : Fin 16) : Laws.Width.Statement (.chainFadd d a b) := .inr (.inr (.inl rfl))
theorem Laws.Width.chainFsub (d : Fin 8) (a b : Fin 16) : Laws.Width.Statement (.chainFsub d a b) := .inr (.inr (.inl rfl))
theorem Laws.Width.chainFmul (d : Fin 8) (a b : Fin 16) : Laws.Width.Statement (.chainFmul d a b) := .inr (.inr (.inl rfl))
theorem Laws.Width.chainFfma (d : Fin 8) (a b c : Fin 16) : Laws.Width.Statement (.chainFfma d a b c) := .inr (.inr (.inl rfl))
theorem Laws.Width.chainFmin (d : Fin 8) (a b : Fin 16) : Laws.Width.Statement (.chainFmin d a b) := .inr (.inr (.inl rfl))
theorem Laws.Width.chainFmax (d : Fin 8) (a b : Fin 16) : Laws.Width.Statement (.chainFmax d a b) := .inr (.inr (.inl rfl))
theorem Laws.Width.chainFex2 (d : Fin 8) (a : Fin 16) : Laws.Width.Statement (.chainFex2 d a) := .inr (.inr (.inl rfl))
theorem Laws.Width.chainFlg2 (d : Fin 8) (a : Fin 16) : Laws.Width.Statement (.chainFlg2 d a) := .inr (.inr (.inl rfl))
theorem Laws.Width.chainFrcp (d : Fin 8) (a : Fin 16) : Laws.Width.Statement (.chainFrcp d a) := .inr (.inr (.inl rfl))
theorem Laws.Width.chainFrsq (d : Fin 8) (a : Fin 16) : Laws.Width.Statement (.chainFrsq d a) := .inr (.inr (.inl rfl))
theorem Laws.Width.chainFsqrt (d : Fin 8) (a : Fin 16) : Laws.Width.Statement (.chainFsqrt d a) := .inr (.inr (.inl rfl))
theorem Laws.Width.chainSel (d : Fin 8) (a b c : Fin 16) : Laws.Width.Statement (.chainSel d a b c) := .inr (.inr (.inl rfl))
theorem Laws.Width.sumr (d : Fin 8) (a : Fin 16) : Laws.Width.Statement (.sumr d a) := .inr (.inr (.inl rfl))
theorem Laws.Width.maxr (d : Fin 8) (a : Fin 16) : Laws.Width.Statement (.maxr d a) := .inr (.inr (.inl rfl))
theorem Laws.Width.outq (o : Fin 2) (a : Fin 16) (m : Fin 8) (k : Fin 16) :
    Laws.Width.Statement (.outq o a m k) := .inr (.inr (.inl rfl))
theorem Laws.Width.chainMov (d : Fin 8) (a : Fin 16) : Laws.Width.Statement (.chainMov d a) := .inr (.inr (.inl rfl))
theorem Laws.Width.send (a : CollArgs) : Laws.Width.Statement (.send a) := .inr (.inr (.inr (.inr rfl)))
theorem Laws.Width.recv (a : CollArgs) : Laws.Width.Statement (.recv a) := .inr (.inr (.inr (.inr rfl)))
theorem Laws.Width.recvadd (a : CollArgs) : Laws.Width.Statement (.recvadd a) := .inr (.inr (.inr (.inr rfl)))
theorem Laws.Width.waitw (a : CollArgs) : Laws.Width.Statement (.waitw a) := .inr (.inr (.inr (.inr rfl)))
theorem Laws.Width.signal (a : CollArgs) : Laws.Width.Statement (.signal a) := .inr (.inr (.inr (.inr rfl)))
theorem Laws.Width.sparse (a : CollArgs) : Laws.Width.Statement (.sparse a) := .inr (.inr (.inr (.inr rfl)))
theorem Laws.Width.recvsparse (a : CollArgs) : Laws.Width.Statement (.recvsparse a) := .inr (.inr (.inr (.inr rfl)))
theorem Laws.Width.endStep (a : CollArgs) : Laws.Width.Statement (.endStep a) := .inr (.inr (.inr (.inr rfl)))
theorem Laws.Width.descriptorRelease (core : Nat) : Laws.Width.Statement (.descriptorRelease core) := .inl rfl
theorem Laws.Width.engineOperationCompletion (op : Nat) : Laws.Width.Statement (.engineOperationCompletion op) := .inl rfl
theorem Laws.Width.epochCommit (g : Nat) : Laws.Width.Statement (.epochCommit g) := .inl rfl
theorem Laws.Width.tokenHoldExpiry (cluster : Nat) : Laws.Width.Statement (.tokenHoldExpiry cluster) := .inl rfl
theorem Laws.Width.pathRotation (g slice : Nat) : Laws.Width.Statement (.pathRotation g slice) := .inl rfl
theorem Laws.Width.sleeptWake (g lane : Nat) : Laws.Width.Statement (.sleeptWake g lane) := .inl rfl
theorem Laws.Width.waitcReread (g lane : Nat) : Laws.Width.Statement (.waitcReread g lane) := .inl rfl
theorem Laws.Width.read (core line : Nat) : Laws.Width.Statement (.read core line) := .inl rfl
theorem Laws.Width.own (core line : Nat) : Laws.Width.Statement (.own core line) := .inl rfl
theorem Laws.Width.grant (core line : Nat) : Laws.Width.Statement (.grant core line) := .inl rfl
theorem Laws.Width.invalidation (core line : Nat) : Laws.Width.Statement (.invalidation core line) := .inl rfl
theorem Laws.Width.recall (core line : Nat) : Laws.Width.Statement (.recall core line) := .inl rfl
theorem Laws.Width.acknowledgement (core line : Nat) : Laws.Width.Statement (.acknowledgement core line) := .inl rfl
theorem Laws.Width.evictionNotice (core line : Nat) : Laws.Width.Statement (.evictionNotice core line) := .inl rfl
theorem Laws.Width.writeBack (core line : Nat) (mask : BitVec 8) : Laws.Width.Statement (.writeBack core line mask) := .inl rfl
theorem Laws.Width.data (ch : Nat) : Laws.Width.Statement (.data ch) := .inl rfl
theorem Laws.Width.ack (ch : Nat) : Laws.Width.Statement (.ack ch) := .inl rfl
theorem Laws.Width.retry (ch hint : Nat) : Laws.Width.Statement (.retry ch hint) := .inl rfl
theorem Laws.Width.retryReissue (ch : Nat) : Laws.Width.Statement (.retryReissue ch) := .inl rfl
theorem Laws.Width.error (ch : Nat) : Laws.Width.Statement (.error ch) := .inl rfl
theorem Laws.Width.refresh (ch bank cycles : Nat) : Laws.Width.Statement (.refresh ch bank cycles) := .inl rfl
theorem Laws.Width.powerDown (ch : Nat) : Laws.Width.Statement (.powerDown ch) := .inl rfl
theorem Laws.Width.selfRefresh (ch : Nat) : Laws.Width.Statement (.selfRefresh ch) := .inl rfl
theorem Laws.Width.powerStateExit (ch : Nat) : Laws.Width.Statement (.powerStateExit ch) := .inl rfl
theorem Laws.Width.memorySideAccess (id : Nat) : Laws.Width.Statement (.memorySideAccess id) := .inl rfl
theorem Laws.Width.nmuCommand (id stack : Nat) : Laws.Width.Statement (.nmuCommand id stack) := .inl rfl
theorem Laws.Width.partialSum (id : Nat) : Laws.Width.Statement (.partialSum id) := .inl rfl
theorem Laws.Width.snpdata (line : Nat) : Laws.Width.Statement (.snpdata line) := .inl rfl
theorem Laws.Width.snpinv (line : Nat) : Laws.Width.Statement (.snpinv line) := .inl rfl
theorem Laws.Width.snpcur (line : Nat) : Laws.Width.Statement (.snpcur line) := .inl rfl
theorem Laws.Width.cxlCacheResponse (line : Nat) (half : Fin 2) (bytes : List Byte) : Laws.Width.Statement (.cxlCacheResponse line half bytes) := .inl rfl
theorem Laws.Width.cxlMemRead (dpa : Nat) : Laws.Width.Statement (.cxlMemRead dpa) := .inl rfl
theorem Laws.Width.cxlMemWrite (dpa : Nat) (bytes : List Byte) : Laws.Width.Statement (.cxlMemWrite dpa bytes) := .inl rfl
theorem Laws.Width.bisnpAnswer (line : Nat) : Laws.Width.Statement (.bisnpAnswer line) := .inl rfl
theorem Laws.Width.epochEnd (die : Fin 2) : Laws.Width.Statement (.epochEnd die) := .inl rfl
theorem Laws.Width.chretireGo (chan : Nat) : Laws.Width.Statement (.chretireGo chan) := .inl rfl
theorem Laws.Width.retirementSwitch (chan : Nat) : Laws.Width.Statement (.retirementSwitch chan) := .inl rfl
theorem Laws.Width.backgroundSweep (leaf : Nat) : Laws.Width.Statement (.backgroundSweep leaf) := .inl rfl
theorem Laws.Width.notifyStore (p fn q : Nat) (value : Word) : Laws.Width.Statement (.notifyStore p fn q value) := .inl rfl
theorem Laws.Width.queueMap (p q : Nat) : Laws.Width.Statement (.queueMap p q) := .inl rfl
theorem Laws.Width.queueUnmap (p q : Nat) : Laws.Width.Statement (.queueUnmap p q) := .inl rfl
theorem Laws.Width.nopCommand (h : CmdHead) : Laws.Width.Statement (.nopCommand h) := .inl rfl
theorem Laws.Width.launch (h : CmdHead) (record : Nat) (ordered : Bool) :
    Laws.Width.Statement (.launch h record ordered) := .inl rfl
theorem Laws.Width.launchi (h : CmdHead) (record : Nat) (ordered : Bool) (dims : Nat) :
    Laws.Width.Statement (.launchi h record ordered dims) := .inl rfl
theorem Laws.Width.waitmem (h : CmdHead) (gva : Nat) (value : Word) (cond : Fin 4) :
    Laws.Width.Statement (.waitmem h gva value cond) := .inl rfl
theorem Laws.Width.write (h : CmdHead) (gva : Nat) (value : Word) : Laws.Width.Statement (.write h gva value) := .inl rfl
theorem Laws.Width.branch (h : CmdHead) (cond : Fin 4) (value : Word) (target : Nat) :
    Laws.Width.Statement (.branch h cond value target) := .inl rfl
theorem Laws.Width.loop (h : CmdHead) (count target : Nat) : Laws.Width.Statement (.loop h count target) := .inl rfl
theorem Laws.Width.qprio (h : CmdHead) (queue prio : Nat) : Laws.Width.Statement (.qprio h queue prio) := .inl rfl
theorem Laws.Width.process (h : CmdHead) (gpa proc : Nat) : Laws.Width.Statement (.process h gpa proc) := .inl rfl
theorem Laws.Width.kill (h : CmdHead) (fn result : Nat) : Laws.Width.Statement (.kill h fn result) := .inl rfl
theorem Laws.Width.invS1Va (h : CmdHead) (fn asid base len : Nat) (leafOnly : Bool) :
    Laws.Width.Statement (.invS1Va h fn asid base len leafOnly) := .inl rfl
theorem Laws.Width.invS1Asid (h : CmdHead) (fn asid : Nat) : Laws.Width.Statement (.invS1Asid h fn asid) := .inl rfl
theorem Laws.Width.invS2Gpa (h : CmdHead) (fn base len : Nat) : Laws.Width.Statement (.invS2Gpa h fn base len) := .inl rfl
theorem Laws.Width.invFn (h : CmdHead) (fn : Nat) : Laws.Width.Statement (.invFn h fn) := .inl rfl
theorem Laws.Width.invPart (h : CmdHead) : Laws.Width.Statement (.invPart h) := .inl rfl
theorem Laws.Width.invalidationCompletion (p id : Nat) : Laws.Width.Statement (.invalidationCompletion p id) := .inl rfl
theorem Laws.Width.biasflip (h : CmdHead) (fn gpa : Nat) (bias : Bool) (ho : BitVec 16) :
    Laws.Width.Statement (.biasflip h fn gpa bias ho) := .inl rfl
theorem Laws.Width.deferred (p q : Nat) : Laws.Width.Statement (.deferred p q) := .inl rfl
theorem Laws.Width.migrate64k (h : CmdHead) (fn gpa newOut kind key : Nat) :
    Laws.Width.Statement (.migrate64k h fn gpa newOut kind key) := .inl rfl
theorem Laws.Width.cancel (h : CmdHead) (target : Nat) : Laws.Width.Statement (.cancel h target) := .inl rfl
theorem Laws.Width.admission (p : Nat) : Laws.Width.Statement (.admission p) := .inl rfl
theorem Laws.Width.ageing (p q : Nat) : Laws.Width.Statement (.ageing p q) := .inl rfl
theorem Laws.Width.eviction (p set : Nat) : Laws.Width.Statement (.eviction p set) := .inl rfl
theorem Laws.Width.sliceEnd (p : Nat) : Laws.Width.Statement (.sliceEnd p) := .inl rfl
theorem Laws.Width.staging (p : Nat) : Laws.Width.Statement (.staging p) := .inl rfl
theorem Laws.Width.exchange (p : Nat) : Laws.Width.Statement (.exchange p) := .inl rfl
theorem Laws.Width.contextWriteBack (p : Nat) : Laws.Width.Statement (.contextWriteBack p) := .inl rfl
theorem Laws.Width.fqrespRetry (p id : Nat) (runtime : Bool) : Laws.Width.Statement (.fqrespRetry p id runtime) := .inl rfl
theorem Laws.Width.fqrespDeny (p id : Nat) (runtime : Bool) : Laws.Width.Statement (.fqrespDeny p id runtime) := .inl rfl
theorem Laws.Width.fqtailWrite (p : Nat) (tail : Word) : Laws.Width.Statement (.fqtailWrite p tail) := .inl rfl
theorem Laws.Width.peerRd (pkt : Flit) : Laws.Width.Statement (.peerRd pkt) := .inl rfl
theorem Laws.Width.peerWr (pkt : Flit) : Laws.Width.Statement (.peerWr pkt) := .inl rfl
theorem Laws.Width.peerAtom (pkt : Flit) : Laws.Width.Statement (.peerAtom pkt) := .inl rfl
theorem Laws.Width.peerAtomm (pkt : Flit) : Laws.Width.Statement (.peerAtomm pkt) := .inl rfl
theorem Laws.Width.launchPacket (pkt : Flit) : Laws.Width.Statement (.launchPacket pkt) := .inl rfl
theorem Laws.Width.cdata (pkt : Flit) : Laws.Width.Statement (.cdata pkt) := .inl rfl
theorem Laws.Width.clear (pkt : Flit) : Laws.Width.Statement (.clear pkt) := .inl rfl
theorem Laws.Width.sparseFlit (pkt : Flit) : Laws.Width.Statement (.sparseFlit pkt) := .inl rfl
theorem Laws.Width.spend (pkt : Flit) : Laws.Width.Statement (.spend pkt) := .inl rfl
theorem Laws.Width.peerData (id : Nat) (bytes : List Byte) : Laws.Width.Statement (.peerData id bytes) := .inl rfl
theorem Laws.Width.peerAck (id : Nat) : Laws.Width.Statement (.peerAck id) := .inl rfl
theorem Laws.Width.peerError (id cause : Nat) : Laws.Width.Statement (.peerError id cause) := .inl rfl
theorem Laws.Width.peerRetry (id hint : Nat) : Laws.Width.Statement (.peerRetry id hint) := .inl rfl
theorem Laws.Width.resend (id : Nat) : Laws.Width.Statement (.resend id) := .inl rfl
theorem Laws.Width.moved (id : Nat) : Laws.Width.Statement (.moved id) := .inl rfl
theorem Laws.Width.movedReread (id : Nat) : Laws.Width.Statement (.movedReread id) := .inl rfl
theorem Laws.Width.linkTimeout (id : Nat) : Laws.Width.Statement (.linkTimeout id) := .inl rfl
theorem Laws.Width.portDown (port : Fin 18) : Laws.Width.Statement (.portDown port) := .inl rfl
theorem Laws.Width.vdnTableWrite (vdn : Fin 2048) (value : DWord) : Laws.Width.Statement (.vdnTableWrite vdn value) := .inl rfl
theorem Laws.Width.migctlGo (p : Nat) (value : DWord) : Laws.Width.Statement (.migctlGo p value) := .inl rfl
theorem Laws.Width.migctlStop (p : Nat) : Laws.Width.Statement (.migctlStop p) := .inl rfl
theorem Laws.Width.migctlAbort (p : Nat) : Laws.Width.Statement (.migctlAbort p) := .inl rfl
theorem Laws.Width.precopyRoundEnd (p us : Nat) : Laws.Width.Statement (.precopyRoundEnd p us) := .inl rfl
theorem Laws.Width.governorWindow (p : Nat) : Laws.Width.Statement (.governorWindow p) := .inl rfl
theorem Laws.Width.migrationDataWrite (pkt : Flit) : Laws.Width.Statement (.migrationDataWrite pkt) := .inl rfl
theorem Laws.Width.imageWrite (pkt : Flit) : Laws.Width.Statement (.imageWrite pkt) := .inl rfl
theorem Laws.Width.carriedResultWrite (pkt : Flit) : Laws.Width.Statement (.carriedResultWrite pkt) := .inl rfl
theorem Laws.Width.install (p : Nat) : Laws.Width.Statement (.install p) := .inl rfl
theorem Laws.Width.switch (p : Nat) : Laws.Width.Statement (.switch p) := .inl rfl
theorem Laws.Width.resume (p : Nat) : Laws.Width.Statement (.resume p) := .inl rfl
theorem Laws.Width.forwardingEnd (p : Nat) : Laws.Width.Statement (.forwardingEnd p) := .inl rfl
theorem Laws.Width.partcluWrite (p : Nat) (value : DWord) : Laws.Width.Statement (.partcluWrite p value) := .inl rfl
theorem Laws.Width.partcfgWrite (p : Nat) (value : DWord) : Laws.Width.Statement (.partcfgWrite p value) := .inl rfl
theorem Laws.Width.keyinstall (arg buf : Nat) : Laws.Width.Statement (.keyinstall arg buf) := .inl rfl
theorem Laws.Width.keyretire (arg buf : Nat) : Laws.Width.Statement (.keyretire arg buf) := .inl rfl
theorem Laws.Width.attest (arg buf : Nat) : Laws.Width.Statement (.attest arg buf) := .inl rfl
theorem Laws.Width.seal (arg buf : Nat) : Laws.Width.Statement (.seal arg buf) := .inl rfl
theorem Laws.Width.unlock (arg buf : Nat) : Laws.Width.Statement (.unlock arg buf) := .inl rfl
theorem Laws.Width.fwload (arg buf : Nat) : Laws.Width.Statement (.fwload arg buf) := .inl rfl
theorem Laws.Width.fwcommit (arg buf : Nat) : Laws.Width.Statement (.fwcommit arg buf) := .inl rfl
theorem Laws.Width.migkey (arg buf : Nat) : Laws.Width.Statement (.migkey arg buf) := .inl rfl
theorem Laws.Width.tokenExpiry (token : Nat) : Laws.Width.Statement (.tokenExpiry token) := .inl rfl
theorem Laws.Width.breakpointArm (g : Nat) (n : Fin 8) (gva : Nat) : Laws.Width.Statement (.breakpointArm g n gva) := .inl rfl
theorem Laws.Width.getVersion : Laws.Width.Statement (.getVersion) := .inl rfl
theorem Laws.Width.getCapabilities : Laws.Width.Statement (.getCapabilities) := .inl rfl
theorem Laws.Width.negotiateAlgorithms (algs : SpdmAlgs) : Laws.Width.Statement (.negotiateAlgorithms algs) := .inl rfl
theorem Laws.Width.getDigests : Laws.Width.Statement (.getDigests) := .inl rfl
theorem Laws.Width.getCertificate : Laws.Width.Statement (.getCertificate) := .inl rfl
theorem Laws.Width.challenge (nonce : BitVec 256) : Laws.Width.Statement (.challenge nonce) := .inl rfl
theorem Laws.Width.getMeasurements : Laws.Width.Statement (.getMeasurements) := .inl rfl
theorem Laws.Width.keyExchange (peerKey : BitVec 768) : Laws.Width.Statement (.keyExchange peerKey) := .inl rfl
theorem Laws.Width.finish (mac : BitVec 384) : Laws.Width.Statement (.finish mac) := .inl rfl
theorem Laws.Width.query : Laws.Width.Statement (.query) := .inl rfl
theorem Laws.Width.keyProg (ks : IdeKeySet) (key : BitVec 256) : Laws.Width.Statement (.keyProg ks key) := .inl rfl
theorem Laws.Width.kSetGo (ks : IdeKeySet) : Laws.Width.Statement (.kSetGo ks) := .inl rfl
theorem Laws.Width.kSetStop (ks : IdeKeySet) : Laws.Width.Statement (.kSetStop ks) := .inl rfl
theorem Laws.Width.pwrcapWrite (value : DWord) : Laws.Width.Statement (.pwrcapWrite value) := .inl rfl
theorem Laws.Width.drawWindow (watts : BitVec 16) : Laws.Width.Statement (.drawWindow watts) := .inl rfl
theorem Laws.Width.powerCapWindow : Laws.Width.Statement (.powerCapWindow) := .inl rfl
theorem Laws.Width.droop (core : Nat) : Laws.Width.Statement (.droop core) := .inl rfl
theorem Laws.Width.thermal (die : Fin 4) (temp : Nat) : Laws.Width.Statement (.thermal die temp) := .inl rfl
theorem Laws.Width.patrolScrub (dpa : Nat) : Laws.Width.Statement (.patrolScrub dpa) := .inl rfl
theorem Laws.Width.rascntWrite (n : Fin 8) (value : DWord) : Laws.Width.Statement (.rascntWrite n value) := .inl rfl
theorem Laws.Width.warmReset : Laws.Width.Statement (.warmReset) := .inl rfl
theorem Laws.Width.coldReset : Laws.Width.Statement (.coldReset) := .inl rfl
theorem Laws.Width.registerWrite (reg : DevReg) (value : DWord) : Laws.Width.Statement (.registerWrite reg value) := .inl rfl
theorem Laws.Width.portRetrain (port : Fin 18) : Laws.Width.Statement (.portRetrain port) := .inl rfl
theorem Laws.Width.dieBelow95c (die : Fin 4) : Laws.Width.Statement (.dieBelow95c die) := .inl rfl
theorem Laws.Width.droopEnd (core : Nat) : Laws.Width.Statement (.droopEnd core) := .inl rfl

end Sys2Proof
end

