-- ==== Sys2Proof/Laws/Trap.lean ====
section
/-! SUPPORT. What taking a trap does (R308, R309, R391), said once: the trap CSRs, the lanes of the convoy, everything else of the
group as it was. -/

namespace Sys2Proof.Machine

@[simp] theorem Group.enter_trapMode (g : Group) (t : TrapInfo) : (g.enter t).trapMode = true := rfl
@[simp] theorem Group.enter_tcause (g : Group) (t : TrapInfo) : (g.enter t).tcause = t.cause.code := rfl
@[simp] theorem Group.enter_taddr (g : Group) (t : TrapInfo) : (g.enter t).taddr = t.addr := rfl
@[simp] theorem Group.enter_tpc (g : Group) (t : TrapInfo) : (g.enter t).tpc = t.pc := rfl
@[simp] theorem Group.enter_tmask (g : Group) (t : TrapInfo) : (g.enter t).tmask = maskOf t.lanes := rfl
@[simp] theorem Group.enter_tvec (g : Group) (t : TrapInfo) : (g.enter t).tvec = g.tvec := rfl
@[simp] theorem Group.enter_caps (g : Group) (t : TrapInfo) : (g.enter t).caps = g.caps := rfl
@[simp] theorem Group.enter_flags (g : Group) (t : TrapInfo) : (g.enter t).flags = g.flags := rfl
@[simp] theorem Group.enter_faultBits (g : Group) (t : TrapInfo) : (g.enter t).faultBits = g.faultBits := rfl
@[simp] theorem Group.enter_outctl (g : Group) (t : TrapInfo) : (g.enter t).outctl = { g.outctl with replay := [] } := rfl
@[simp] theorem Group.enter_epoch (g : Group) (t : TrapInfo) : (g.enter t).epoch = g.epoch := rfl
@[simp] theorem Group.enter_partdone (g : Group) (t : TrapInfo) : (g.enter t).partdone = g.partdone := rfl
@[simp] theorem Group.enter_spillprog (g : Group) (t : TrapInfo) : (g.enter t).spillprog = g.spillprog := rfl

/-- Lanes bound to one convoy change in that alone. -/
theorem GroupArch.bind_lane (a : GroupArch) (lanes : List Nat) (i : Nat) (l : Lane) (h : a.lanes[i]? = some l) :
    ∃ b, (a.bind lanes).lanes[i]? = some (if lanes.contains i then { l with resumed := b } else l) := by
  unfold GroupArch.bind
  dsimp only
  split
  · exact ⟨l.resumed, by rw [h]; split <;> rfl⟩
  · exact ⟨some a.nextConvoy, by simp [List.getElem?_mapIdx, h]⟩

/-- A lane of the trapping convoy goes to the handler, outside any region and waiting for nothing; every other lane keeps its
place; both write TMELD. All else but the path number, and what binds the convoy together, stands. -/
theorem Group.enter_lane (g : Group) (t : TrapInfo) (i : Nat) (l : Lane) (h : g.arch.lanes[i]? = some l) :
    ∃ p b, (g.enter t).arch.lanes[i]? = some (if t.convoy.contains i
      then { l with tmeld := l.tmeldAt true, pc := g.tvec, meld := none, park := none, atTret := false, resumed := b, path := p }
      else { l with tmeld := l.tmeldAt false, path := p }) := by
  let f : Nat → Lane → Lane := fun i l =>
    if t.convoy.contains i then
      { l with tmeld := l.tmeldAt true, pc := g.tvec, meld := none, park := none, atTret := false, resumed := none }
    else { l with tmeld := l.tmeldAt false }
  obtain ⟨b, hb⟩ := GroupArch.bind_lane { g.arch with lanes := g.arch.lanes.mapIdx f } t.convoy i (f i l) (by simp [List.getElem?_mapIdx, h])
  obtain ⟨p, hp⟩ := (GroupArch.repath_same (({ g.arch with lanes := g.arch.lanes.mapIdx f } : GroupArch).bind t.convoy)).lane i _ hb
  refine ⟨p, b, hp.trans ?_⟩
  by_cases hc : t.convoy.contains i = true
  · simp only [f, if_pos hc]
  · simp only [f, if_neg hc]

/-- A trap outside trap mode is trap entry. -/
theorem State.takeTrap_entry (s : State) (gid : Nat) (t : TrapInfo) (g : Group) (hg : look s.groups gid = some g)
    (hm : g.trapMode = false) : s.takeTrap gid t = (s.setGroup gid (g.enter t)).giveToken gid := by
  simp [State.takeTrap, hg, hm]

/-- A trap in trap mode ends the launch FAULTED, with a waybill event. -/
theorem State.takeTrap_double (s : State) (gid : Nat) (t : TrapInfo) (g : Group) (hg : look s.groups gid = some g)
    (hm : g.trapMode = true) :
    s.takeTrap gid t =
      (s.waybill 0x0011 (BitVec.ofNat 64 (t.pc.toNat + t.cause.code * 2 ^ 57))
        (BitVec.ofNat 64 (g.tpc.toNat + g.tcause * 2 ^ 57)) (some (s.teamOf g).ctx.part) (s.teamOf g).ctx.fn (s.teamOf g).core).endLaunch
        (s.teamOf g).launch 0x30 := by
  simp [State.takeTrap, hg, hm]

/-- A cause met outside an epoch and outside the shadow of a drained access is taken. -/
theorem State.trap_taken (s : State) (gid : Nat) (t : TrapInfo) (g : Group) (hg : look s.groups gid = some g)
    (he : g.epoch = none) (hd : g.drained = none) : s.trap gid t = s.takeTrap gid t := by
  simp [State.trap, hg, he, hd]

/-- A cause met in an epoch replays. -/
theorem State.trap_replays (s : State) (gid : Nat) (t : TrapInfo) (g : Group) (hg : look s.groups gid = some g)
    (he : g.epoch.isSome = true) : s.trap gid t = s.replay gid t.convoy := by
  simp [State.trap, hg, he]

/-- A rollback puts the checkpoint's registers back and leaves no epoch. -/
theorem Group.rollback_eq (g : Group) (e : Epoch) (he : g.epoch = some e) :
    g.rollback.arch = e.saved ∧ g.rollback.epoch = none ∧ g.rollback.caps = g.caps := by
  simp [Group.rollback, he]

end Sys2Proof.Machine
end

