-- ==== Sys2Proof/Tests/Slice0.lean ====
section
/-! SUPPORT. Tests: words written out from the spec's encodings, ill-formed terms, the manual's worked examples, and for every
obligation with hypotheses states and operands that meet them. -/

open Sys2Proof Sys2Proof.Machine Sys2Proof.Claims

set_option Elab.async false

namespace Sys2Proof.Tests

/-! ### Decoding -/

theorem test_decode_integer :
    decodeLane 0x924C0287 = some (.add 6 9 18 5 3) ∧
    decodeLane 0x924C0A87 = some (.sub 6 9 18 5 3) ∧
    decodeLane 0x924C1287 = some (.mul 6 9 18 5 3) ∧
    decodeLane 0x924C1A87 = some (.mulhi 6 9 18 5 3) ∧
    decodeLane 0x924C2287 = some (.mulhiUns 6 9 18 5 3) ∧
    decodeLane 0x924C2A87 = some (.mad 6 9 18 5 3) ∧
    decodeLane 0x924C3287 = some (.and 6 9 18 5 3) ∧
    decodeLane 0x924C3A87 = some (.or 6 9 18 5 3) ∧
    decodeLane 0x924C4287 = some (.xor 6 9 18 5 3) ∧
    decodeLane 0x024C4A87 = some (.not 6 9 5 3) ∧
    decodeLane 0x924C5287 = some (.shl 6 9 18 5 3) ∧
    decodeLane 0x924C5A87 = some (.shr 6 9 18 5 3) ∧
    decodeLane 0x924C6287 = some (.sar 6 9 18 5 3) ∧
    decodeLane 0x924C6A87 = some (.min 6 9 18 5 3) ∧
    decodeLane 0x924C7287 = some (.minUns 6 9 18 5 3) ∧
    decodeLane 0x924C7A87 = some (.max 6 9 18 5 3) ∧
    decodeLane 0x924C8287 = some (.maxUns 6 9 18 5 3) ∧
    decodeLane 0x024C8A87 = some (.abs 6 9 5 3) ∧
    decodeLane 0x024C9287 = some (.clz 6 9 5 3) ∧
    decodeLane 0x024C9A87 = some (.popc 6 9 5 3) ∧
    decodeLane 0x024CA287 = some (.brev 6 9 5 3) ∧
    decodeLane 0x924CAA87 = some (.bfe 6 9 18 5 3) ∧
    decodeLane 0x924CB287 = some (.bfeUns 6 9 18 5 3) ∧
    decodeLane 0x924CBA87 = some (.bfi 6 9 18 5 3) ∧
    decodeLane 0x924CCA87 = some (.sel 2 6 9 18 5 3) ∧
    decodeLane 0x927EDA87 = some (.cmp 7 3 9 18 5 3) ∧
    decodeLane 0x024CE287 = some (.mov 6 9 5 3) ∧
    decodeLane 0x920CEA87 = some (.add64 6 8 18 5 3) ∧
    decodeLane 0x920CF287 = some (.sub64 6 8 18 5 3) ∧
    decodeLane 0x920CFA87 = some (.mad64 6 8 18 5 3) := by
  decide

theorem test_decode_float :
    decodeLane 0x924D0287 = some (.fadd 6 9 18 5 3) ∧
    decodeLane 0x924D0A87 = some (.fsub 6 9 18 5 3) ∧
    decodeLane 0x924D1287 = some (.fmul 6 9 18 5 3) ∧
    decodeLane 0x924D1A87 = some (.ffma 6 9 18 5 3) ∧
    decodeLane 0x924D2287 = some (.fmin 6 9 18 5 3) ∧
    decodeLane 0x924D2A87 = some (.fmax 6 9 18 5 3) ∧
    decodeLane 0x92653287 = some (.fcmp 4 2 9 18 5 3) ∧
    decodeLane 0x024D3A87 = some (.frcp 6 9 5 3) ∧
    decodeLane 0x024D4287 = some (.frsq 6 9 5 3) ∧
    decodeLane 0x024D4A87 = some (.fsqrt 6 9 5 3) ∧
    decodeLane 0x024D5287 = some (.fex2 6 9 5 3) ∧
    decodeLane 0x024D5A87 = some (.flg2 6 9 5 3) ∧
    decodeLane 0x024D6287 = some (.fsin 6 9 5 3) ∧
    decodeLane 0x024D6A87 = some (.fcos 6 9 5 3) := by
  decide

theorem test_decode_packed :
    decodeLane 0x924D7287 = some (.hadd2F16 6 9 18 5 3) ∧
    decodeLane 0x924D7A87 = some (.hadd2Bf16 6 9 18 5 3) ∧
    decodeLane 0x924D8287 = some (.hmul2F16 6 9 18 5 3) ∧
    decodeLane 0x924D8A87 = some (.hmul2Bf16 6 9 18 5 3) ∧
    decodeLane 0x924D9287 = some (.hfma2F16 6 9 18 5 3) ∧
    decodeLane 0x924D9A87 = some (.hfma2Bf16 6 9 18 5 3) ∧
    decodeLane 0x924DA287 = some (.dot4S8 6 9 18 5 3) ∧
    decodeLane 0x924DAA87 = some (.dot4E4m3 6 9 18 5 3) ∧
    decodeLane 0x924DB287 = some (.dot4E5m2 6 9 18 5 3) ∧
    decodeLane 0x924DBA87 = some (.dot8S4 6 9 18 5 3) ∧
    decodeLane 0x924DC287 = some (.dot8E2m1 6 9 18 5 3) ∧
    decodeLane 0xD24DCA87 = some (.cvt 26 6 9 5 3) ∧
    decodeLane 0x424DD287 = some (.cvtsr 8 6 9 5 3) ∧
    decodeLane 0x924DDA87 = some (.pack 6 9 18 5 3) ∧
    decodeLane 0x4A4DE287 = some (.unpk 9 6 9 5 3) := by
  decide

theorem test_decode_scalar_integer :
    decodeLane 0x0924C017 = some (.addU 6 9 18 3) ∧
    decodeLane 0x0924C097 = some (.subU 6 9 18 3) ∧
    decodeLane 0x0924C117 = some (.mulU 6 9 18 3) ∧
    decodeLane 0x0924C197 = some (.mulhiU 6 9 18 3) ∧
    decodeLane 0x0924C217 = some (.mulhiUnsU 6 9 18 3) ∧
    decodeLane 0x0924C297 = some (.madU 6 9 18 3) ∧
    decodeLane 0x0924C317 = some (.andU 6 9 18 3) ∧
    decodeLane 0x0924C397 = some (.orU 6 9 18 3) ∧
    decodeLane 0x0924C417 = some (.xorU 6 9 18 3) ∧
    decodeLane 0x0900C497 = some (.notU 6 18 3) ∧
    decodeLane 0x0924C517 = some (.shlU 6 9 18 3) ∧
    decodeLane 0x0924C597 = some (.shrU 6 9 18 3) ∧
    decodeLane 0x0924C617 = some (.sarU 6 9 18 3) ∧
    decodeLane 0x0924C697 = some (.minU 6 9 18 3) ∧
    decodeLane 0x0924C717 = some (.minUnsU 6 9 18 3) ∧
    decodeLane 0x0924C797 = some (.maxU 6 9 18 3) ∧
    decodeLane 0x0924C817 = some (.maxUnsU 6 9 18 3) ∧
    decodeLane 0x0900C897 = some (.absU 6 18 3) ∧
    decodeLane 0x0900C917 = some (.clzU 6 18 3) ∧
    decodeLane 0x0900C997 = some (.popcU 6 18 3) ∧
    decodeLane 0x0900CA17 = some (.brevU 6 18 3) ∧
    decodeLane 0x0924CA97 = some (.bfeU 6 9 18 3) ∧
    decodeLane 0x0924CB17 = some (.bfeUnsU 6 9 18 3) ∧
    decodeLane 0x0924CB97 = some (.bfiU 6 9 18 3) ∧
    decodeLane 0x0924CC97 = some (.selU 2 6 9 18 3) ∧
    decodeLane 0x09274D97 = some (.cmpU 6 2 9 18 3) ∧
    decodeLane 0x0900CE17 = some (.movU 6 18 3) ∧
    decodeLane 0x0920CE97 = some (.add64U 6 8 18 3) ∧
    decodeLane 0x0920CF17 = some (.sub64U 6 8 18 3) ∧
    decodeLane 0x0920CF97 = some (.mad64U 6 8 18 3) := by
  decide

theorem test_decode_scalar_float :
    decodeLane 0x0924D017 = some (.faddU 6 9 18 3) ∧
    decodeLane 0x0924D097 = some (.fsubU 6 9 18 3) ∧
    decodeLane 0x0924D117 = some (.fmulU 6 9 18 3) ∧
    decodeLane 0x0924D197 = some (.ffmaU 6 9 18 3) ∧
    decodeLane 0x0924D217 = some (.fminU 6 9 18 3) ∧
    decodeLane 0x0924D297 = some (.fmaxU 6 9 18 3) ∧
    decodeLane 0x0926D317 = some (.fcmpU 5 2 9 18 3) ∧
    decodeLane 0x0924D717 = some (.hadd2F16U 6 9 18 3) ∧
    decodeLane 0x0924D797 = some (.hadd2Bf16U 6 9 18 3) ∧
    decodeLane 0x0924D817 = some (.hmul2F16U 6 9 18 3) ∧
    decodeLane 0x0924D897 = some (.hmul2Bf16U 6 9 18 3) ∧
    decodeLane 0x0924D917 = some (.hfma2F16U 6 9 18 3) ∧
    decodeLane 0x0924D997 = some (.hfma2Bf16U 6 9 18 3) ∧
    decodeLane 0x0924DA17 = some (.dot4S8U 6 9 18 3) ∧
    decodeLane 0x0924DA97 = some (.dot4E4m3U 6 9 18 3) ∧
    decodeLane 0x0924DB17 = some (.dot4E5m2U 6 9 18 3) ∧
    decodeLane 0x0924DB97 = some (.dot8S4U 6 9 18 3) ∧
    decodeLane 0x0924DC17 = some (.dot8E2m1U 6 9 18 3) ∧
    decodeLane 0x0924DD97 = some (.packU 6 9 18 3) := by
  decide

theorem test_decode_immediate :
    decodeLane 0xA5C33027 = some (.addI 6 0xA5C3 3) ∧
    decodeLane 0xA5C330A7 = some (.mulI 6 0xA5C3 3) ∧
    decodeLane 0xA5C33127 = some (.andI 6 0xA5C3 3) ∧
    decodeLane 0xA5C331A7 = some (.orI 6 0xA5C3 3) ∧
    decodeLane 0xA5C33227 = some (.xorI 6 0xA5C3 3) ∧
    decodeLane 0x001F32A7 = some (.shlI 6 31 3) ∧
    decodeLane 0x00013327 = some (.shrI 6 1 3) ∧
    decodeLane 0x001133A7 = some (.sarI 6 17 3) ∧
    decodeLane 0xA5C33427 = some (.movI 6 0xA5C3 3) ∧
    decodeLane 0xA5C334A7 = some (.movHi 6 0xA5C3 3) ∧
    decodeLane 0xA5C33527 = some (.faddI 6 0xA5C3 3) ∧
    decodeLane 0xA5C335A7 = some (.fmulI 6 0xA5C3 3) ∧
    decodeLane 0xA5C33627 = some (.movF32 6 0xA5C3 3) ∧
    decodeLane 0xA5C336A7 = some (.hadd2F16I 6 0xA5C3 3) ∧
    decodeLane 0xA5C33727 = some (.hmul2F16I 6 0xA5C3 3) ∧
    decodeLane 0xA5C337A7 = some (.movE4m3x2 6 0xA5C3 3) := by
  decide

theorem test_decode_halfword :
    decodeLane 0x6980 = some (.addA16 6 13) ∧
    decodeLane 0x6984 = some (.subA16 6 13) ∧
    decodeLane 0x6988 = some (.mulA16 6 13) ∧
    decodeLane 0x698C = some (.andA16 6 13) ∧
    decodeLane 0x6990 = some (.orA16 6 13) ∧
    decodeLane 0x6994 = some (.xorA16 6 13) ∧
    decodeLane 0x6998 = some (.shlA16 6 13) ∧
    decodeLane 0x699C = some (.shrA16 6 13) ∧
    decodeLane 0x69A0 = some (.minA16 6 13) ∧
    decodeLane 0x69A4 = some (.maxA16 6 13) ∧
    decodeLane 0x69A8 = some (.movA16 6 13) ∧
    decodeLane 0x69AC = some (.faddA16 6 13) ∧
    decodeLane 0x69B0 = some (.fmulA16 6 13) ∧
    decodeLane 0x69B4 = some (.fminA16 6 13) ∧
    decodeLane 0x69B8 = some (.fmaxA16 6 13) ∧
    decodeLane 0x69BC = some (.ffmaA16 6 13) ∧
    decodeLane 0xA532 = some (.waitf 0xA53) ∧
    decodeLane 0x0006 = some .nop ∧
    decodeLane 0x0016 = some .yield ∧
    decodeLane 0x0826 = some .ret8 ∧
    decodeLane 0x1026 = some .ret16 ∧
    decodeLane 0x0036 = some .mend ∧
    decodeLane 0x0046 = some .exit ∧
    decodeLane 0x0056 = some .fence ∧
    decodeLane 0xFF66 = some (.stall 255) := by
  decide

theorem test_decode_memory :
    decodeLane 0xA3B202B7 = some (.ld 12 7 20 4 5 3) ∧
    decodeLane 0xA3980AB7 = some (.ldS 6 7 20 0 5 3) ∧
    decodeLane 0xA39992B7 = some (.st 6 7 20 3 5 3) ∧
    decodeLane 0xA0199AB7 = some (.lds 6 20 3 5 3) ∧
    decodeLane 0xA01822B7 = some (.ldsS 6 20 0 5 3) ∧
    decodeLane 0xA0522AB7 = some (.sts 20 20 4 5 3) ∧
    decodeLane 0xA71B32B7 = some (.ldmx 6 14 20 6 5 3) ∧
    decodeLane 0xA71BBAB7 = some (.stmx 6 14 20 7 5 3) ∧
    decodeLane 0xA38247B7 = some (.pref 7 20 4 3) := by
  decide

theorem test_decode_capability :
    decodeLane 0xA39A4AB7 = some (.cload 6 7 20 5 3) ∧
    decodeLane 0xA39A52B7 = some (.cstore 6 7 20 5 3) ∧
    decodeLane 0xA3985FB7 = some (.cnarrow 6 7 20 3) ∧
    decodeLane 0xA39867B7 = some (.crestr 6 7 20 3) ∧
    decodeLane 0x039B6FB7 = some (.cget 6 7 6 3) ∧
    decodeLane 0x4B9877B7 = some (.cseal 6 7 9 3) ∧
    decodeLane 0xCB9877B7 = some (.csealUn 6 7 9 3) ∧
    decodeLane 0x03887FB7 = some (.ctestTag 2 7 3) ∧
    decodeLane 0x03987FB7 = some (.ctestUnsealed 2 7 3) ∧
    decodeLane 0x5BA87FB7 = some (.ctestSub 2 7 11 3) ∧
    decodeLane 0xA3BA7FB7 = some (.ctestIn 2 7 20 4 3) := by
  decide

theorem test_decode_branch :
    decodeLane 0x80001047 = some (.bra 2 0x40000 3) ∧
    decodeLane 0xB47830C7 = some (.braN 2 0x5A3C1 3) ∧
    decodeLane 0xB4783147 = some (.brl 2 0x5A3C1 3) ∧
    decodeLane 0x7FFFE1C7 = some (.call8 0x3FFFF 3) ∧
    decodeLane 0xB4782247 = some (.call16 0x5A3C1 3) ∧
    decodeLane 0x0001A2C7 = some (.jmp 13 3) ∧
    decodeLane 0x0007F347 = some (.meld 2 63 3) := by
  decide

theorem test_decode_cross_lane :
    decodeLane 0x364902D7 = some (.shflIdx 6 9 18 true 5 3) ∧
    decodeLane 0x36490AD7 = some (.shflUp 6 9 18 true 5 3) ∧
    decodeLane 0x364912D7 = some (.shflDown 6 9 18 true 5 3) ∧
    decodeLane 0x36491AD7 = some (.shflXor 6 9 18 true 5 3) ∧
    decodeLane 0x180222D7 = some (.voteAll 3 2 5 3) ∧
    decodeLane 0x10012AD7 = some (.voteAny 2 1 5 3) ∧
    decodeLane 0x300132D7 = some (.voteBallot 6 1 5 3) ∧
    decodeLane 0x31493AD7 = some (.redux 10 6 9 5 3) ∧
    decodeLane 0x300942D7 = some (.matchAny 6 9 5 3) ∧
    decodeLane 0x10094AD7 = some (.matchAll 2 9 5 3) := by
  decide

theorem test_decode_engine :
    decodeLane 0x940587D7 = some (.fork 37 5 3) ∧
    decodeLane 0x94498AD7 = some (.copy 37 9 2 5 3) ∧
    decodeLane 0x940097D7 = some (.copyq 37 3) ∧
    decodeLane 0x94499AD7 = some (.chain 37 9 2 5 3) ∧
    decodeLane 0x9409A2D7 = some (.coll 37 9 5 3) ∧
    decodeLane 0x9400AAD7 = some (.post 37 5 3) ∧
    decodeLane 0x9400B7D7 = some (.ecancel 37 3) ∧
    decodeLane 0x9400BFD7 = some (.estat 37 3) := by
  decide

theorem test_decode_system :
    decodeLane 0xED260FE7 = some (.waitc 3 11 9 6 3) ∧
    decodeLane 0x2C0217E7 = some (.bar 2 0xB 3) ∧
    decodeLane 0x2C021FE7 = some (.arrive 2 0xB 3) ∧
    decodeLane 0x2C0227E7 = some (.await 2 0xB 3) ∧
    decodeLane 0x0C002FE7 = some (.rvz 3 3) ∧
    decodeLane 0x2D2037E7 = some (.dqpush 9 0xB 3) ∧
    decodeLane 0x5C0647E7 = some (.csrr 23 6 3) ∧
    decodeLane 0x41404FE7 = some (.csrw 16 10 3) ∧
    decodeLane 0xFC0057E7 = some (.trap 63 3) ∧
    decodeLane 0x00005FE1 = some .tret := by
  decide

theorem test_decode_atomic :
    decodeLane 0xB52772E7 = some (.redx 2 13 9 7 5 3) ∧
    decodeLane 0x1928BAE7 = some (.atom 1 true 7 9 8 5 3) ∧
    decodeLane 0xE526BAE7 = some (.atomm 14 false 7 9 6 5 3) ∧
    decodeLane 0x1C1E07E7 = some (.sleept 254 3) ∧
    decodeLane 0x1C1F3FE7 = some (.dqpop 255 3) ∧
    decodeLane 0x18F862E7 = some (.spill 216 7 5 3) ∧
    decodeLane 0x00E16FE7 = some (.fill 1 7 15 3) ∧
    decodeLane 0x19257FE7 = some (.movS 197 9 3) := by
  decide

theorem test_decode_chain :
    decodeChain 0x02CE8000 = some (.chainFadd 5 9 13) ∧
    decodeChain 0x0ACE8000 = some (.chainFsub 5 9 13) ∧
    decodeChain 0x12CE8000 = some (.chainFmul 5 9 13) ∧
    decodeChain 0x1ACEB800 = some (.chainFfma 5 9 13 7) ∧
    decodeChain 0x22CE8000 = some (.chainFmin 5 9 13) ∧
    decodeChain 0x2ACE8000 = some (.chainFmax 5 9 13) ∧
    decodeChain 0x32C80000 = some (.chainFex2 5 9) ∧
    decodeChain 0x3AC80000 = some (.chainFlg2 5 9) ∧
    decodeChain 0x42C80000 = some (.chainFrcp 5 9) ∧
    decodeChain 0x4AC80000 = some (.chainFrsq 5 9) ∧
    decodeChain 0x52C80000 = some (.chainFsqrt 5 9) ∧
    decodeChain 0x5ACEB800 = some (.chainSel 5 9 13 7) ∧
    decodeChain 0x62C80000 = some (.sumr 5 9) ∧
    decodeChain 0x6AC80000 = some (.maxr 5 9) ∧
    decodeChain 0x74C8004E = some (.outq 1 9 4 14) ∧
    decodeChain 0x7AC80000 = some (.chainMov 5 9) := by
  decide
/-- Matrix words written out from R228's fields, an operation code in bits [63:60]. -/
theorem test_decode_matrix :
    decodeMatrix 0x0A9C800000000000 = some (.mcfg 10 9 200) ∧
    decodeMatrix 0x1A94000089ABCDEF = some (.mload 2 0xA5 0x89ABCDEF) ∧
    decodeMatrix 0x2B00000000000000 = some (.mma 5 true) ∧
    decodeMatrix 0x3D32D234FEDC0000 = some (.mdrain 6 9 4 true 3 false 0x1234 0xFEDC0000) ∧
    decodeMatrix 0x4400BEEF12345678 = some (.mwait 1 0xBEEF 0x12345678) ∧
    decodeMatrix 0x586AF00000010000 = some (.mstep 33 0xABC 0x00010000) := by
  decide

/-- One step of each collective operation, written out from R347's words. -/
theorem test_decode_collective :
    decodeStep 0xCAFE00000000000000001000123456789ABCDEF00000BEE0000DA400 =
      some (.send ⟨true, 0x5A4, 0, 0, 0xBEE0, 0x123456789ABCDEF0, 0x1000, 0xCAFE0000⟩) ∧
    decodeStep 0xCAFE00010000000000001001123456789ABCDEF00000BEE1000DA551 =
      some (.recv ⟨true, 0x5A5, 1, 1, 0xBEE1, 0x123456789ABCDEF0, 0x1001, 0xCAFE0001⟩) ∧
    decodeStep 0xCAFE00020000000000001002123456789ABCDEF00000BEE2000DA6A2 =
      some (.recvadd ⟨true, 0x5A6, 2, 2, 0xBEE2, 0x123456789ABCDEF0, 0x1002, 0xCAFE0002⟩) ∧
    decodeStep 0xCAFE00030000000000001003123456789ABCDEF00000BEE3000DA733 =
      some (.waitw ⟨true, 0x5A7, 0, 3, 0xBEE3, 0x123456789ABCDEF0, 0x1003, 0xCAFE0003⟩) ∧
    decodeStep 0xCAFE00040000000000001004123456789ABCDEF00000BEE4000DA844 =
      some (.signal ⟨true, 0x5A8, 1, 0, 0xBEE4, 0x123456789ABCDEF0, 0x1004, 0xCAFE0004⟩) ∧
    decodeStep 0xCAFE00050000000000001005123456789ABCDEF00000BEE5000DA995 =
      some (.sparse ⟨true, 0x5A9, 2, 1, 0xBEE5, 0x123456789ABCDEF0, 0x1005, 0xCAFE0005⟩) ∧
    decodeStep 0xCAFE00060000000000001006123456789ABCDEF00000BEE6000DAA26 =
      some (.recvsparse ⟨true, 0x5AA, 0, 2, 0xBEE6, 0x123456789ABCDEF0, 0x1006, 0xCAFE0006⟩) ∧
    decodeStep 0xCAFE00070000000000001007123456789ABCDEF00000BEE7000DAB77 =
      some (.endStep ⟨true, 0x5AB, 1, 3, 0xBEE7, 0x123456789ABCDEF0, 0x1007, 0xCAFE0007⟩) := by
  decide

theorem test_ill_formed_flag : ([
    .add 0 1 2 12 0, .fadd 0 1 2 14 0, .frcp 0 1 15 0, .fcos 0 1 12 0, .ld 0 0 0 2 15 0, .st 0 0 0 2 13 0,
    .lds 0 0 2 15 0, .ldsS 0 0 0 15 0, .sts 0 0 2 12 0, .ldmx 0 0 0 5 15 0, .stmx 0 0 0 5 12 0,
    .cload 0 0 0 12 0, .copy 0 0 0 13 0, .coll 0 0 14 0, .chain 0 0 0 12 0, .post 0 12 0, .spill 1 0 12 0,
    .redx 0 0 0 0 12 0, .atom 0 false 0 0 0 12 0, .atomm 0 false 0 0 0 12 0, .shflXor 0 0 0 false 12 0,
    .redux 0 0 0 12 0] : List Instr).all (fun i => !i.wf) = true := by
  decide

theorem test_ill_formed_pair : ([
    .add64 1 2 4 15 0, .sub64 2 3 4 15 0, .mad64 2 4 5 15 0, .add64U 1 2 4 0, .mad64U 2 4 255 0,
    .voteBallot 3 1 15 0, .matchAny 5 1 15 0, .csrr 0 1 0, .csrw 16 7 0, .sleept 3 0, .ld 1 0 0 3 0 0,
    .ld 2 0 0 4 0 0, .st 6 0 0 4 15 0, .sts 9 0 3 15 0, .ldmx 1 0 0 5 0 0, .atom 1 false 0 0 3 15 0,
    .atom 1 true 0 0 6 15 0, .atomm 2 true 0 0 7 15 0] : List Instr).all (fun i => !i.wf) = true := by
  decide

theorem test_ill_formed_field : ([
    .sel 0 1 2 3 15 0, .selU 0 1 2 3 0, .cvt 27 0 1 15 0, .cvtsr 9 0 1 15 0, .cvtsr 27 0 1 15 0,
    .unpk 4 0 1 15 0, .unpk 10 0 1 15 0, .addA16 0 0, .waitf 0, .stall 0, .braN 0 4 0, .fork 0 0 0, .rvz 0 0,
    .bar 0 0 0, .arrive 15 0 0, .await 3 0 0, .dqpush 0 0 0, .redux 11 0 0 15 0, .csrr 0x0C 0 0, .csrw 0x0F 0 0,
    .csrr 0x18 0 0, .spill 0 0 15 0, .fill 217 0 15 0, .copy 63 0 0 15 0, .redx 3 0 0 0 15 0, .redx 0 14 0 0 15 0] : List Instr).all (fun i => !i.wf) = true := by
  decide

theorem test_ill_formed_memory : ([
    .ld 0 0 0 5 0 0, .ldS 0 0 0 2 0 0, .ldsS 0 0 2 0 0, .ldmx 0 0 0 4 0 0, .stmx 0 15 0 5 15 0, .pref 0 0 5 0,
    .cload 15 0 0 15 0, .cnarrow 15 0 0 0, .cnarrow 0 0 2 0, .crestr 15 0 0 0, .cget 0 0 7 0, .cseal 15 0 0 0,
    .csealUn 15 0 0 0, .ctestIn 0 0 0 5 0, .atom 15 false 0 0 0 15 0, .atom 3 true 0 0 0 15 0,
    .atomm 11 true 0 0 0 15 0] : List Instr).all (fun i => !i.wf) = true := by
  decide

theorem test_ill_formed_engine_word : ([
    .mcfg 0 0 0, .mcfg 14 0 1, .mcfg 8 2 1, .mcfg 7 0 1, .mcfg 13 8 1, .mdrain 0 0 5 true 0 true 0 0,
    .mdrain 0 0 0 true 5 true 0 0, .mdrain 0 0 0 false 0 true 1 0, .mwait 2 0 0, .mwait 0 0 4, .mstep 0 1 0,
    .chainFadd 0 15 0, .chainFsub 0 0 15, .chainFfma 0 0 0 15, .chainFrcp 0 15, .chainSel 0 0 15 0, .sumr 0 15,
    .maxr 0 15, .chainMov 0 15, .outq 0 15 0 0, .outq 0 0 5 0, .outq 0 0 0 15,
    .send ⟨false, 0, 3, 0, 0, 0, 0, 0⟩, .endStep ⟨false, 0, 3, 0, 0, 0, 0, 0⟩] : List Instr).all (fun i => !i.wf) = true := by
  decide

/-! ### Witnesses: the states -/

/-- Two lanes of a group, the second with values in its registers. -/
def lane0 : Lane := { v := [(2, 1)], pc := 0x1000 }
def lane1 : Lane := { v := [(0, 0xFFFFFFFF), (1, 0x80000000), (2, 5)], p1 := true, pc := 0x1000, path := 0 }

/-- A capability of DRAM bytes 0x10000 to 0x1FFFF with every permission, DEVICE scope. -/
def rootCap : Cap := ((mintRoot 0x10000 0x10000 0x7FF 1).getD {})

def demoGroup : Group :=
  { team := 1, width := 2, arch := { lanes := [lane0, lane1], slices := [{}], sregs := [(200, 7)] }
    caps := rootCap :: List.replicate 14 {} ++ [rootCap], tvec := 0x4000 }

def demoTeam : Team := { launch := 3, groups := [2], ssize := 0x1000, ctx := { keyId := 1 } }

/-- A convoy of lanes ms of one group, at an instruction. -/
def withGroup (g : Group) (ms : List Nat) : State :=
  { State.reset with cur := .convoy 2 ms, groups := [(2, g)], teams := [(1, demoTeam)], launches := [(3, {})], nextId := 9 }

def demo : State := withGroup demoGroup [0, 1]

theorem demo_plain : Plain demo 2 [0, 1] demoGroup := by
  constructor <;> decide

theorem demo_whole (short : Bool) (stall flag : Nat) : Whole demoGroup short stall flag :=
  ⟨fun _ h => absurd h List.not_mem_nil, fun _ => by decide +revert⟩

theorem demo_resident (rs : List Nat) : Resident demoGroup [0, 1] rs := by
  intro i hi r _ _
  have : i = 0 ∨ i = 1 := by simpa using hi
  rcases this with rfl | rfl <;> simp [Group.lane, demoGroup, lane0, lane1]

/-! ### Witnesses: lane instructions -/

theorem witness_integer_results :
    Plain demo 2 [0, 1] demoGroup ∧ Whole demoGroup false 7 11 ∧ Whole demoGroup false 0 15 ∧ Whole demoGroup true 0 15 ∧
      Resident demoGroup [0, 1] [31, 0, 31] :=
  ⟨demo_plain, demo_whole .., demo_whole .., demo_whole .., demo_resident _⟩

/-- Each function's hypotheses at the ends of their ranges: bits 0 and 31, no leading zero and 31 of them. -/
theorem witness_bit_results :
    Plain demo 2 [0, 1] demoGroup ∧ Whole demoGroup false 7 11 ∧ Resident demoGroup [0, 1] [31, 0, 31] ∧
      2 ^ (31 - 0) ≤ (0xFFFFFFFF#32).toNat ∧ (0xFFFFFFFF#32).toNat < 2 ^ (32 - 0) ∧ 2 ^ (31 - 31) ≤ (1#32).toNat ∧
      (1#32).toNat < 2 ^ (32 - 31) ∧ (0x80000000#32).getLsbD 31 = true ∧ (1#32).getLsbD 0 = true :=
  ⟨demo_plain, demo_whole .., demo_resident _, by decide⟩

theorem witness_wide_and_compare_results :
    (Instr.add64 30 0 30 11 7).wf = true ∧ (Instr.mad64U 0 30 254 7).wf = true ∧ Plain demo 2 [0, 1] demoGroup ∧
      Whole demoGroup false 7 11 ∧ Resident demoGroup [0, 1] [30, 31, 0, 1, 30, 31] :=
  ⟨by decide, by decide, demo_plain, demo_whole .., demo_resident _⟩

/-- No condition is enabled in FPCSR 0; FADD of 1 and -1 in a group that enables nothing. -/
theorem witness_fp32_results :
    Plain demo 2 [0, 1] demoGroup ∧ Whole demoGroup false 0 11 ∧ Resident demoGroup [0, 1] [0, 1, 2] ∧
      (∀ i ∈ [0, 1], (fpAdd demoGroup.arch.fpcsr ((demoGroup.lane i).reg 0) ((demoGroup.lane i).reg 1) 0).2 &&&
        fpEnabled demoGroup.arch.fpcsr = 0) ∧
      (∀ i ∈ [0, 1], (fpCompare 7 demoGroup.arch.fpcsr ((demoGroup.lane i).reg 0) ((demoGroup.lane i).reg 1)).2 &&&
        fpEnabled demoGroup.arch.fpcsr = 0) :=
  ⟨demo_plain, demo_whole .., demo_resident _, by decide, by decide⟩

theorem witness_packed_and_conversion_results :
    Plain demo 2 [0, 1] demoGroup ∧ Whole demoGroup false 0 11 ∧ Resident demoGroup [0, 1] [0, 2] ∧
      (∀ i ∈ [0, 1], (dotInt 4 8 demoGroup.arch.fpcsr ((demoGroup.lane i).reg 0) ((demoGroup.lane i).reg 1) 0).2 &&&
        fpEnabled demoGroup.arch.fpcsr = 0) ∧
      (∀ i ∈ [0, 1], (cvt 8 (.sr (srdraw demoGroup.arch.srseed (demoGroup.laneId i) (demoGroup.lane i).convCount.toNat))
        (fpFtz demoGroup.arch.fpcsr) ((demoGroup.lane i).reg 2)).2 &&& fpEnabled demoGroup.arch.fpcsr = 0) :=
  ⟨demo_plain, demo_whole .., demo_resident _, by decide, by decide⟩

/-- A group that enables every condition, whose lane 0 adds an infinity and its negative. -/
def fpGroup : Group := { demoGroup with arch := { demoGroup.arch with fpcsr := 0xFFFF, lanes := [{ v := [(1, 0x7F800000), (2, 0xFF800000)] }, {}] } }

/-- The least NaN and the largest value that is none; and an enabled condition raised. -/
theorem witness_fp_value_rules :
    (Fmt.fp32.decode (0x7F800001#32).toNat).isNan = true ∧ (Fmt.fp32.decode (0x7F800000#32).toNat).isNan = false ∧
      (Fmt.bf16.decode (0x7F80#16).toNat).isNan = false ∧ (Fmt.fp16.decode (0x7C00#16).toNat).isNan = false ∧
      (0x7FFF#16).getLsbD 15 = false ∧ Plain (withGroup fpGroup [0, 1]) 2 [0, 1] fpGroup ∧ Whole fpGroup false 0 15 ∧
      fpGroup.trapMode = false ∧
      (∃ i ∈ [0, 1], (fpAdd fpGroup.arch.fpcsr ((fpGroup.lane i).reg 1) ((fpGroup.lane i).reg 2) 0).2 &&& fpEnabled fpGroup.arch.fpcsr ≠ 0) :=
  ⟨by decide, by decide, by decide, by decide, by decide, by constructor <;> decide, ⟨by decide, by decide⟩, rfl, by decide⟩

/-- With `.z`, without an inactive source, and with one: lane 1 alone, which names lane 0. -/
theorem witness_cross_lane_results :
    Plain demo 2 [0, 1] demoGroup ∧ Whole demoGroup false 0 11 ∧ Resident demoGroup [0, 1] [30, 31, 2] ∧
      ([0, 1].filter (fun i => decide (((demoGroup.lane i).reg 9).toNat % demoGroup.width ≠ i ∧
        ((demoGroup.lane i).reg 9).toNat % demoGroup.width ∉ [0, 1]))) = [] ∧
      Plain (withGroup demoGroup [1]) 2 [1] demoGroup ∧ demoGroup.trapMode = false ∧
      ([1].filter (fun i => decide (((demoGroup.lane i).reg 9).toNat % demoGroup.width ≠ i ∧
        ((demoGroup.lane i).reg 9).toNat % demoGroup.width ∉ [1]))) ≠ [] ∧
      ((sumTree (reduxOp 0 demoGroup.arch.fpcsr) ((List.range demoGroup.width).map (fun i => some ((demoGroup.lane i).reg 2, [(i, 0)]))) 6).map
        (fun y => (y.1, y.2.all (fun e => e.2 &&& fpEnabled demoGroup.arch.fpcsr == 0)))) = some (6, true) ∧
      ([none, some (1#32)] : List (Option Word)).any Option.isSome = true :=
  ⟨demo_plain, demo_whole .., demo_resident _, by decide, by constructor <;> decide, rfl, by decide, by decide, by decide⟩

/-- Lanes whose registers hold return addresses, windows full and not, and odd targets. -/
def callGroup : Group := { demoGroup with arch := { demoGroup.arch with lanes := [{ pc := 0x1000, wbase := 0, scap := 24 }, { pc := 0x1000, wbase := 0, scap := 24 }] } }
def roomyGroup : Group := { demoGroup with arch := { demoGroup.arch with
  lanes := [{ v := [(23, 0x40)], pc := 0x1000, wbase := 16, scap := 56 }, { v := [(23, 0x40)], pc := 0x1000, wbase := 16, scap := 56 }] } }

/-- Each clause: a call with room and one that overflows by the least amount, a return with a frame and without, an even and an odd target. -/
theorem witness_branch_and_call_results :
    Plain demo 2 [0, 1] demoGroup ∧ Whole demoGroup false 7 15 ∧ Resident demoGroup [0, 1] [1] ∧
      (∀ i ∈ [0, 1], ((demoGroup.lane i).reg 1).toNat % 2 = 0) ∧
      [0, 1].filter (fun j => decide (((demoGroup.lane j).reg 2).toNat % 2 = 1)) = 0 :: [1] ∧ demoGroup.trapMode = false ∧
      Plain (withGroup roomyGroup [0, 1]) 2 [0, 1] roomyGroup ∧ Whole roomyGroup false 0 15 ∧ Whole roomyGroup true 0 15 ∧
      (∀ i ∈ [0, 1], let l := roomyGroup.lane i
        l.wbase + 16 + 24 ≤ 65536 ∧ l.wbase + 16 + 24 ≤ l.resbase + l.scap ∧ l.resbase ≤ l.wbase + 16 - 1) ∧
      (∀ j ∈ [0, 1], let l := roomyGroup.lane j; 16 ≤ l.wbase ∧ l.resbase ≤ l.wbase - 16 ∧ (l.position (l.wbase - 1)).toNat % 2 = 0) ∧
      Plain (withGroup callGroup [0, 1]) 2 [0, 1] callGroup ∧ Whole callGroup false 0 15 ∧
      [0, 1].filter (fun i => (((callGroup.lane i).callFail 8).isSome)) = 0 :: [1] ∧
      (∀ j ∈ [0, 1], let l := callGroup.lane j; l.wbase + 8 + 24 ≤ 65536 ∧ l.resbase + l.scap < l.wbase + 8 + 24) ∧
      (∀ j ∈ [0, 1], (callGroup.lane j).wbase < 8) := by
  refine ⟨demo_plain, demo_whole .., demo_resident _, by decide, by decide, rfl, ?_, ⟨by decide, by decide⟩, ⟨by decide, by decide⟩, by decide,
    by decide, ?_, ⟨by decide, by decide⟩, by decide, by decide, by decide⟩ <;> constructor <;> decide

/-- A launch with one meld region, at the next instruction; a group inside it at its last position. -/
def meldState (g : Group) (ms : List Nat) : State :=
  { withGroup g ms with launches := [(3, { melds := [{ count := 1, start := 0x1004, list0 := [(0, 1)], list1 := [(0, 1)] }] })] }
def meldGroup : Group := { demoGroup with arch := { demoGroup.arch with
  lanes := [{ pc := 0x1004, meld := some { region := 0, position := 0, path := false, convoy := 0 } }] } }

theorem witness_meld_results :
    (let s := meldState demoGroup [0, 1]
     Plain s 2 [0, 1] demoGroup ∧ Whole demoGroup false 7 15 ∧ Whole demoGroup true 0 15 ∧ demoGroup.trapMode = false ∧
      (∃ d, (s.launchOf demoGroup).melds[0]? = some d ∧ d.count ≠ 0 ∧
        BitVec.ofNat 57 ((s.teamOf demoGroup).codebase + d.start) = pcOf demoGroup [0, 1] + 4) ∧
      (s.launchOf demoGroup).melds[1]? = none) ∧
    (let s := meldState meldGroup [0]
     s.cur = .convoy 2 [0] ∧ look s.groups 2 = some meldGroup ∧ Whole meldGroup true 0 15 ∧
      ∃ d m, (meldGroup.lane 0).meld = some m ∧ (s.launchOf meldGroup).melds[m.region]? = some d ∧ d.count = m.position + 1 ∧ d.code m.position = 0) := by
  refine ⟨⟨by constructor <;> decide, demo_whole .., demo_whole .., rfl, ⟨_, rfl, by decide, by decide⟩, rfl⟩, rfl, rfl, ⟨by decide, by decide⟩,
    ⟨_, _, rfl, rfl, by decide, by decide⟩⟩

/-- A group in trap mode, both lanes of its convoy at the handler. -/
def trapGroup : Group := { demoGroup with
  trapMode := true, tpc := 0x1004, arch := { demoGroup.arch with lanes := [{ pc := 0x4000, tmeld := { conv := true } }, { pc := 0x4000, tmeld := { conv := true } }] } }

theorem witness_simple_and_csr_results :
    Plain demo 2 [0, 1] demoGroup ∧ Whole demoGroup true 0 15 ∧ Whole demoGroup false 7 15 ∧ (Instr.csrr 0x17 30 7).wf = true ∧
      Resident demoGroup [0, 1] [30, 31] ∧ (Instr.csrw 8 2 7).wf = true ∧ (Instr.csrw 0x10 2 7).wf = true ∧ demoGroup.trapMode = false ∧
      Plain (withGroup trapGroup [0, 1]) 2 [0, 1] trapGroup ∧ Whole trapGroup false 7 15 ∧ (Instr.csrw 0x15 2 7).wf = true ∧
      trapGroup.trapMode = true ∧ 0 ∈ slicesOf [0, 1] ∧ (∃ sl, demoGroup.arch.slices[0]? = some sl) := by
  refine ⟨demo_plain, demo_whole .., demo_whole .., by decide, demo_resident _, by decide, by decide, rfl, by constructor <;> decide,
    ⟨by decide, by decide⟩, by decide, rfl, by decide, ⟨_, rfl⟩⟩

theorem witness_trap_and_return :
    Plain demo 2 [0, 1] demoGroup ∧ Whole demoGroup false 7 15 ∧ demoGroup.trapMode = false ∧ Plain (withGroup trapGroup [0, 1]) 2 [0, 1] trapGroup ∧
      Whole trapGroup false 0 15 ∧
      (∀ i < 2, (trapGroup.lane i).tmeld.conv = true → (trapGroup.lane i).exited = false → i ∈ [0, 1] ∨ (trapGroup.lane i).atTret = true) ∧
      (∀ i ∈ [0, 1], (trapGroup.lane i).tmeld.conv = true ∧ (trapGroup.lane i).tmeld.inRegion = false ∧ (trapGroup.lane i).exited = false) ∧
      (∀ i < 2, (trapGroup.lane i).tmeld.conv = true → (trapGroup.lane i).tmeld.inRegion = false) := by
  refine ⟨demo_plain, demo_whole .., rfl, by constructor <;> decide, ⟨by decide, by decide⟩, by decide, by decide, by decide⟩

/-- Flags 3 and 5 stand; flag 5 with its fault. -/
def waitGroup : Group := { demoGroup with
  flags := [(3, 1)], faultBits := [(5, 0x11)]
  arch := { demoGroup.arch with
    sregs := [(4, 0x100), (5, 0)], bound := [(6, 40)]
    lanes := [{ pc := 0x1000, park := some (.sleept 6) }, { pc := 0x1000, park := some .waitc }] } }
theorem witness_wait_results :
    (let s := withGroup waitGroup [0, 1]
     Plain s 2 [0, 1] waitGroup ∧ Whole waitGroup true 0 15 ∧ Whole waitGroup false 7 15 ∧
      (∀ i < 12, (0xDD7#12).getLsbD i = true → waitGroup.flag i = 0 ∧ look waitGroup.faultBits i = none) ∧
      (∃ i < 12, (0xFFF#12).getLsbD i = true ∧ waitGroup.flag i ≠ 0 ∧ waitGroup.settle.flag i ≠ 0) ∧
      (∀ i < 12, (0x020#12).getLsbD i = true → waitGroup.flag i = 0 ∧ (i ≠ 5 → look waitGroup.faultBits i = none)) ∧
      look waitGroup.faultBits 5 = some 0x11 ∧ waitGroup.trapMode = false ∧
      s.partClock 0 < (spairOf waitGroup 4).toNat ∧ (spairOf waitGroup 6).toNat ≤ s.partClock 0 ∧
      waitGroup.arch.bound.find? (fun b => b.1 == 6) = some (6, 40) ∧ look s.ops 40 = none ∧
      (look ({ s with ops := [(40, { core := 0, team := 1, gid := 2, flag := 15, kind := .copy {}, ctx := {} })] } : State).ops 40).isSome = true ∧
      (waitGroup.lane 0).park = some (.sleept 6) ∧ waitGroup.spair 6 ≤ s.partClock 0 ∧ (waitGroup.lane 1).park = some .waitc) ∧
    (let s := withGroup demoGroup [0]
     let x := issueAt { vr := [9, 10], rule := .forbidden, drain := true, mem := true } s 2 [0] demoGroup
     Plain s 2 [0] demoGroup ∧ Whole demoGroup false 0 15 ∧ Resident demoGroup [0] [9, 10] ∧ (demoGroup.lane 0).park = none ∧
      ∃ r f, localWord (x.viaCap (demoGroup.cap 0) 0 0 0 (((demoGroup.lane 0).reg 9).toNat * 4) 4 permR .read 4 .load) = .ok (r, f) ∧ r.lane = 0 ∧
        (let got := x.s.obtainReads x.team.core [r]
         got.2 = true ∧ got.1.groups = s.groups ∧ got.1.mem.isBad r.loc 4 = false)) := by
  refine ⟨⟨by constructor <;> decide, ⟨by decide, by decide⟩, ⟨by decide, by decide⟩, by decide, by decide, by decide, rfl, rfl, by decide, by decide,
    by decide, rfl, rfl, rfl, by decide, rfl⟩, by constructor <;> decide, demo_whole .., fun i h => demo_resident _ i (by simp_all), rfl,
    _, _, rfl, rfl, by decide, by decide, by decide⟩

/-! ### Witnesses: synchronisation and memory -/

/-- A group of one lane, role 0, and the team it makes up. -/
def soloGroup : Group :=
  { team := 1, width := 16, arch := { lanes := [{ v := [(9, 3)], pc := 0x1000 }], slices := [{}], sregs := [(24, 0x30), (40, 8), (41, 0), (42, 4), (43, 0)] }
    caps := rootCap :: List.replicate 13 {} ++ [rootCap, rootCap], tvec := 0x4000 }
def soloTeam : Team := { demoTeam with groups := [2] }
def withTeam (g : Group) (t : Team) (ms : List Nat) : State := { withGroup g ms with teams := [(1, t)] }
def solo : State := withTeam soloGroup soloTeam [0]

theorem solo_plain : Plain solo 2 [0] soloGroup := by constructor <;> decide

theorem solo_whole (short : Bool) (stall flag : Nat) : Whole soloGroup short stall flag :=
  ⟨fun _ h => absurd h List.not_mem_nil, fun _ => by decide +revert⟩

theorem solo_resident (rs : List Nat) : Resident soloGroup [0] rs := by
  intro i hi r _ _
  obtain rfl : i = 0 := by simpa using hi
  simp [Group.lane, soloGroup]

/-- Phase 0 with no arrival, which the lane has not seen; and phase 16, which it has. -/
theorem witness_barrier_results :
    Alone solo 2 soloGroup soloTeam ∧ Whole soloGroup false 7 15 ∧ (1#4).getLsbD soloGroup.role = true ∧ (soloTeam.barrier 15).mask = 0 ∧
      (soloTeam.barrier 15).arrived = [] ∧ (soloGroup.lane 0).park = none ∧
      (soloTeam.barrier 15).phase.toNat % 16 = lookD (soloGroup.lane 0).awaited 15 0 ∧
      (let t : Team := { soloTeam with barriers := [(15, { mask := 1, phase := 15 })] }
       Alone (withTeam soloGroup t [0]) 2 soloGroup t ∧ (t.barrier 15).mask = 1 ∧
        (t.barrier 15).phase.toNat % 16 ≠ lookD (soloGroup.lane 0).awaited 15 0) := by
  refine ⟨⟨rfl, solo_plain, rfl, rfl, rfl, rfl, rfl⟩, solo_whole .., by decide, rfl, rfl, rfl, by decide, ⟨rfl, ?_, rfl, rfl, rfl, rfl, rfl⟩, rfl, by decide⟩
  constructor <;> decide

def guideGroup : Group := { soloGroup with isGuide := true }
/-- A guide beside a group of role 0, with room in its queue, and with a full queue. -/
def guideTeam (n : Nat) : Team := { demoTeam with groups := [4], guide := some 2, dq := List.replicate n { seq := 0, value := 5, mask := 1 }, dqCount := n }
def guideState (n : Nat) : State :=
  { withTeam guideGroup (guideTeam n) [0] with groups := [(2, guideGroup), (4, soloGroup)] }

theorem witness_queue_and_end_results :
    (∀ n ∈ [63, 64], Plain (guideState n) 2 [0] guideGroup) ∧ Whole guideGroup false 7 15 ∧ Resident guideGroup [0] [31] ∧
      look (guideState 63).teams guideGroup.team = some (guideTeam 63) ∧ (guideTeam 63).dq.length < 64 ∧ 64 ≤ (guideTeam 64).dq.length ∧
      ((guideState 63).groupsOf (guideTeam 63)).any (fun e => e.2.inRole 1 && !e.2.unexited.isEmpty && decide (e.2.popped ≤ (guideTeam 63).dqCount)) = true ∧
      guideGroup.isGuide = true ∧ soloGroup.isGuide = false ∧
      (let t : Team := { soloTeam with dq := [{ seq := 0, value := 5, mask := 1 }], dqCount := 1 }
       Alone (withTeam soloGroup t [0]) 2 soloGroup t ∧
        ∃ d, t.dq.find? (fun d => soloGroup.inRole d.mask && decide (soloGroup.arch.dqPos ≤ d.seq)) = some d) ∧
      (let t : Team := { soloTeam with seqs := [{}, { state := 2 }, { state := 4, cause := 0x38, fault := some 0x38 }] }
       Plain (withTeam soloGroup t [0]) 2 [0] soloGroup ∧ (∀ n ∈ seqsIn 1, t.busyOn n = false ∧ (t.seq n).fault = none) ∧
        (∃ n ∈ seqsIn 7, t.busyOn n = true) ∧ seqsIn 4 = [2] ∧ t.busyOn 2 = false ∧ (t.seq 2).fault = some 0x38 ∧ soloGroup.trapMode = false) ∧
      (let s := withTeam demoGroup { demoTeam with guide := none } [0]
       Plain s 2 [0] demoGroup ∧ (demoGroup.lane 1).exited = false ∧ 1 ∉ [0] ∧ (∀ i < 2, (demoGroup.lane i).park = none)) := by
  refine ⟨fun n hn => ?_, ⟨by decide, by decide⟩, ?_, rfl, by decide, by decide, by decide, rfl, rfl, ⟨⟨rfl, ?_, rfl, rfl, rfl, rfl, rfl⟩, _, rfl⟩,
    ⟨?_, by decide, by decide, by decide, by decide, rfl, rfl⟩, ?_, rfl, by decide, by decide⟩
  · have : n = 63 ∨ n = 64 := by simpa using hn
    rcases this with rfl | rfl <;> constructor <;> first | rfl | decide
  · exact fun i hi r hr h => solo_resident [31] i hi r hr h
  all_goals constructor <;> decide

/-- The accesses whose checks passed. -/
def passed (l : List (Nat × Checked)) : List (Req × Option Found) :=
  l.filterMap (fun e => match e.2 with
    | .ok r => some r
    | .error _ => none)

/-- Every access of a list is granted, under one key, each lane has one, and nothing moves. -/
def grants (x : Issue) (l : List (Nat × Checked)) (key : Nat) (lanes : List Nat) : Prop :=
  Granted x l (passed l) key ∧ (∀ n ∈ lanes, ∃ r ∈ passed l, r.1.lane = n) ∧ (∀ r ∈ passed l, ∀ f, r.2 = some f → f.ad = none) ∧
    memBefore x (passed l) = x.s.mem

def loadX : Issue := issueAt (loadAs 31 9 2 11 7) solo 2 [0] soloGroup
def storeX : Issue := issueAt (storeAs 31 9 2 11 7) solo 2 [0] soloGroup

theorem witness_load_store_results :
    Plain solo 2 [0] soloGroup ∧ Whole soloGroup false 7 11 ∧ Resident soloGroup [0] (9 :: valueRegs 31 2) ∧ soloGroup.partdone = 0 ∧
      grants loadX (capReqs 0 9 2 permR .read (fun _ => .load) loadX) 0 [0] ∧
      grants storeX (capReqs 0 9 2 permW .write (fun l => .store (storeData l 31 2)) storeX) 0 [0] ∧
      grants loadX (scratchReqs 8 2 (fun _ => .load) loadX) 0 [0] ∧
      grants storeX (scratchReqs 8 2 (fun l => .store (storeData l 31 2)) storeX) 0 [0] := by
  refine ⟨solo_plain, solo_whole .., solo_resident _, rfl, ?_, ?_, ?_, ?_⟩ <;>
    exact ⟨⟨rfl, by decide, by decide, by decide, by decide, by decide, by decide, by decide, by decide⟩, by decide, by decide, by decide⟩

theorem witness_mx_results :
    let fm : Form := { vr := [9], vw := [30, 31], wide := [(30, 2)], varLat := true, flag := 11, stall := 7, mem := true }
    let fs : Form := { vr := [9, 30, 31], wide := [(30, 2)], varLat := true, flag := 11, stall := 7, mem := true }
    let x := issueAt fm solo 2 [0] soloGroup
    let y := issueAt fs solo 2 [0] soloGroup
    Plain solo 2 [0] soloGroup ∧ Whole soloGroup false 7 11 ∧ Resident soloGroup [0] [9, 30, 31] ∧
      grants x (x.act.flatMap (fun l => x.mxReqs 14 9 6 l permR .read [] 0)) 0 [0] ∧
      grants y (y.act.flatMap (fun l => y.mxReqs 14 9 6 l permW .write (mxPack 6 ((y.g.lane l).reg 30)) (((y.g.lane l).reg 31).truncate 8))) 0 [0] := by
  refine ⟨solo_plain, solo_whole .., solo_resident _, ?_, ?_⟩ <;>
    exact ⟨⟨rfl, by decide, by decide, by decide, by decide, by decide, by decide, by decide, by decide⟩, by decide, by decide, by decide⟩

theorem witness_atom_results :
    let x := issueAt (atomForm 14 28 9 11 7 false) solo 2 [0] soloGroup
    (Instr.atom 14 false 0 9 28 11 7).wf = true ∧ (Instr.atom 1 true 0 9 28 11 7).wf = true ∧ Plain solo 2 [0] soloGroup ∧
      Whole soloGroup false 7 11 ∧ Resident soloGroup [0] (9 :: atomRegs 14 28 false) ∧
      grants x (atomicReqs 14 0 9 28 false false (permR + permW + permATOM) x) 0 [0] := by
  refine ⟨by decide, by decide, solo_plain, solo_whole .., solo_resident _, ?_⟩
  exact ⟨⟨rfl, by decide, by decide, by decide, by decide, by decide, by decide, by decide, by decide⟩, by decide, by decide, by decide⟩

/-- Capabilities to derive from: the root of 64 KiB, one that seals type 1, one sealed with it. -/
def sealer : Cap := (mintRoot 1 2 0x1FF 1).getD {}
def sealedCap : Cap := ((sealCap rootCap sealer).toOption).getD {}
/-- In s24 to s27 the whole of the root; in s40 the mask of every permission and the widest scope. -/
def capGroup : Group := { soloGroup with
  arch := { soloGroup.arch with sregs := [(24, 0x10000), (26, 0x10000), (28, 0x20000), (30, 1), (40, 0x1FF)] }
  caps := [rootCap, sealer, sealedCap] ++ List.replicate 13 {} }
def capState : State := withTeam capGroup soloTeam [0]

theorem witness_derivation_results :
    Plain capState 2 [0] capGroup ∧ Whole capGroup false 7 15 ∧ capGroup.trapMode = false ∧ Undisturbed capState 2 ∧
      (∃ c, narrow (capGroup.cap 0) (spairOf capGroup 24).toNat (spairOf capGroup 26).toNat = .ok c) ∧
      (∃ e, narrow (capGroup.cap 0) (spairOf capGroup 28).toNat (spairOf capGroup 30).toNat = .error e) ∧
      (∃ c, restrict (capGroup.cap 0) (capGroup.sreg 40).toNat 0 true = .ok c) ∧
      (∃ c, sealCap (capGroup.cap 0) (capGroup.cap 1) = .ok c) ∧ (∃ c, unsealCap (capGroup.cap 2) (capGroup.cap 1) = .ok c) ∧
      (∃ e, unsealCap (capGroup.cap 0) (capGroup.cap 1) = .error e) := by
  refine ⟨by constructor <;> decide, ⟨by decide, by decide⟩, rfl, ⟨by decide, by decide⟩, ⟨_, rfl⟩, ⟨_, rfl⟩, ⟨_, rfl⟩, ⟨_, rfl⟩, ⟨_, rfl⟩, ⟨_, rfl⟩⟩

/-- Tables of which every level but the last has one pointer, and the last this leaf of 1 GiB. -/
def tables (leaf : List Host.Cell) : Memory :=
  { bytes := [(0x1000000, 0x01), (0x1000001, 0x10), (0x1000003, 0x01), (0x1001000, 0x01), (0x1001001, 0x20), (0x1001003, 0x01)] ++ leaf }

/-- The team of a state whose stage-2 leaf is a capability page, readable, writable, and the state. -/
def pageTeam : Team := { soloTeam with ctx := { keyId := 1, s2en := true, s2root := 0x1000000 } }
def pageState (g : Group) : State := { withTeam g pageTeam [0] with mem := tables [(0x1002000, 0x1F)] }

theorem witness_capability_use_results :
    let s := pageState soloGroup
    let y := issueAt (capForm [24] 11 7 true) s 2 [0] soloGroup
    let z := issueAt { sr := [24], flag := 11, stall := 7, varLat := true, mem := true } s 2 [0] soloGroup
    Plain s 2 [0] soloGroup ∧ Whole soloGroup false 7 11 ∧ Resident soloGroup [0] [31] ∧ s.mem.wf = true ∧
      (∃ r x, y.granuleReq 0 24 permR .capLoad .load = .ok (r, some x) ∧ r.drains = false ∧ x.ad = none ∧
        (let s1 := s.obtainAll (s.teamOf soloGroup).core [r] false
         s1.holdsFor (s.teamOf soloGroup).core [r] false = true ∧ s1.mem.isBad r.loc 16 = false ∧ s1.groups = s.groups)) ∧
      (∃ r x, z.granuleReq 0 24 permW .capStore (.store (toBytes 16 (soloGroup.cap 1).bits.toNat)) = .ok (r, some x) ∧ r.drains = false ∧
        x.ad = none ∧ r.loc % 16 = 0 ∧ r.loc + 16 ≤ scratchBase ∧
        (let s1 := s.obtainAll (s.teamOf soloGroup).core [r] false
         s1.holdsFor (s.teamOf soloGroup).core [r] false = true ∧ s1.mem = s.mem ∧ s1.groups = s.groups)) ∧
      (∀ e ∈ s.groups, e.2.epoch = none) ∧ s.monitors = [] ∧ ¬((soloGroup.cap 0).tag = true ∧ (soloGroup.cap 0).scope = 0) := by
  refine ⟨by constructor <;> decide, solo_whole .., solo_resident _, by decide, ⟨_, _, rfl, rfl, rfl, by decide, by decide, by decide⟩,
    ⟨_, _, rfl, rfl, rfl, by decide, by decide, by decide, by decide, by decide⟩, by decide, rfl, by decide⟩

/-- The first byte past the bounds: a word at the last three bytes of the capability. -/
def edgeGroup : Group := { soloGroup with arch := { soloGroup.arch with lanes := [{ v := [(9, 0x4000)], pc := 0x1000 }] } }
def edgeRequester : Requester := (issueAt {} solo 2 [0] soloGroup).requester

theorem witness_access_checks :
    ({} : Cap).tag = false ∧ sealedCap.tag = true ∧ sealedCap.scope = 3 ∧ solo.inScope edgeRequester sealedCap = true ∧ sealedCap.otype ≠ 0 ∧
      (∃ c, restrict rootCap 0x3FF 0 true = .ok c ∧ c.tag = true ∧ solo.inScope { edgeRequester with cluster := 1 } c = false) ∧
      (solo.checkCap edgeRequester rootCap permR 0xFFFC 4).toOption = some 0x1FFFC ∧
      Plain (withTeam edgeGroup soloTeam [0]) 2 [0] edgeGroup ∧ Whole edgeGroup false 7 11 ∧ edgeGroup.partdone = 0 ∧ edgeGroup.trapMode = false ∧
      (let k := edgeGroup.cap 0
       k.tag = true ∧ k.scope = 3 ∧ k.otype = 0 ∧ k.has permR = true ∧ k.limit < k.base + ((edgeGroup.lane 0).reg 9).toNat * 2 ^ 2 + 2 ^ 2) ∧
      Undisturbed (withTeam edgeGroup soloTeam [0]) 2 := by
  refine ⟨rfl, by decide, by decide, by decide, by decide, ⟨_, rfl, by decide, by decide⟩, by decide, by constructor <;> decide,
    ⟨by decide, by decide⟩, rfl, rfl,
    by decide, by decide, by decide⟩

/-! ### Witnesses: engines -/

/-- Command blocks: s0 a scratch copy of one row of 16 bytes from 0 to 0x100; s8 a fork of all three; s12 a chain with no image to load, its descriptor at 0x200,
and a COLL of sequencer 3; s16 to s28 queries. -/
def engGroup : Group := { soloGroup with arch := { soloGroup.arch with
  sregs := [(0, 0x10C), (2, 0x100), (3, 16), (9, 8), (10, 4), (13, 0x200), (14, 3), (17, 0), (20, 4), (24, 0x600), (28, 5), (32, 4)]
  bound := [(6, 8)] } }
/-- A live copy of the block at s0, whose flag is 0. -/
def copyOp : EngineOp :=
  { core := 0, team := 1, gid := 2, flag := 0, kind := .copy (copyDesc (blockWord engGroup 0)), ctx := soloTeam.ctx, pair := some 6, bytes := 16
    srcs := [{ scratch := true, base := scratchLoc 0 0, len := 16 }], dsts := [{ scratch := true, base := scratchLoc 0 0x100, len := 16 }] }
def engState : State := { withTeam engGroup soloTeam [0] with parts := [(0, { running := some 0 })] }
def copying : State := { engState with ops := [(8, copyOp)] }

theorem eng_plain : Plain engState 2 [0] engGroup := by constructor <;> decide
theorem eng_whole (short : Bool) (stall flag : Nat) : Whole engGroup short stall flag :=
  ⟨fun _ h => absurd h List.not_mem_nil, fun _ => by decide +revert⟩
theorem eng_undisturbed : Undisturbed engState 2 := ⟨by decide, by decide⟩

theorem witness_copy_command_results :
    let d := copyDesc (blockWord engGroup 0)
    (Instr.copy 62 15 0 11 7).wf = true ∧ (Instr.copy 0 15 0 11 7).wf = true ∧ Plain engState 2 [0] engGroup ∧ Whole engGroup false 7 11 ∧
      Undisturbed engState 2 ∧ look engState.teams engGroup.team = some soloTeam ∧ (copyBad (blockWord engGroup 0) false).any id = false ∧
      (∃ srcs dsts, engState.copyRanges (commandFor engState 2 [0] engGroup false) d (engGroup.cap 15) (engGroup.cap 0) = .ok (srcs, dsts) ∧
        engState.blocked soloTeam.ctx srcs dsts (fun _ => false) = false) ∧ engState.hasEntry soloTeam.core true = true ∧ engGroup.waitsBefore [0] = false ∧ engState.ops = [] ∧
      (∀ n t pr, n = 1 → (t = 2 → pr = 1 → pr < t) ∧ (t = 3 → pr = 4 → t ≤ pr ∧ 3 * pr ≤ 4 * t) ∧ (t = 2 → pr = 3 → 4 * t < 3 * pr)) := by
  refine ⟨by decide, by decide, eng_plain, eng_whole .., eng_undisturbed, rfl, by decide, ⟨_, _, rfl, by decide⟩, by decide, rfl, rfl, by omega⟩

/-- For ECANCEL the query at s24 asks for the copy of pair 6. -/
theorem witness_engine_query_results :
    Plain engState 2 [0] engGroup ∧ Whole engGroup false 7 15 ∧ Whole engGroup false 7 11 ∧ (∀ b ∈ engGroup.arch.bound, b.1 ≠ 4 * 1 + 6) ∧
      (∀ b ∈ engGroup.arch.bound, b.1 ≠ 4 * 63 + 6) ∧ engGroup.arch.bound.find? (fun b => b.1 == 4 * 0 + 6) = some (6, 8) ∧
      look copying.ops 8 = some copyOp ∧ Plain copying 2 [0] engGroup ∧
      (queryBad (blockWord engGroup 4 0) [0, 4] = false ∧ blockWord engGroup 4 0 % 8 = 0 ∧ engState.boundTo 2 0 = none) ∧
      (queryBad (blockWord engGroup 5 0) [0, 4] = false ∧ blockWord engGroup 5 0 % 8 = 4 ∧ look engState.colls 0 = none) ∧
      (blockWord engGroup 6 0 % 8 = 0 ∧ blockWord engGroup 6 0 / 256 % 256 = 6 ∧ copying.boundTo 2 6 = some 8 ∧ Undisturbed copying 2 ∧
        copyOp.kind = .copy (copyDesc (blockWord engGroup 0)) ∧ (copyDesc (blockWord engGroup 0)).ssp = true ∧ (copyDesc (blockWord engGroup 0)).dsp = true ∧
        copyOp.gid = 2 ∧ copyOp.team = engGroup.team ∧ copyOp.pair = some 6 ∧ copyOp.program = false ∧ copyOp.flag < 12 ∧
        look copying.teams engGroup.team = some soloTeam ∧ (lookD soloTeam.copies (2 * 256 + 6) {}).forker ≤ 8 ∧ 2 ∈ soloTeam.groups ∧
        (engGroup.lane 0).exited = false) ∧
      queryBad (blockWord engGroup 5 0) [0, 1, 2, 3, 4] = false ∧
      (let y := issueAt { sr := [0], flag := 11, stall := 7, drain := true, mem := true } engState 2 [0] engGroup
       let s1 := fun r => engState.obtainAll 0 [r] false
       engState.quiet 2 (engState.teamOf engGroup) = true ∧ copying.quiet 2 (copying.teamOf engGroup) = false ∧
       ∃ r x, y.postReq ((engState.launchOf engGroup).result + 4) (toBytes 4 (blockWord engGroup 0 0)) = .ok (r, some x) ∧ r.drains = false ∧ x.ad = none ∧
        (s1 r).holdsFor 0 [r] false = true ∧ (s1 r).groups = engState.groups ∧ (s1 r).mem = engState.mem ∧ engState.mem.wf = true ∧
        r.loc + 4 ≤ scratchBase ∧ (∀ e ∈ engState.groups, e.2.epoch = none)) := by
  refine ⟨eng_plain, eng_whole .., eng_whole .., by decide, by decide, rfl, rfl, by constructor <;> decide, by decide, by decide,
    ⟨by decide, by decide, by decide, ⟨by decide, by decide⟩, rfl, by decide, by decide, rfl, rfl, rfl, rfl, by decide, rfl, by decide, by decide, rfl⟩,
    by decide, by decide, by decide, ⟨_, _, rfl, rfl, rfl, by decide, by decide, by decide, by decide, by decide, by decide⟩⟩

/-- A capability for COLL and CHAIN; blocks with a field out of range. -/
theorem witness_engine_command_results :
    Plain engState 2 [0] engGroup ∧ Whole engGroup false 7 11 ∧ Undisturbed engState 2 ∧ look engState.teams engGroup.team = some soloTeam ∧
      (issueAt { stall := 7 } engState 2 [0] engGroup).forkRefused 2 7 = none ∧ (∀ n ∈ seqsIn 7, soloTeam.busyOn n = false) ∧
      (∃ n ∈ seqsIn 7, ({ soloTeam with seqs := [{ state := 1 }] } : Team).busyOn n = true) ∧
      (let n := blockWord engGroup 3
       let rq := commandFor engState 2 [0] engGroup false
       let r := engState.chainWords rq (engState.slotView soloTeam.core (n 2 % 8)).image { imageAt := n 0, descAt := n 1, load := false, slot := n 2 % 8, seed := engGroup.sreg (4 * 3 + 3) }
         (fun l n => engState.mem.getsUnder 0 l n)
       n 2 / 8 % 2 = 0 ∧ n 1 % 16 = 0 ∧ n 2 < 16 ∧
        ∃ srcs dsts, engState.chainRanges rq (engGroup.cap 0) (engGroup.cap 15) r r.imageLen = .ok (srcs, dsts) ∧
          engState.blocked soloTeam.ctx srcs dsts (fun _ => false) = false) ∧ engState.hasEntry soloTeam.core false = true ∧ engGroup.waitsBefore [0] = false ∧
      (let n := blockWord engGroup 3
       n 0 % 32 = 0 ∧ n 1 < 2 ^ 25 ∧ n 2 < 4 ∧
        (∃ x, engState.checkCap (commandFor engState 2 [0] engGroup true) (engGroup.cap 0) (permENG + permR) 0 0 = .ok x) ∧
        engState.liveOn (n 2) < 64 ∧ (engState.colls.filter (fun e => !e.2.ended)).length ≤ 256) ∧
      engGroup.trapMode = false ∧ badReg 3 (copyBad (blockWord engGroup 3) false) = some 12 ∧ blockWord engGroup 2 1 % 16 ≠ 0 ∧
      blockWord engGroup 2 0 % 4 = 0 ∧ blockWord engGroup 0 0 % 32 ≠ 0 ∧ queryBad (blockWord engGroup 7 0) [0, 4] = true ∧
      queryBad (blockWord engGroup 7 0) [0, 1, 2, 3, 4] = true := by
  refine ⟨eng_plain, eng_whole .., eng_undisturbed, rfl, by decide, by decide, by decide, ⟨by decide, by decide, by decide, _, _, rfl, by decide⟩, by decide, rfl,
    ⟨by decide, by decide, by decide, ⟨_, rfl⟩, by decide, by decide⟩, rfl, by decide, by decide, by decide, by decide, by decide, by decide⟩

/-- A matrix program in BF16 with both operands loaded and a tile, at its third word, inside a loop. -/
def matRun : MatrixRun :=
  { entry := { team := 1, addr := 0x400, cap := rootCap, seed := 0 }, index := 2, config := some (2, 2, 1)
    buffers := [some (List.replicate 4096 0), some (List.replicate 4096 0), none, none], loops := [{ place := 2, first := 0, rep := 1, count := 1, inc := 0 }] }
def matTeam : Team := { soloTeam with ssize := 0x10000, seqs := [{ state := 2 }] }
def matState (r : MatrixRun) : State :=
  { withTeam soloGroup matTeam [0] with cur := .matrix 0, cores := [(0, { matrix := some r, tiles := [(7, { kind := some false })] })], parts := [(0, { running := some 0 })] }

theorem mat_sequencing (r : MatrixRun) (h : r.pending = none) (e : r.entry.team = 1) : Sequencing (matState r) 0 r 1 matTeam :=
  ⟨rfl, rfl, h, e, rfl⟩

theorem witness_matrix_results :
    let s := matState matRun
    let rq := matTeam.requester 1
    Sequencing s 0 matRun 1 matTeam ∧ (Instr.mcfg 2 2 1).wf = true ∧ 64 * 32 * 1 * elemBits 2 ≤ 524288 ∧ isMx 2 = false ∧
      (∃ loc, s.scratchAt rq (matRun.address 0) (operandBytes (2, 2, 1) 0) = .ok loc ∧ matRun.address 0 % 16 = 0 ∧
        s.blocked matTeam.ctx [{ scratch := true, base := loc, len := operandBytes (2, 2, 1) 0 }] [] (ownHold 1) = false) ∧ s.hasEntry 0 false = true ∧
      (lookD (s.core 0).tiles 7 {}).kind ≠ some (!decide (2 = 7)) ∧ drainsAs (lookD (s.core 0).tiles 7 {}).kind 14 = true ∧ Orderly s ∧
      (∃ rs, s.drainRanges { core := 0, run := matRun, tid := 1, team := matTeam } false [matRun.address 0] (outputBytes 14) = .ok rs ∧
        s.blocked matTeam.ctx [] rs (ownHold 1) = false) ∧
      (∃ loc, s.scratchRead rq 0xFFFC 4 = .ok loc ∧ ofBytes (s.mem.getsUnder 0 loc 4) < (1#16).toNat + matRun.increase.2 ∧
        (0#16).toNat + matRun.increase.2 ≤ ofBytes (s.mem.getsUnder 0 loc 4) ∧
        s.blocked matTeam.ctx [{ scratch := true, base := loc, len := 4 }] [] (ownHold 1) = false) ∧
      (2 ≤ matRun.index ∧ matRun.index < 3 ∧ matRun.loops.length < 4 ∧ (∃ l, matRun.loops.find? (fun l => l.place == 2) = some l ∧ l.count ≤ l.rep) ∧
        (∀ l ∈ ({ matRun with index := 3 } : MatrixRun).loops, l.place ≠ 3)) ∧
      matTeam.core = 0 ∧ matTeam.busyOn 0 = true ∧ (∀ e ∈ s.ops, e.2.state ≠ .matching) ∧
      Sequencing (matState { matRun with config := none }) 0 { matRun with config := none } 1 matTeam := by
  refine ⟨mat_sequencing _ rfl rfl, by decide, by decide, by decide, ⟨_, rfl, by decide, by decide⟩, by decide, by decide, by decide, by unfold Orderly; decide, ⟨_, rfl, by decide⟩,
    ⟨_, rfl, by decide, by decide, by decide⟩, ⟨by decide, by decide, by decide, ⟨_, rfl, by decide⟩, by decide⟩, rfl, by decide, by decide, mat_sequencing _ rfl rfl⟩

/-- A run of a chain with one micro-op, the maximum of input 0, a stream of scratch, in FP32, and of itself: at the start of a group or past it. -/
def chainRun (u : Nat) : ChainRun :=
  { begun := true, desc := [1, 16, 0, 0, 0x600, 64, 0, 0x3E], image := { head := 0x421, uops := [0x28400000] }, uop := u, temps := List.replicate 8 (List.replicate 16 0) }
def chainOp (r : ChainRun) : EngineOp := { copyOp with kind := .chain r }
def chainSt (r : ChainRun) : State := { engState with cur := .chain 0 8, ops := [(8, chainOp r)] }
def chainState : State := chainSt (chainRun 0)

theorem witness_chain_micro_op_results :
    (∀ u ∈ [0, 1], (chainSt (chainRun u)).cur = .chain 0 8 ∧ look (chainSt (chainRun u)).ops 8 = some (chainOp (chainRun u))) ∧
      (chainRun 1).atGroup = false ∧ (chainRun 0).atGroup = true ∧
      (peerRead (chainState.chainNeeds (chainOp (chainRun 0)) (chainRun 0)).needs).isNone = true ∧ (chainRun 0).passInputs = [0] ∧
      (∀ n ∈ (chainRun 0).passInputs, (chainState.chainInput (chainOp (chainRun 0)) (chainRun 0) n).1.hitch = none) ∧
      mxElem 0 = none ∧ (mxElem 8).isSome = true := by
  refine ⟨?_, by decide, by decide, by decide, by decide, by decide, by decide, by decide⟩
  intro u h
  have : u = 0 ∨ u = 1 := by simpa using h
  rcases this with rfl | rfl <;> exact ⟨rfl, rfl⟩

/-- A collective program at its first step. -/
def collProg : CollProg :=
  { sequencer := 0, team := 1, gid := 2, flag := 15, ctx := soloTeam.ctx, cap := (mintRoot 0x10000 0x10000 0x9FF 1).getD {}, offset := 0, handle := 0, fetchOp := 40 }
def collState : State :=
  { engState with cur := .coll 0, colls := [(0, collProg)], vdn := [(2, 0x9000000000000000), (5, 0x8000000000000000)], roster := [(0, 0x20)], ops := [(40, { copyOp with kind := .collective 0 0, flag := 15 })] }
def collArgs : CollArgs := { async := false, vdn := 5, dt := 0, tc := 0, tag := 7, offset := 0, length := 16, value := 0 }

theorem witness_collective_step_results :
    collState.cur = .coll 0 ∧ look collState.colls 0 = some collProg ∧ collProg.canStart = true ∧ Orderly collState ∧
      (∀ op ∈ [0, 1, 2, 3, 4, 5, 6], ∃ g, collState.checkStep 0 collProg op collArgs = .ok g ∧
        collState.blocked collProg.ctx (stepRange g 16) [] (fun _ => false) = false ∧ collState.blocked collProg.ctx [] (stepRange g 16) (fun _ => false) = false ∧
        collState.blocked collProg.ctx [] [] (fun _ => false) = false ∧ collState.blocked collProg.ctx [] (stepRange g 4) (fun _ => false) = false) ∧
      collState.hasEntry (collCore collProg.sequencer) false = true ∧ collProg.posted = [] ∧ collArgs.length.toNat % 16 = 0 ∧
      (let c : CollProg := { collProg with posted := [{ index := 0, op := 0, args := collArgs, engineOp := 41 }], async := true }
       c.canStart = true ∧ c.posted ≠ [] ∧ ∀ u ∈ c.posted, look collState.ops u.engineOp = none) := by
  refine ⟨rfl, rfl, by decide, by unfold Orderly; decide, ?_, by decide, rfl, by decide, by decide⟩
  intro op h
  simp only [List.mem_cons, List.not_mem_nil, or_false] at h
  rcases h with rfl | rfl | rfl | rfl | rfl | rfl | rfl <;> exact ⟨_, rfl, by decide⟩

theorem witness_engine_completion_results :
    let d := copyDesc (blockWord engGroup 0)
    look copying.ops 8 = some copyOp ∧ copyOp.kind = .copy d ∧ copyOp.state = .live ∧ copyOp.out = none ∧ copyOp.broken = none ∧ copyOp.program = false ∧
      copyOp.flag < 12 ∧ copyOp.ordered = false ∧ d.kind = 0 ∧ d.rows = 1 ∧ d.ssp = true ∧ d.dsp = true ∧ d.rbytes % 16 = 0 ∧ 0 < d.rbytes ∧
      (∃ src, copying.scratchAt (copying.opRequester copyOp) d.soff d.rbytes = .ok src ∧ copying.isBad src d.rbytes = false) ∧
      (∃ dst, copying.scratchAt (copying.opRequester copyOp) d.doff d.rbytes = .ok dst ∧ dst % 16 = 0) ∧ copying.teamRuns 1 = true ∧ Undisturbed copying 2 ∧
      copying.mem.wf = true ∧ look copying.groups 2 = some engGroup ∧ look copying.teams 1 = some soloTeam ∧ 2 ∈ soloTeam.groups ∧
      (engGroup.lane 0).exited = false ∧ engGroup.epoch = none := by
  refine ⟨rfl, rfl, rfl, rfl, rfl, rfl, by decide, rfl, by decide, by decide, by decide, by decide, by decide, by decide, ⟨_, rfl, by decide⟩, ⟨_, rfl, by decide⟩, by decide,
    ⟨by decide, by decide⟩, by decide, rfl, rfl, by decide, rfl, rfl⟩

/-! ### Witnesses: the command processor -/

/-- The queue table of partition 0 at 0x100000 (a user, a runtime, an admin queue; a user queue of function 1), function records at 0x110000,
the EVICTLEN of a process record at 0x120000, a result word at 0x200000. -/
def cpCells : List Host.Cell :=
  [(0x100000, 0x01), (0x100010, 0x01), (0x100014, 0x08), (0x100020, 0x01), (0x100024, 0x10), (0x100030, 0x01), (0x100034, 0x20), (0x110010, 0x01),
   (0x110048, 0x01), (0x110050, 0x01), (0x12002C, 0x01), (0x200000, 0x11), (0x200004, 0x07)]
/-- Queues as in `cpCells`; stage-2 tables of 1 GiB of plain pages and 1 GiB of capability pages, mapped to themselves; a launch record at 0x130000, its
root in the array of process roots at 0x40001000. -/
def launchCells : List Host.Cell :=
  [(0x100000, 0x01), (0x100010, 0x01), (0x100014, 0x08), (0x100020, 0x01), (0x100024, 0x10), (0x110000, 0x01), (0x110003, 0x01), (0x110010, 0x01),
   (0x110014, 0xFF), (0x110015, 0x07), (0x110023, 0x80), (0x110029, 0x10), (0x11002B, 0x40), (0x130001, 0x01), (0x130006, 0x04), (0x13000A, 0x14),
   (0x130011, 0x10), (0x130018, 0x01), (0x13001C, 0x01), (0x13001E, 0x01), (0x130020, 0x10), (0x130022, 0x04), (0x130041, 0x10), (0x130043, 0x40),
   (0x130060, 0x18), (0x130062, 0x20), (0x1000000, 0x01), (0x1000001, 0x10), (0x1000003, 0x01), (0x1001000, 0x01), (0x1001001, 0x20),
   (0x1001003, 0x01), (0x1002000, 0x0F), (0x1002001, 0x01), (0x1002008, 0x1F), (0x1002009, 0x01), (0x100200B, 0x40), (0x4000100A, 0xA6),
   (0x4000100B, 0xFF), (0x4000100C, 0x03)]
/-- The admin queue, and the sixteen leaves of the 64 KiB page at 0x80000000. -/
def flipCells : List Host.Cell :=
  [(0x100020, 0x01), (0x100024, 0x10), (0x110000, 0x01), (0x110003, 0x01), (0x1000000, 0x01), (0x1000001, 0x10), (0x1000003, 0x01), (0x1001000, 0x01),
   (0x1001001, 0x20), (0x1001003, 0x01), (0x1002010, 0x01), (0x1002011, 0x30), (0x1002013, 0x01), (0x1003000, 0x01), (0x1003001, 0x40),
   (0x1003003, 0x01), (0x1004000, 0x07), (0x1004001, 0x01), (0x1004002, 0x30), (0x1004008, 0x07), (0x1004009, 0x11), (0x100400A, 0x30),
   (0x1004010, 0x07), (0x1004011, 0x21), (0x1004012, 0x30), (0x1004018, 0x07), (0x1004019, 0x31), (0x100401A, 0x30), (0x1004020, 0x07),
   (0x1004021, 0x41), (0x1004022, 0x30), (0x1004028, 0x07), (0x1004029, 0x51), (0x100402A, 0x30), (0x1004030, 0x07), (0x1004031, 0x61),
   (0x1004032, 0x30), (0x1004038, 0x07), (0x1004039, 0x71), (0x100403A, 0x30), (0x1004040, 0x07), (0x1004041, 0x81), (0x1004042, 0x30),
   (0x1004048, 0x07), (0x1004049, 0x91), (0x100404A, 0x30), (0x1004050, 0x07), (0x1004051, 0xA1), (0x1004052, 0x30), (0x1004058, 0x07),
   (0x1004059, 0xB1), (0x100405A, 0x30), (0x1004060, 0x07), (0x1004061, 0xC1), (0x1004062, 0x30), (0x1004068, 0x07), (0x1004069, 0xD1),
   (0x100406A, 0x30), (0x1004070, 0x07), (0x1004071, 0xE1), (0x1004072, 0x30), (0x1004078, 0x07), (0x1004079, 0xF1), (0x100407A, 0x30)]

def cpQueue : Queue := { state := 1, wptr := 5 }
def cpPart : Part :=
  { clusters := 1, block := [0x100000, 4, 0x110000, 0, 0], mapped := [(0, cpQueue), (1, cpQueue), (2, cpQueue)], lastLaunch := [(0, 4)]
    procs := [(0, 0x120000)], running := some 0 }
/-- A partition with a launch that is done, whose result word is at 0x200000, with these cells. -/
def cpWith (cells : List Host.Cell) (p : Part) : State :=
  { State.reset with mem := { bytes := cells, tags := [0x4000100] }, parts := [(0, p)], launches := [(3, { status := 0x11, result := 0x200000 })], nextId := 9
                     clock := 0x2000000 }
def cp (p : Part) : State := cpWith cpCells p
def hd (q : Nat) : CmdHead := { part := 0, queue := q, cw := 8 }
def entry (q : Nat) : QueueEntry := { qcb := 0, proc := 0, fn := 0, kind := q, prio := 0 }
def cpCtx : Ctx := (entry 0).ctx (cp cpPart) 0

theorem cp_before (q : Nat) (h : q < 3) : Before (cp cpPart) (hd q) (entry q) cpQueue := by
  have : q = 0 ∨ q = 1 ∨ q = 2 := by omega
  rcases this with rfl | rfl | rfl <;> exact ⟨rfl, by decide, rfl, by decide⟩

theorem witness_queue_and_store_results :
    let s := cp cpPart
    (∀ q < 3, Before s (hd q) (entry q) cpQueue) ∧ 4 < cpQueue.wptr.toNat ∧ cpQueue.lcnt = 0 ∧ (BitVec.ofNat 32 2).toNat = 2 ∧
      look (s.part 0).mapped 1 = some cpQueue ∧
      (look (s.part 0).lastLaunch 0 = some (3 + 1) ∧ look s.launches 3 = some { status := 0x11, result := 0x200000 } ∧ s.cpWrites = [] ∧
        Calm s (s.cpLoad cpCtx false 0x200000 8).1 ∧ (s.cpLoad cpCtx false 0x200000 8).2 = some [0x11, 0, 0, 0, 7, 0, 0, 0] ∧
        holds 0 7 7 = true ∧ holds 3 7 7 = false) ∧
      ((s.reach cpCtx false 0x200004 false).any (fun r => r.2.kind == .dram) = true ∧ (s.cpLoad cpCtx false 0x200004 4).2 = some [7, 0, 0, 0] ∧
        Calm s (s.cpLoad cpCtx false 0x200004 4).1 ∧ holds 2 7 7 = true ∧ holds 1 7 7 = false) ∧
      s.launchesDone 0 0 = true ∧ ({ s with cpWrites := [{ ctx := cpCtx, addr := 8, bytes := [], status := 1 }] } : State).launchesDone 0 0 = false ∧
      (∃ t0 x, s.reach cpCtx false 0x200004 true = some (t0, x) ∧ x.kind = .dram ∧
        Calm s (t0.cpStore x.out (s.serialOf x.key) (toBytes 4 7))) ∧
      (s.takeRange 0x200000 8 true).mem.wf = true := by
  refine ⟨cp_before, by decide, rfl, rfl, rfl, ⟨rfl, rfl, rfl, ?_⟩, ?_, by decide, by decide, ⟨_, _, rfl, ?_⟩, by decide⟩ <;> unfold Calm <;> decide +kernel

/-- The launch of the record at 0x130000. -/
def launchSt : State := cpWith launchCells cpPart
def launchCtx : Ctx := (entry 0).ctx launchSt 0

/-- An accepted launch, with SCRATCH of 256 KiB; records that fail the first checks. -/
theorem witness_launch_results :
    let s := launchSt
    let v := s.checkLaunch launchCtx 0x130000 none
    Before s (hd 0) (entry 0) cpQueue ∧ s.launchesDone 0 0 = true ∧ v.status = none ∧ Calm s (s.applyVerdict launchCtx v) ∧
      (let w := s.checkLaunch launchCtx 0x130001 none
       w.status = some 0x20 ∧ Calm s (s.applyVerdict launchCtx w)) ∧
      (s.text launchCtx (2 ^ 52) 128).ok = false := by
  refine ⟨⟨rfl, by decide, rfl, by decide⟩, by decide, ?_⟩
  unfold Calm
  decide +kernel

/-- A process launched, its root at 0x40001000 and its last at 0x400FFFF0; a launch to kill with one team of one group. -/
def killSt : State := { launchSt with
  launches := [(3, { status := 0x10, result := 0x200000 })], teams := [(1, { launch := 3, groups := [2], state := .resident })], groups := [(2, soloGroup)] }
def moved (p : Part → Part) : State := cpWith flipCells { p cpPart with block := [0x100000, 4, 0x110000, 0, 0] }
def flipWait (d : Bool) (q : Nat) : Pending := { queue := q, cw := 24, what := .flipLocks 0 0x80000000 true 1 d 0x1000000 }
def flipLeaves : List DWord := (List.range 16).map (fun i => BitVec.ofNat 64 (0x300107 + 0x1000 * i))
def oneEntry : TlbEntry := { part := 0, fn := 0, asid := 5, global := false, gva := 0x5000, gpa := 0x5000, size := 4096, x := { kind := .dram, out := 0x5000 }, r := true, w := true, xp := false, dirty := true }
def inval0 : Inval := { id := 0, kind := 0, fn := 0, asid := 5, base := 0x5FFF, len := 1 }

theorem witness_process_and_page_results :
    -- PROCESS for the last process number; KILL
    (∀ q ∈ [1, 2], Before killSt (hd q) (entry q) cpQueue) ∧ 0x120000 % 64 = 0 ∧ killSt.gpaLoc 0 0 0x120000 = some (0x120000, 0) ∧
      (let f := fun (n : Nat) => killSt.readDWord 0 (killSt.fnRecord 0 0 + 8 * n)
       (mintRoot (f 3).toNat (f 4).toNat (bits (f 2) 32 32) (bits (killSt.readDWord 0 (0x120000 + 24)) 0 12)).isSome = true) ∧
      killSt.rootGranule 0 0 65535 = some (0x400FFFF0 + 0x1000, 0) ∧ Calm killSt (killSt.putCap 0x40100FF0 0 rootCap) ∧
      (killSt.takeRange 0x40100FF0 16 true).mem.wf = true ∧ killSt.launchAt 0 0 8 = none ∧ killSt.launchAt 0 0 0x200000 = some 3 ∧
      look killSt.launches 3 = some { status := 0x10, result := 0x200000 } ∧
    -- invalidations, flips and moves accepted
    (∀ q ∈ [1, 2], Before (cp cpPart) (hd q) (entry q) cpQueue) ∧ (∀ q ∈ [1, 2], (cp cpPart).waitingOn (hd q) = none) ∧ Orderly (cp cpPart) ∧
      (let s := moved id
       Before s (hd 2) (entry 2) cpQueue ∧ s.waitingOn (hd 2) = none ∧ isPage64 0x80000000 = true ∧ isPage64 0xFFFFFFFFF0000 = true ∧ s.migrating 0 = false ∧
        s.leaves16 0 0 0xFFFFFFFFF0000 = none ∧ s.leaves16 0 0 0x80000000 = some (0x1004000, flipLeaves) ∧ flipLeaves.map kindOf = List.replicate 16 .dram ∧
        (dramSize - 2 ^ 16) % 4096 = 0 ∧ s.moveRefused 0 0x80000000 1 0 flipLeaves = none ∧
        Calm s (s.writeLeaves 0x1004000 (flipLeaves.map (fun w => w &&& ~~~1#64)))) ∧
    -- CANCEL, the last step of a flip, DEFERRED
    (let s := moved (fun p => { p with waiting := [flipWait false 1], mapped := [(1, cpQueue), (2, cpQueue)] })
     Before s (hd 2) (entry 2) cpQueue ∧ s.waitingOn (hd 2) = none ∧ (∀ w ∈ (s.part 0).waiting, w.cw ≠ 8) ∧
      (s.part 0).waiting.find? (fun w => w.cw == 24 && (match w.what with | .flipLocks _ _ _ _ _ _ => true | _ => false)) = some (flipWait false 1) ∧
      look (s.part 0).mapped 1 = some cpQueue ∧ s.leaves16 0 0 0x80000000 = some (0x1004000, flipLeaves) ∧
      s.moveRefused 0 0x80000000 0 4095 flipLeaves = some 6) ∧ (cp cpPart).queueEntry 0 1 = some (entry 1) ∧
    (let s := moved (fun p => { p with waiting := [{ queue := 2, cw := 8, what := .flipInval 0 0 0x80000000 [] }], nextInval := 1 })
     Before s (hd 2) (entry 2) cpQueue ∧ s.waitingOn (hd 2) = some { queue := 2, cw := 8, what := .flipInval 0 0 0x80000000 [] } ∧ s.invalDone 0 0 = true) ∧
    (let s := { moved (fun p => { p with invals := [inval0], nextInval := 1 }) with tlb := [oneEntry] }
     Orderly s ∧ (s.part 0).invals.find? (fun v => v.id == 0) = some inval0 ∧ s.inFlight 0 inval0 = false ∧ inval0.covers oneEntry = true) ∧
    (let s := { moved (fun p => { p with waiting := [flipWait false 2] }) with clock := 0x1000000 + 240000 }
     (s.part 0).waiting.find? (fun w => w.queue == 2) = some (flipWait false 2) ∧ s.queueEntry 0 2 = some (entry 2) ∧ 0x1000000 + 240000 ≤ s.clock) := by
  refine ⟨?_, by decide, ?_⟩
  · intro q h
    have : q = 1 ∨ q = 2 := by simpa using h
    rcases this with rfl | rfl <;> exact ⟨rfl, by decide, rfl, by decide⟩
  refine ⟨by decide +kernel, by decide +kernel, by decide +kernel, by unfold Calm; decide +kernel, by decide, by decide, by decide, rfl, ?_, by decide, ?_, ?_, ?_, by decide, ?_, ?_, ?_⟩
  · intro q h
    have : q = 1 ∨ q = 2 := by simpa using h
    rcases this with rfl | rfl <;> exact cp_before _ (by decide)
  · unfold Orderly; decide
  · refine ⟨⟨rfl, by decide, rfl, by decide⟩, ?_⟩
    unfold Calm
    decide +kernel
  · exact ⟨⟨rfl, by decide, rfl, by decide⟩, by decide +kernel⟩
  · exact ⟨⟨rfl, by decide, rfl, by decide⟩, by decide +kernel⟩
  · unfold Orderly
    decide +kernel
  · decide +kernel

/-- The last leaf of the 64 KiB page at 0x80000000 has RLS set, and no operation holds its page. -/
theorem witness_sweep_results :
    let s := moved id
    ∃ x, s.leafAt 0x1004078 = some (0, 0, x) ∧ (s.readDWord 0 0x1004078).getLsbD 8 = true ∧ s.pageLocked x.kind x.out x.size = false ∧
      (s.takeRange 0x1004078 8 true).mem.wf = true ∧ Orderly (s.takeRange 0x1004078 8 true) ∧ (s.takeRange 0x1004078 8 true).monitors = [] := by
  refine ⟨{ base := 0x8000F000, size := 4096, kind := .dram, out := 0x30F000, leaf := 0x1004078 }, by decide +kernel, by decide +kernel, by decide +kernel, by decide +kernel, ?_, by decide +kernel⟩
  unfold Orderly; decide +kernel

/-- A launch of one group of 16 lanes to a team, to be admitted; a resident team all of whose lanes wait on WAITC. -/
def readyLaunch : Launch := { status := 0x10, result := 0x200000, width := 16, roles := [{ lanes := 16, regs := 32, entry := 0 }], dimX := 1, dimY := 1, dimZ := 1, ctx := cpCtx }
def waitingGroup : Group := { soloGroup with arch := { soloGroup.arch with lanes := [{ pc := 0x1000, park := some .waitc }] } }
def withLaunch (l : Launch) (p : Part → Part) : State := { cp (p { cpPart with launches := [(0, [3])] }) with launches := [(3, l)] }
def bigLaunch : Launch := { readyLaunch with scratch := 2 ^ 18 }
def fullTeam (core : Nat) : Team := { launch := 5, groups := [2], core := core, sbase := core * 2 ^ 18, ssize := 2 ^ 18, state := .resident, ctx := cpCtx, lprio := 0 }
/-- Every core of the one cluster holds a team that waits, with all of its scratch; the launch has priority 1. -/
def crowded : State :=
  { withLaunch bigLaunch (fun p => { p with mapped := [(0, { cpQueue with prio := 1 })] }) with
    launches := [(3, bigLaunch), (5, { bigLaunch with nextTeam := 1 })], teams := (List.range 8).map (fun c => (20 + c, { fullTeam c with teamId := c, groups := [40 + c] }))
    groups := (List.range 8).map (fun c => (40 + c, { waitingGroup with team := 20 + c }))
    monitors := (List.range 8).map (fun c => { line := 0x4000, gid := 40 + c, lane := 0 }) }

/-- With S2EN = 0 the CP can write every GPA of the DRAM: its stage-2 leaf is the identity's. -/
theorem identity_leaf (a : Nat) : (xlatOf (identityLeaf a) a false).kind = .dram ∧ (xlatOf (identityLeaf a) a false).key = 0 ∧
    entryR (identityLeaf a).word = true ∧ entryW (identityLeaf a).word = true := by
  simp only [xlatOf, identityLeaf]
  decide

theorem gpa_store_identity (s : State) (p fn a : Nat) (hc : (s.fnCtx p fn).s2en = false) (hk : s.keyUsable p fn 0 = true) (hd : ¬ dramSize ≤ a) :
    (s.gpaStore p fn a).isSome = true := by
  have h : stage2 s (s.fnCtx p fn) a = .ok (identityLeaf a) := by
    unfold stage2
    rw [hc, if_neg (by decide), if_neg hd]
  simp [State.gpaStore, h, identity_leaf, State.keyOk, hk]

theorem crowded_page (a : Nat) (h : a < 2 ^ 33) : (crowded.gpaStore 0 0 a).isSome = true :=
  gpa_store_identity crowded 0 0 a (by decide +kernel) (by decide +kernel) (by
    have : 2 ^ 33 ≤ dramSize := by decide
    omega)

/-- A set's records, however many bytes they take, fit in the 4 GiB of the eviction area. -/
theorem crowded_area (b : BitVec 32) : crowded.evictAt cpCtx b.toNat = some 0 := by
  have ha : crowded.evictArea cpCtx = (0, 2 ^ 32) := by decide +kernel
  have ht : crowded.evicted cpCtx = [] := by decide +kernel
  have hq : cpCtx.part = 0 ∧ cpCtx.fn = 0 := by decide +kernel
  have hb := b.isLt
  have hp : (pagesOf 0 b.toNat).all (fun q => (crowded.gpaStore cpCtx.part cpCtx.fn q.1).isSome) = true := by
    simp only [pagesOf, List.all_map, List.all_eq_true, List.mem_range, Function.comp]
    intro i hi
    rw [hq.1, hq.2]
    refine crowded_page _ ?_
    simp only [ceilDiv] at hi
    omega
  unfold State.evictAt
  rw [ha, ht]
  simp [hp, show b.toNat ≤ 4294967296 by omega]

theorem witness_cp_and_admission_results :
    -- a notify store to a mapped queue, to none, to one of another function; ageing; unmapping
    (let s := cp { cpPart with mapped := [(0, { cpQueue with state := 2 }), (1, cpQueue)], ageSince := [(1, 0x2000000 - 4800000)] }
     s.queueEntry 0 1 = some (entry 1) ∧ look (s.part 0).mapped 1 = some cpQueue ∧ (16#32 - cpQueue.rptr).toNat = 2 ^ cpQueue.ringLog ∧ s.queueEntry 0 4 = none ∧
      s.queueEntry 0 3 = some { entry 0 with fn := 1 } ∧ s.hasWork 0 1 = true ∧ look (s.part 0).ageSince 1 = some (0x2000000 - 4800000) ∧
      0x2000000 - 4800000 + 4800000 ≤ s.clock ∧ s.givesWay 0 0 = true ∧ s.canUnmap 0 0 = true ∧ Calm s (s.writeQcb 0 0 { cpQueue with state := 2 })) ∧
    -- a pending queue takes the last slot
    (let s := cp { cpPart with mapped := [(1, cpQueue), (2, cpQueue), (3, cpQueue)], pendingBits := [0] }
     let t := { s with mem := { s.mem with bytes := [(9, 1)] ++ cpCells } }
     t.nextPending 0 = some 0 ∧ (t.part 0).mapped.length + 1 = t.slots 0 ∧ look (t.part 0).mapped 0 = none ∧ (t.queueOf 0 0).isSome = true ∧
      -- a store to that queue while it is not mapped
      (let s0 := t.onPart 0 (fun x => { x with notify := put x.notify 0 1 })
       t.queueEntry 0 0 = some (entry 0) ∧ s0.qcbAt 0 (entry 0) = some (0, 0) ∧ (s0.readQcb 0 0).state = 1 ∧
        (1#32 - (s0.readQcb 0 0).rptr).toNat ≤ 2 ^ (s0.readQcb 0 0).ringLog)) ∧
    -- staging, the end of a slice, the exchange
    (let t := cp { cpPart with mapped := [(0, cpQueue), (3, cpQueue)] }
     (t.part 0).running = some 0 ∧ t.nextFunction 0 (some 0) = some 1 ∧ (t.part 0).switch = .running ∧ 1 ∉ (t.part 0).writingBack ∧ t.isBad (t.contextAt 0 1).1 (t.contextAt 0 1).2 = false) ∧
    (let s := cp { cpPart with switch := .staged, next := some 1, sliceEnd := 0x2000000 }
     (s.part 0).next = some 1 ∧ (s.part 0).running = some 0 ∧ (s.part 0).switch = .staged ∧ (s.part 0).sliceEnd ≤ s.clock ∧ Orderly s) ∧
    (let s := cp { cpPart with switch := .halted, next := some 1, writingBack := [2] }
     (s.part 0).running = some 0 ∧ (s.part 0).next = some 1 ∧ (s.part 0).switch = .halted ∧ s.drains = [] ∧ s.reduces = [] ∧ s.ops = [] ∧
      s.enginesStopped (fun t => t.ctx.part == 0 && t.ctx.fn == 0) = true ∧ (s.part 0).writingBack = 2 :: []) ∧
    -- admission of the one candidate; a team added; a set evicted
    (let s := withLaunch readyLaunch id
     let u := s.noteProcs 0
     (s.part 0).running = some 0 ∧ (s.part 0).switch = .running ∧ (s.part 0).migHeld = false ∧ u.readySets 0 = [] ∧
      u.arbitrated 0 = [{ lid := 3, launch := readyLaunch, queue := 0, prio := 0 }] ∧ u.fnRefused 0 readyLaunch.fn = false ∧ (u.place 0 readyLaunch readyLaunch.setSize (fun _ _ => true)).isSome = true ∧
      look s.launches 3 = some readyLaunch ∧ s.mem.wf = true) ∧
    (let t : Team := { fullTeam 7 with teamId := 7, groups := [47] }
     look crowded.teams 27 = some t ∧ t.ctx.part = 0 ∧ crowded.teamRuns 27 = true ∧
      (let live := (crowded.membersOf 27).filter (fun e => e.2.state == .resident)
       live.all (fun e => crowded.allOnWaitc e.2) = true ∧ crowded.monitorsFit (live.flatMap (fun e => e.2.groups ++ e.2.guide.toList)) = true ∧
       crowded.enginesStopped (fun u => u.launch == t.launch && u.teamId - u.member == t.teamId - t.member) = true ∧
       crowded.needsRoom 0 t.lprio = true ∧ crowded.evictAt t.ctx (Config.evictSize crowded.free).toNat = some 0)) := by
  refine ⟨?_, by decide +kernel, by decide +kernel, ?_, by decide +kernel, ⟨by decide +kernel, by decide +kernel, by decide +kernel, by decide +kernel, by decide +kernel, by decide +kernel, by decide +kernel, by decide +kernel, by decide +kernel⟩,
    ⟨by decide +kernel, by decide +kernel, by decide +kernel, by decide +kernel, by decide +kernel, by decide +kernel, by decide +kernel, crowded_area _⟩⟩
  · unfold Calm; decide +kernel
  · unfold Orderly; decide +kernel

/-! ### Witnesses: drained accesses, spilling, epochs -/

/-- A group whose capabilities 13 to 15 reach the 64 KiB. -/
def sideGroup : Group := { soloGroup with caps := rootCap :: List.replicate 12 {} ++ [rootCap, rootCap, rootCap] }
/-- A process whose stage 1 maps the first GiB memory-side, to itself. -/
def msTeam : Team := { soloTeam with ctx := { s1en := true, s1root := 0x1000000 } }
def msSide : State := { withTeam sideGroup msTeam [0] with mem := tables [(0x1002000, 0x6F), (0x1002001, 0x01)], parts := [(0, { running := some 0 })] }

theorem onSide_of (rs : List (Req × Option Found)) (h : ∀ r ∈ rs, (r.1.x.any (fun y => y.ms && y.kind == .dram)) = true) : OnSide rs := by
  intro r hr
  have := h r hr
  cases hx : r.1.x <;> simp_all

def atommX : Issue := issueAt { atomForm 0 9 9 11 7 false with drain := true } msSide 2 [0] sideGroup
def atommRs : List (Req × Option Found) := passed (atomicReqs 0 0 9 9 false true (permR + permW + permATOM + permMS) atommX)
def atommR : Req := ((atommRs.map (·.1)).head?).getD { lane := 9, unit := 0, gva := 0, loc := 0, size := 0, what := .load }
def msDrain : DrainOp := { gid := 2, saved := sideGroup.arch, ctl := {}, mask := [0], act := [0], pc := 0x1000, acc := .atomic, flag := 11, dest := [(0, [9])], place := .plain false, todo := [atommR] }
/-- Its group, whose v9 the access has yet to write. -/
def drainedGroup : Group :=
  { sideGroup with drained := some 8
                   arch := { sideGroup.arch with hazards := [{ lane := 0, file := .v, reg := 9, key := 9, old := 0, due := 0, varLat := true, flag := 11, drained := true }] } }
def draining : State := { msSide with groups := [(2, drainedGroup)], drains := [(8, msDrain)] }

def redxX : Issue := issueAt { vr := [9], flag := 11, stall := 7, varLat := true, drain := true, mem := true } msSide 2 [0] sideGroup
def redxRs : List (Req × Option Found) := passed (rowReqs 13 9 16 redxX)
def redxDs : List (Req × Option Found) := passed ((redxX.redxDest 13 16 4).map (fun k => (0, k)))
def rowR : Req := ((redxRs.map (·.1)).head?).getD atommR
def lineR : Req := ((redxDs.map (·.1)).head?).getD atommR
def reducing (todo lines : List Req) : State :=
  { msSide with groups := [(2, { sideGroup with drained := some 8 })], reduces := [(8, { base := { msDrain with todo := todo, dest := [] }, etype := 0, lines := lines })] }

/-- Sixteen rows' bytes are one element of FP32 four times over; the last element of a line. -/
theorem witness_drained_results :
    (Instr.atomm 0 false 0 9 9 11 7).wf = true ∧ (Instr.redx 0 13 9 0 11 7).wf = true ∧ Plain msSide 2 [0] sideGroup ∧ Whole sideGroup false 7 11 ∧
      Resident sideGroup [0] (9 :: atomRegs 0 9 false) ∧ sideGroup.partdone = 0 ∧
      (atomicReqs 0 0 9 9 false true (permR + permW + permATOM + permMS) atommX).map (fun c => (c.1, c.2.toOption)) =
        atommRs.map (fun r => (r.1.lane, some r)) ∧ atommRs ≠ [] ∧ OnSide atommRs ∧
      (msSide.installAll (atommRs.filterMap (·.2))).groups = msSide.groups ∧ (rowReqs 13 9 16 redxX).map (fun c => (c.1, c.2.toOption)) = redxRs.map (fun e => (e.1.lane, some e)) ∧
      (redxX.redxDest 13 16 4).map Except.toOption = redxDs.map some ∧ redxRs ≠ [] ∧ redxDs ≠ [] ∧ (msSide.installAll ((redxRs ++ redxDs).filterMap (·.2))).groups = msSide.groups ∧
      (let s := draining
       let s1 := s.takeRange atommR.loc atommR.size atommR.what.writes
       let s0 := s1.takeRange atommR.loc atommR.size atommR.what.writes
       let s2 := s0.below atommR.loc atommR.size atommR.key true atommR.what.writes (some (leads [atommR] atommR))
       msDrain.batch = [atommR] ∧ s.mayAccess msTeam [atommR] = true ∧ s1.belowReady atommR.loc atommR.size true = true ∧ s1.groups = s.groups ∧
        look s.groups 2 = some drainedGroup ∧ msDrain.owes drainedGroup.arch 0 9 = true ∧ atommR.lane = 0 ∧
       atommR.x.any (fun y => y.ms && y.kind == .dram && (s1.refuser { ctx := msTeam.ctx, gva := atommR.gva, size := atommR.size, x := y } atommR.what.writes).isNone) = true ∧
        s1.rangeFree atommR.loc atommR.size atommR.what.writes = true ∧ Given s s0 s2 atommR atommR.what.writes ∧ Undisturbed s2 2 ∧
        (∀ m v, atommR.what ≠ .masked m v) ∧ s.teamRuns 1 = true) ∧
      (let s := reducing [rowR] []
       let s1 := s.takeRange rowR.loc rowR.size false
       let s0 := s1.takeRange rowR.loc rowR.size false
       let s2 := s0.below rowR.loc rowR.size rowR.key true false
       rowR.what = .load ∧ s.rowsOf msTeam { msDrain with todo := [rowR], dest := [] } (stackOf rowR.loc) = [rowR] ∧ s1.rangeFree rowR.loc rowR.size false = true ∧
        s1.belowReady rowR.loc rowR.size true = true ∧ Given s s0 s2 rowR false) ∧
      (let s := reducing [] [lineR]
       let s1 := s.takeRange lineR.loc lineR.size true
       let u := s1.below lineR.loc lineR.size lineR.key true true
       lineR.size % 4 = 0 ∧ 0 < lineR.size ∧ s.redxWaits msTeam lineR true = false ∧ s1.isBad lineR.loc lineR.size = false ∧ Given s s1 u lineR true ∧ Undisturbed u 2) ∧
      31 < (List.replicate 128 (0#8)).length / 4 := by
  refine ⟨by decide, by decide, by constructor <;> decide, ⟨fun _ h => absurd h List.not_mem_nil, fun _ => by decide⟩,
    fun i hi r hr h => solo_resident (9 :: atomRegs 0 9 false) i hi r hr h, rfl, by decide +kernel, by decide +kernel, onSide_of _ (by decide +kernel), by decide +kernel,
    by decide +kernel, by decide +kernel, by decide +kernel, by decide +kernel, by decide +kernel, ⟨by decide +kernel, by decide +kernel, by decide +kernel, by decide +kernel, by decide +kernel, by decide +kernel, by decide +kernel, by decide +kernel, by decide +kernel, ?_, ⟨by decide +kernel, by decide +kernel⟩, fun m v h => ?_, by decide +kernel⟩,
    ⟨by decide +kernel, by decide +kernel, by decide +kernel, by decide +kernel, ?_⟩, ⟨by decide +kernel, by decide +kernel, by decide +kernel, by decide +kernel, ?_, ⟨by decide +kernel, by decide +kernel⟩⟩, by decide +kernel⟩
  · constructor <;> decide +kernel
  · have : (match atommR.what with | .masked _ _ => true | _ => false) = false := by decide +kernel
    rw [h] at this
    cases this
  · constructor <;> decide +kernel
  · constructor <;> decide +kernel

/-- A lane with its window at position 0, and sixteen positions spilled. -/
def spilt (n : Nat) : Group := { soloGroup with arch := { soloGroup.arch with lanes := [{ v := [(8, 5)], pc := 0x1000, resbase := n }] } }
def spiltSt (n : Nat) : State := withTeam (spilt n) soloTeam [0]

/-- Sixteen positions can be spilled and no more; sixteen filled and no more. -/
theorem witness_spill_fill_results :
    (∀ n ∈ [0, 16], Plain (spiltSt n) 2 [0] (spilt n)) ∧ Whole (spilt 0) false 7 11 ∧ (spilt 0).partdone = 0 ∧ (spilt 0).spillprog = 0 ∧ (spilt 0).trapMode = false ∧
      (let x := issueAt (spillForm 11 7) (spiltSt 0) 2 [0] (spilt 0)
       (∀ l ∈ [0], ((spilt 0).lane l).resbase + 16 ≤ ((spilt 0).lane l).wbase + 16) ∧ grants x (slotReqs false 16 15 x) 0 [0]) ∧
      (let x := issueAt (spillForm 11 7) (spiltSt 16) 2 [0] (spilt 16)
       (∀ l ∈ [0], 16 ≤ ((spilt 16).lane l).resbase ∧ ((spilt 16).lane l).wbase + 24 ≤ ((spilt 16).lane l).resbase - 16 + ((spilt 16).lane l).scap) ∧
        grants x (slotReqs true 16 15 x) 0 [0]) ∧
      [0].filter (fun l => decide (((spilt 0).lane l).wbase + 16 < ((spilt 0).lane l).resbase + 17)) = [0] ∧
      [0].filter (fun l => decide (((spilt 16).lane l).resbase < 17 ∨ ((spilt 16).lane l).resbase - 17 + ((spilt 16).lane l).scap < ((spilt 16).lane l).wbase + 24)) = [0] := by
  refine ⟨fun n h => ?_, ⟨by decide, by decide⟩, rfl, rfl, rfl, ⟨by decide, ?_⟩, ⟨by decide, ?_⟩, by decide, by decide⟩
  · have : n = 0 ∨ n = 16 := by simpa using h
    rcases this with rfl | rfl <;> constructor <;> decide
  all_goals exact ⟨⟨rfl, by decide +kernel, by decide +kernel, by decide +kernel, by decide +kernel, by decide +kernel, by decide +kernel, by decide +kernel, by decide +kernel⟩, by decide +kernel, by decide +kernel, by decide +kernel⟩

/-- An epoch with one buffered byte, at the last byte of a line. -/
def inEpoch (g : Group) (rolls : Nat) : Group :=
  { g with outctl := { rolls := rolls }, epoch := some { saved := g.arch, reads := [0x200], stores := [{ line := 0x200, cells := [(0x1007F, 5)] }],
                                                          writes := [(0x1007F, 1, some { kind := .dram, out := 0x1007F, rls := true })], writers := [(0, 2)] } }
def epochSt (rolls : Nat) (ops : Store EngineOp) : State := { withTeam (inEpoch soloGroup rolls) soloTeam [0] with ops := ops, parts := [(0, { running := some 0 })] }
def lockOp : EngineOp := { copyOp with srcs := [{ scratch := false, base := 0x1007F, len := 1 }], dsts := [] }

theorem witness_epoch_results :
    (∀ ops ∈ [[], [(8, lockOp)]], ∀ e, (inEpoch soloGroup 0).epoch = some e →
      let s := epochSt 0 ops
      look s.groups 2 = some (inEpoch soloGroup 0) ∧ (inEpoch soloGroup 0).release = [] ∧ (s.obtainStores 0 e 2).2 = true ∧ (s.obtainStores 0 e 2).1.groups = s.groups ∧
        (s.obtainStores 0 e 2).1.mem.wf = true ∧ e.writes.any ((s.obtainStores 0 e 2).1.refusesWrite soloTeam.ctx) = !ops.isEmpty ∧ e.dlb = [] ∧
        (ops = [] → Undisturbed (s.obtainStores 0 e 2).1 2) ∧ (∀ b ∈ e.stores, b.key = 0 ∧ b.tag = none ∧ ∀ c ∈ b.cells, c.1 < scratchBase)) ∧
      (∀ rolls ∈ [62, 63], Orderly (epochSt rolls []) ∧ (epochSt rolls []).monitors = [] ∧ look (epochSt rolls []).groups 2 = some (inEpoch soloGroup rolls) ∧
        0x200 ∈ [(0x10000, (1#8))].map (fun c => lineOf c.1)) ∧
      (∀ x ∈ (epochSt 0 []).groups, ∀ e, x.2.epoch = some e → ∀ n ∈ e.reads, n ∉ [(0x10080, (1#8))].map (fun c => lineOf c.1)) := by
  refine ⟨?_, ?_, ?_⟩
  · intro ops h e he
    cases he
    have : ops = [] ∨ ops = [(8, lockOp)] := by simpa using h
    rcases this with rfl | rfl
    · exact ⟨rfl, rfl, by decide +kernel, by decide +kernel, by decide +kernel, by decide +kernel, rfl, fun _ => ⟨by decide +kernel, by decide +kernel⟩, by decide⟩
    · exact ⟨rfl, rfl, by decide +kernel, by decide +kernel, by decide +kernel, by decide +kernel, rfl, (fun h => nomatch h), by decide⟩
  · intro rolls h
    have : rolls = 62 ∨ rolls = 63 := by simpa using h
    rcases this with rfl | rfl <;> exact ⟨by unfold Orderly; decide, rfl, rfl, by decide⟩
  · intro x h e he
    simp only [epochSt, withTeam, withGroup, List.mem_singleton] at h
    subst h
    cases he
    decide

/-- Two paths, the first of which has issued 64 instructions; a copy program at its second descriptor, that names 2 launches. -/
def pathGroup : Group := { demoGroup with arch := { demoGroup.arch with lanes := [lane0, { lane1 with path := 1 }], slices := [{ current := 0, issued := 64 }] } }
def descMem : Memory := { bytes := [(scratchLoc 0 0x20, 0x8C), (scratchLoc 0 0x21, 0x01), (scratchLoc 0 0x28, 0x00), (scratchLoc 0 0x29, 0x01), (scratchLoc 0 0x2C, 16), (scratchLoc 0 0x3C, 2)] }
def descRun : SeqRun := { entry := { team := 1, addr := 0, cap := rootCap, seed := 0 }, index := 1 }
def descSt : State := { engState with mem := descMem, cores := [(0, { copy := some descRun })], teams := [(1, { soloTeam with mlcount := 2, seqs := [{}, {}, { state := 2 }] })] }

theorem witness_path_and_descriptor_results :
    (let s := withGroup pathGroup [0]
     look s.groups 2 = some pathGroup ∧ pathGroup.arch.slices[0]? = some { current := 0, issued := 64 } ∧ (∀ e ∈ pathGroup.arch.sliceLanes 0, e.2.meld = none) ∧
      pathGroup.arch.sliceLanes 0 ≠ []) ∧
      (let s := descSt
       let word := fun (n : Nat) => ofBytes (s.mem.getsUnder 0 (scratchLoc 0 0x20 + 4 * n) 4)
       let rq := s.opRequester (s.programOp 0 descRun.entry (.copy {}))
       (s.core 0).copy = some descRun ∧ descRun.last = false ∧ (s.core 0).copyHalted = false ∧ s.teamRuns 1 = true ∧
        s.scratchRead rq ((descRun.entry.addr + 32 * descRun.index) % 2 ^ 32) 32 = .ok (scratchLoc 0 0x20) ∧ word 0 / 16 % 2 = 0 ∧ word 0 / 64 % 2 = 0 ∧
        word 0 / 128 % 2 = 1 ∧ word 7 = 2 ∧ (copyBad word true).any id = false ∧
        (∃ srcs dsts, s.copyRanges rq (copyDesc word) descRun.entry.cap descRun.entry.cap = .ok (srcs, dsts) ∧ s.blocked soloTeam.ctx srcs dsts (fun _ => false) = false) ∧
        s.hasEntry 0 true = true ∧ Orderly s) := by
  refine ⟨⟨rfl, rfl, by decide, by decide⟩, rfl, rfl, rfl, by decide, rfl, by decide +kernel, by decide +kernel, by decide +kernel, by decide +kernel, by decide +kernel, ⟨_, _, rfl, by decide +kernel⟩,
    by decide +kernel, by unfold Orderly; decide⟩

/-! ### Witnesses: caches, channels, the host link -/

/-- A group on core 0 that has read line 0x200 in outrider mode, with or without a priority token. -/
def reader (token : Bool) : Group :=
  { soloGroup with outctl := { token := token }, epoch := some { saved := soloGroup.arch, reads := [0x200] } }
def held200 (dirty : BitVec 8) (x : Bool) : L1Line := { core := 0, line := 0x200, key := 0, exclusive := x, valid := 0xFF, dirty := dirty }
/-- One line of the directory, copies and messages. -/
def coh (g : Group) (e : DirEntry) (l1 : List L1Line) (msgs : List Msg) : State :=
  { withTeam g soloTeam [0] with dir := [(0x200, e)], l1 := l1, msgs := msgs, clock := 5000 }
def toCore (k : MsgKind) : Msg := { kind := k, core := 0, line := 0x200 }

theorem orderly_one (g : Group) (h : g.trapMode = false) (e : DirEntry) (l1 : List L1Line) (msgs : List Msg) : Orderly (coh g e l1 msgs) := by
  intro x hx _
  simp only [coh, withTeam, withGroup, List.mem_singleton] at hx
  subst hx
  exact h

theorem witness_coherence_results :
    -- requests of core 0: at a line in I, in S with three sharers, with a coarse vector, in X of another, between states
    (∀ e ∈ ([{}, { state := .s, sharers := [1, 2, 3] }, { state := .s, cv := true, sharers := [1] }, { state := .s, sharers := [0] }, { state := .x, sharers := [1] }] : List DirEntry),
      let s := coh soloGroup e [] []
      s.l1Core 0 0x200 = 0 ∧ s.holds 0 0x200 false 0xFF = false ∧ s.holds 0 0x200 true 0xFF = false ∧ s.ownsCopy 0 0x200 = false ∧
        AtHome s 0x200 { core := some 0, own := false, mask := s.askMask 0 0x200 false 0xFF } 0 ∧
        AtHome s 0x200 { core := some 0, own := true, mask := s.askMask 0 0x200 true 0xFF } 0) ∧
      ({ state := .s, sharers := [1, 2, 3] } : DirEntry).targets (some 0) ≠ [] ∧ ({ state := .recall } : DirEntry).state = .recall ∧ (coh soloGroup { state := .recall } [] []).l1Fits 0 0x200 = true ∧
      (coh soloGroup { state := .recall } [] []).holds 0 0x200 false 0xFF = false ∧
    -- a line held in X, without its last granule; a line held whole
      (let s := coh soloGroup { state := .x, sharers := [0] } [{ held200 0 true with valid := 0x7F }] []
       s.ownsCopy 0 0x200 = true ∧ s.holds 0 0x200 true 0xFF = false ∧ s.holds 0 0x200 false 0xFF = false) ∧
      (coh soloGroup { state := .x, sharers := [0] } [held200 0 true] []).holds 0 0x200 true 0xFF = true ∧
    -- messages on their way
    (∀ k ∈ [MsgKind.grantS, MsgKind.grantX, MsgKind.invalidate, MsgKind.recallS, MsgKind.recallX, MsgKind.ack, MsgKind.writeBack 0x80],
      OnItsWay (coh (reader false) { state := .inv } [held200 0x80 true] [toCore k]) (toCore k) 0 0x200 k.net [] [] ∧ (coh (reader false) { state := .inv } [held200 0x80 true] [toCore k]).l1Fits 0 0x200 = true ∧
      Orderly (coh (reader false) { state := .inv } [held200 0x80 true] [toCore k])) ∧
      (let s := coh (reader false) {} [held200 0x80 true] [toCore .invalidate]
       s.heldBack (toCore .invalidate) = false ∧ s.isFused (clusterOf 0) = false ∧ s.copyOf 0 0x200 = some (held200 0x80 true)) ∧
      ((coh (reader true) {} [held200 0x80 true] [toCore .invalidate]).heldBack (toCore .invalidate) = true) ∧
    -- the home's transaction: the last acknowledgement, one of two; a write-back; copies given up
      (let e : DirEntry := { state := .inv, current := some { core := some 1, own := true, mask := 0xFF }, expected := 2, count := 0 }
       (coh soloGroup e [] [toCore .ack]).entry 0x200 = e ∧ e.waiting = [] ∧ e.count + 1 < e.expected ∧ ({ e with count := 1 } : DirEntry).count + 1 = e.expected) ∧
      (let e : DirEntry := { state := .recall, sharers := [0], current := some { core := some 1, own := false, mask := 0x0F }, expected := 1 }
       (coh soloGroup e [held200 0x80 true] [toCore (.writeBack 0x80)]).entry 0x200 = e ∧ e.waiting = []) ∧
      (∀ d ∈ [0, 0x80], (coh soloGroup { state := .x, sharers := [0] } [held200 d true] []).copyOf 0 0x200 = some (held200 d true) ∧
        (coh soloGroup { state := .x, sharers := [0] } [held200 d true] []).readersAt 0 0x200 = [] ∧
        (coh soloGroup { state := .x, sharers := [0] } [held200 d true] []).mscStalls 0x200 = false ∧ (coh soloGroup { state := .x, sharers := [0] } [held200 d true] []).governed 0x200 = false) ∧
      (let m : Msg := { toCore .invalidate with heldSince := some (5000 - 2048) }
       (coh (reader true) {} [held200 0 false] [m]).msgs = [] ++ m :: [] ∧ m.heldSince = some (5000 - 2048) ∧ 5000 - 2048 + 2048 ≤ (coh (reader true) {} [held200 0 false] [m]).ownClock 0 ∧ (coh (reader true) {} [held200 0 false] [m]).mscWaits m = false) := by
  refine ⟨?_, by decide, rfl, by decide, by decide, by decide, by decide, ?_, by decide, by decide, by decide, by decide, by decide, rfl, rfl, by decide, by decide⟩
  · intro e h
    simp only [List.mem_cons, List.not_mem_nil, or_false] at h
    rcases h with rfl | rfl | rfl | rfl | rfl <;> exact ⟨by decide, by decide, by decide, by decide, by constructor <;> decide, by constructor <;> decide⟩
  · intro k h
    simp only [List.mem_cons, List.not_mem_nil, or_false] at h
    rcases h with rfl | rfl | rfl | rfl | rfl | rfl | rfl <;>
      exact ⟨⟨rfl, by decide, by decide⟩, by decide, orderly_one _ rfl _ _ _⟩

/-- A channel with a read of the last granule of its 2 KiB, its pseudo-channel in a state. -/
def lastGranule : ChanReq := { id := 1, dpa := 0x10000, isWrite := false, fill := 1#128 <<< 127 }
def chanSt (r : ChanReq) (p : PowerState) (bad : List Nat) : State :=
  { solo with channels := [(7, { requests := [r], power := [(pseudoOf r.dpa, p)], lastUse := [(0, 10), (1, 10)], refresh := [(3, 0x4010A)] })], clock := 0x4000A, mem := { bad := bad } }

theorem witness_memory_channel_results :
    (∀ r ∈ [lastGranule, { lastGranule with isWrite := true }, { lastGranule with notBefore := 0x4000A }], AtChannel (chanSt r .awake []) 7 r [] []) ∧
      powerOf (chanSt lastGranule .awake []) 7 (pseudoOf lastGranule.dpa) = .awake ∧ (chanSt lastGranule .awake []).badOf lastGranule = [] ∧
      (chanSt lastGranule .awake [0x10000 / 16 + 127]).badOf lastGranule ≠ [] ∧ solo.retiring 0x10000 = false ∧
      -- the next request that an answer takes; one whose bank refreshes; a write held by a retirement
      (let s (r : ChanReq) (bad : List Nat) : State := { solo with channels := [(7, { requests := [r] })], mem := { bad := bad } }
       (s lastGranule []).nextReq 7 (fun q => !q.isWrite && ((s lastGranule []).badOf q).isEmpty) = some lastGranule ∧
        (s lastGranule [0x10000 / 16 + 127]).nextReq 7 (fun q => !q.isWrite && !((s lastGranule [0x10000 / 16 + 127]).badOf q).isEmpty) = some lastGranule ∧
        (s { lastGranule with isWrite := true } []).nextReq 7 (fun q => q.isWrite) = some { lastGranule with isWrite := true }) ∧
      (let s : State := { solo with channels := [(7, { requests := [lastGranule], refresh := [(lastGranule.bank, solo.clock + 0x100)] })] }
       look (s.chan 7).refresh lastGranule.bank = some (s.clock + 0x100) ∧ lastGranule ∈ s.heads 7) ∧
      (let s : State := { solo with retire := { busy := true, phase := 1, chan := channelOf 0x10000 } }
       s.retiring lastGranule.dpa = true) ∧
      powerOf (chanSt lastGranule (.exiting 0x4003A) []) 7 (pseudoOf lastGranule.dpa) = .exiting ((chanSt lastGranule .awake []).clock + 0x30) ∧
      (∀ p ∈ [PowerState.awake, .powerDown], let s := chanSt { lastGranule with dpa := 2048 * 384 } p []
        powerOf s 7 (pseudoOf (2048 * 384)) = p ∧ (∀ r ∈ (s.chan 7).requests, pseudoOf r.dpa ≠ 0) ∧ lookD (s.chan 7).lastUse 0 0 + 1024 * 0x100 = s.clock) ∧
      (let s : State := { solo with retire := { busy := true, phase := 1, chan := 383 }, retired := [(3, 31)] }
       s.retire.busy = true ∧ s.retire.phase = 1 ∧ s.retire.chan = 383 ∧ (look s.retired (96 / 32)).isSome = true ∧ look s.retired (383 / 32) = none) ∧
      channelOf (383 * 2048) = 383 ∧ channelOf 0 / 32 ≠ 383 / 32 ∧ solo.retire.busy = false ∧
      (let s : State := { solo with hotRegs := { en := true, epoch := 3, ended := [(0, 5)] }, clock := 5 + 3072 }
       lookD s.hotRegs.ended 0 0 + 1024 * s.hotRegs.epoch = s.clock) ∧
      ({ solo with hotRegs := { en := true }, hot := [(2, { count := 0x200, hot := true })] } : State).hotRegs.en = true := by
  refine ⟨?_, by decide, by decide +kernel, by decide +kernel, by decide, ⟨by decide +kernel, by decide +kernel, by decide +kernel⟩, ⟨by simp [State.chan, look, lookD], by decide⟩, by decide, by decide, by decide, ⟨rfl, rfl, rfl, by decide, by decide⟩,
    by decide, by decide, rfl, by decide, rfl⟩
  · intro r h
    have : r = lastGranule ∨ r = { lastGranule with isWrite := true } ∨ r = { lastGranule with notBefore := 0x4000A } := by simpa using h
    rcases this with rfl | rfl | rfl <;> exact ⟨rfl, fun q h => absurd h List.not_mem_nil⟩

/-- A line of host memory that core 0 owns, whose first half the host has given. -/
def hostLine : Nat := hostBase / 128
def hostSt (e : DirEntry) (l1 : List L1Line) (h : BitVec 4) : State := { solo with dir := [(hostLine, e)], l1 := l1, halves := [(hostLine, h)] }
/-- Stage 2 of function 0 with one host-owned leaf of 4 KiB at 0x300000; the function that maps it runs in partition 0. -/
def ownedSt (word : Nat) : State :=
  { cp { cpPart with running := none } with
    mem := { bytes := [(0x110000, 0x01), (0x110003, 0x01), (0x1000000, 0x01), (0x1000001, 0x10), (0x1000003, 0x01), (0x1001000, 0x01), (0x1001001, 0x20), (0x1001003, 0x01),
                       (0x1002000, 0x01), (0x1002001, 0x30), (0x1002003, 0x01), (0x1003000, 0x01), (0x1003001, 0x40), (0x1003003, 0x01),
                       (0x1004000, 0x07), (0x1004001, BitVec.ofNat 8 word), (0x1004002, 0x30)] } }

theorem witness_host_link_results :
    (let c : L1Line := { held200 0 true with line := hostLine }
     let s := hostSt { state := .x, sharers := [0] } [c] 15
     s.fromHost hostLine = true ∧ Quiet s hostLine ∧ (s.entry hostLine).state = .x ∧ (s.entry hostLine).sharers = [0] ∧ (s.entry hostLine).cv = false ∧
      s.copyOf 0 hostLine = some c ∧ s.mscStalls hostLine = false ∧ s.governed hostLine = false ∧ look s.halves hostLine = some 15 ∧ s.monitors = [] ∧ s.mem.wf = true) ∧
      (let s := hostSt { waiting := [{ core := some 0, own := false, mask := 0xFF }] } [] 1
       look s.halves hostLine = some 1 ∧ (∀ m ∈ s.msgs, m.line ≠ hostLine) ∧ (s.entry hostLine).state = .i ∧ (s.entry hostLine).waiting = [{ core := some 0, own := false, mask := 0xFF }] ∧
        s.hotRegs.en = false ∧ s.dirFits hostLine 0 = true ∧ s.mscStalls hostLine = false ∧ s.l1Fits 0 hostLine = true ∧ s.flipping hostLine = false ∧ s.snoopFilter.contains hostLine = false ∧ (1#4 ||| (1#4 <<< (1 : Fin 2).val)) &&& 3 = 3) ∧
      dramSize - 1 < dramSize ∧ solo.leafOf (dramSize - 1) = none ∧
      (∀ w ∈ [0x01, 0x09], (ownedSt w).leafOf 0x300FFF = some (0, BitVec.ofNat 64 (0x300007 + 256 * w)) ∧ leafHostOwned (BitVec.ofNat 64 (0x300007 + 256 * w)) = decide (w = 9)) ∧
      (let s := ownedSt 0x01
       s.hotRegs.en = false ∧
        (let u := s.snoop (0x300FFF / 128) false
         u.copiesGone (0x300FFF / 128) false = true ∧ u.filterFits (0x300FFF / 128) = true ∧ u.hotRegs.en = false) ∧
        (let u := s.snoop (0x300FFF / 128) true
         u.copiesGone (0x300FFF / 128) true = true ∧ u.filterFits (0x300FFF / 128) = true ∧ u.governed (0x300FFF / 128) = false ∧ u.hotRegs.en = false ∧ Orderly u ∧ u.monitors = [] ∧ u.mem.wf = true)) ∧
      (let s : State := { hostSt {} [] 0 with bisnp := [0x200], parts := [(0, { waiting := [{ queue := 2, cw := 8, what := .flipHost 0 0 true 0 [0x10] [0x200] }] })] }
       0x200 ∈ s.bisnp ∧ Quiet s 0x200) := by
  refine ⟨⟨by decide, ?_, by decide, by decide, by decide, by decide, by decide, by decide, rfl, by decide⟩, by decide, by decide, by decide, by decide +kernel, ?_, ?_⟩
  · constructor <;> first | decide | (unfold Orderly; decide)
  · unfold Orderly; decide +kernel
  · exact ⟨by decide, by constructor <;> first | decide | (unfold Orderly; decide)⟩

/-! ### Witnesses: fault queue, fabric -/

/-- Lane 0 of a group parked on a fault record of stage 1 or 2; 511 records stand before it that are not answered. -/
def parkedTrap : TrapInfo := { cause := .pageFaultS2, addr := 0x1234, lanes := [0], pc := 0x1000, convoy := [0] }
def recordOf (id : Option Nat) (stage2 : Bool) : FaultRec :=
  { id := id, fn := 0, asid := 0, fault := { stage2 := stage2, reason := rNotValid }, gva := 0x1234, access := 0, source := 0, cluster := 0, core := 0, parties := [.lanes 2 parkedTrap] }
def faultSt (rs : List FaultRec) (head : Word) : State :=
  { withTeam { soloGroup with arch := { soloGroup.arch with lanes := [{ park := some .record, pc := 0x1000 }] } } soloTeam [0] with
    parts := [(0, { running := some 0, faults := rs, fqHead := head, fqBase := 0x4000 })] }

theorem witness_fault_queue_results :
    (∀ b ∈ [false, true], let s := faultSt [recordOf (some 511) b] 512
      (s.part 0).faults = [] ++ recordOf (some 511) b :: [] ∧ (∀ x ∈ (s.part 0).faults, x.answer = none) ∧ (recordOf (some 511) b).id = some 511 ∧
        (recordOf (some 511) b).parties = [.lanes 2 parkedTrap] ∧ (look s.groups 2).isSome = true ∧ s.teamRuns 1 = true ∧ (recordOf (some 511) b).fault.stage2 = b) ∧
      (let s := faultSt [recordOf (some 3) true] 4
       ∀ r ∈ (s.part 0).faults, r.id ≠ none ∨ r.hidden = true) ∧
      (let s := faultSt [recordOf none true] 512
       (s.part 0).faults = [] ++ recordOf none true :: [] ∧ (recordOf none true).hidden = false ∧ (s.part 0).fqHead - 1 ≠ 512 ∧ s.mem.wf = true ∧ Orderly s) := by
  refine ⟨by decide, by decide, rfl, rfl, by decide, by decide, by unfold Orderly; decide⟩

/-- Function 0, which maps everything to itself, bound to VDN 1 with VDN 5 on its roster; VDN 2 bound elsewhere; VDN 3 to a partition that stands still. -/
def fabPart : Part := { clusters := 1, block := [0x100000, 4, 0x110000, 0, 0x300000], mapped := [(0, cpQueue)] }
def fabSt (p : Part) : State :=
  { State.reset with parts := [(0, p)], vdn := [(1, 0x9000000000000000), (2, 0x8000000000000000), (5, 0x8000000000000000)], roster := [(0, 0x20)]
                     mem := { bytes := [(0x1000F, 7), (0x10070, 9)] } }
def flit (len : Fin 16) (op : Fin 64) (mask : BitVec 16) (payload : List Byte) : Flit :=
  { tc := 3, dvdn := 1, svdn := 5, tag := 0xFFFF, len := len, op := op, mask := mask, gpa := 0x10000, payload := payload }
def sixteen : List Byte := List.replicate 15 1 ++ [2]
def letIn (s : State) (f : Flit) (gpa size : Nat) (w : What) : Prop :=
  let x := xlatOf (identityLeaf gpa) gpa false
  LetIn s ((s.takeRange x.out size w.writes).below x.out size (s.serialOf x.key) (sideOf w) w.writes) f gpa size w (some 0) 0 (identityLeaf gpa) x

theorem witness_inbound_results :
    -- a read of a whole line; a write of its first granule's last byte, of two bytes apart, of a whole line; an atomic of each kind
    letIn (fabSt fabPart) (flit 8 0 0xFFFF []) 0x10000 128 .load ∧
      (maskRun 0x8000 = some (15, 1) ∧ letIn (fabSt fabPart) (flit 1 0 0x8000 sixteen) 0x1000F 1 (.store ((sixteen.drop 15).take 1))) ∧
      (maskRun 0x8001 = none ∧ letIn (fabSt fabPart) (flit 1 0 0x8001 sixteen) 0x10000 16 (.masked 0x8001 sixteen)) ∧
      letIn (fabSt fabPart) (flit 2 0 0xFFFF (sixteen ++ sixteen)) 0x10000 32 (.store (sixteen ++ sixteen)) ∧
      ((flit 1 0 0xF000 sixteen).atomic false = some (0x1000C, 4, .atomic 0 false false 0x01010101 0x01010101) ∧
        letIn (fabSt fabPart) (flit 1 0 0xF000 sixteen) 0x1000C 4 (.atomic 0 false false 0x01010101 0x01010101)) ∧
      ((flit 1 0x10 0xF000 sixteen).atomic true = some (0x1000C, 4, .atomic 0 false true 0x01010101 0x01010101) ∧
        letIn (fabSt fabPart) (flit 1 0x10 0xF000 sixteen) 0x1000C 4 (.atomic 0 false true 0x01010101 0x01010101)) ∧
    -- turned away
      (fabSt fabPart).gate 9 5 = .unbound ∧ (fabSt fabPart).gate 2 5 = .moved ∧ (fabSt { fabPart with migHeld := true }).gate 1 5 = .retry (some 65535) ∧
      (fabSt fabPart).gate 1 6 = .roster (some 0) 0 ∧ (fabSt fabPart).gate 1 5 = .pass (some 0) 0 ∧
      stage2 (fabSt fabPart) ((fabSt fabPart).inCtx (some 0) 0) (2 ^ 52 - 16) = .error rOutOfRange ∧
      (let s : State := { fabSt fabPart with ops := [(8, { copyOp with srcs := [], dsts := [{ scratch := false, base := 0x10000, len := 16 }] })] }
       s.refuser { ctx := s.inCtx (some 0) 0, gva := 2 ^ 60, size := 128, x := xlatOf (identityLeaf 0x10000) 0x10000 false } false ≠ none) := by
  refine ⟨?_, ⟨rfl, ?_⟩, ⟨rfl, ?_⟩, ?_, ⟨rfl, ?_⟩, ⟨rfl, ?_⟩, by decide, by decide, by decide, by decide, by decide, rfl, by decide +kernel⟩ <;> constructor <;>
    first | rfl | decide +kernel | (unfold Orderly; decide +kernel)

/-- A collective program of function 0 with one step of an operation, in progress. -/
def posted (op len : Nat) : PostedStep :=
  { index := 0, op := op, args := { async := false, vdn := 5, dt := 0, tc := 0, tag := 0xFFFF, offset := 0, length := BitVec.ofNat 32 len, value := 1 }, engineOp := 40 }
def steppingSt (u : PostedStep) : State := { fabSt fabPart with colls := [(0, { collProg with posted := [u], next := 1 })] }
def message (len : Fin 16) (payload : List Byte) : Flit := { flit len 0 0xFFFF payload with gpa := 0 }
theorem witness_inbound_messages :
    (let s : State := { fabSt fabPart with mem := { bytes := [(0x100000, 0x01), (0x300000, 0x01), (0x300001, 0x14), (0x300004, 0xFF), (0x300005, 0xFF), (0x30000A, 0x13)] } }
     let f := message 1 (List.replicate 16 0xFF)
     s.gate f.dvdn f.svdn = .pass (some 0) 0 ∧ f.shaped = true ∧ s.launchListed 0 f.svdn (ofBytes (f.payload.take 2)) = .take 0 0x130000 ∧
      s.queueEntry 0 0 = some (entry 0) ∧ look (s.part 0).mapped 0 = some cpQueue) ∧
      (let s : State := { fabSt { fabPart with procs := [(0, 0x120000)] } with mem := { bytes := [(0x100000, 0x01), (0x300000, 0x01), (0x300001, 0x14), (0x300004, 0xFF), (0x300005, 0xFF), (0x30000A, 0x13)] } }
       ∃ t0 loc j, s.reachMem ((entry 0).ctx s 0) false (cpQueue.ringBase + 64 * (cpQueue.wptr.toNat % 2 ^ cpQueue.ringLog)) true = some (t0, loc, j) ∧
        Calm s (t0.cpStore loc j (launchBytes 0x130000)) ∧ (t0.cpStore loc j (launchBytes 0x130000)).sent = s.sent) ∧
      (∀ op ∈ [1, 2], (steppingSt (posted op 16)).findStep 0 (fun t => (t.op == 1 || t.op == 2) && t.args.vdn == (message 1 []).svdn && t.args.tag == (message 1 []).tag &&
        decide (t.received.length < t.args.length.toNat)) = some (0, posted op 16) ∧
        (if (List.replicate 16 (1#8)).length < 240 then (posted op 16).received.length + (List.replicate 16 (1#8)).length else Config.sendLength 40) = (posted op 16).args.length.toNat) ∧
      (steppingSt (posted 0 240)).findStep 0 (fun t => t.op == 0 && !t.cleared && t.args.vdn == (message 0 []).svdn && t.args.tag == (message 0 []).tag) = some (0, posted 0 240) ∧
      (steppingSt (posted 6 240)).findStep 0 (fun t => t.takesSparse (message 1 []).tag) = some (0, posted 6 240) ∧
      (steppingSt (posted 6 240)).findStep 0 (fun t => t.op == 0 && !t.cleared && t.args.vdn == (message 0 []).svdn && t.args.tag == (message 0 []).tag) = none ∧
      (message 1 (List.replicate 16 1)).shaped = true ∧ (message 1 (List.replicate 8 1)).shaped = true ∧ (message 0 []).shaped = true := by
  refine ⟨by decide +kernel, ⟨_, _, _, rfl, by unfold Calm; decide +kernel, by decide +kernel⟩, by decide +kernel, by decide +kernel, by decide +kernel, by decide +kernel, by decide +kernel,
    by decide +kernel, by decide +kernel⟩

/-- A load of one lane, out to VDN 5. -/
def farReq (w : What) : Req := { lane := 0, unit := 0, gva := 0x5000, loc := 0x5000, size := 4, x := some { kind := .peer, out := 0x5000, vdn := 5 }, what := w }
def farDrain (w : What) : DrainOp :=
  { gid := 2, saved := soloGroup.arch, ctl := {}, mask := [0], act := [0], pc := 0x1000, acc := .read, flag := 11, place := .plain false, dest := [(0, [31])], todo := [farReq w] }
def farOut (w : What) (st : OutState) : Outbound := { owner := .drain 7, part := 0, fn := 0, svdn := 1, vdn := 5, gpa := 0x5000, size := 4, what := w, state := st, ports := 3 }
/-- Its group, whose position 31 the load has yet to write. -/
def farGroup : Group :=
  { soloGroup with drained := some 7
                   arch := { soloGroup.arch with hazards := [{ lane := 0, file := .v, reg := 31, key := 31, old := 0, due := 0, varLat := true, flag := 11, drained := true }] } }
/-- The entry of VDN 5 with these bits, the packet in a state, at 240,000,000 cycles. -/
def farSt (e : DWord) (w : What) (st : OutState) : State :=
  { withTeam farGroup soloTeam [0] with
    parts := [(0, { running := some 0 })], vdn := [(5, e)], drains := [(7, farDrain w)], outbound := [(8, farOut w st)], clock := 240000000 }

theorem witness_outbound_results :
    (∀ w ∈ [What.load, .store [1, 2, 3, 4]], ∀ b ∈ [0, 1], Outstanding (farSt 0x8000000080018000 w (.sent b 3)) 8 7 (farOut w (.sent b 3)) (farDrain w) farGroup (farReq w) [31] b 3) ∧
      Undisturbed (farSt 0x8000000080018000 .load (.sent 0 3)) 2 ∧ vdnEpoch 0x8000000080018000 = 3 ∧ vdnEpoch 0x8000000080020000 = 4 ∧
      BitVec.ofNat 18 (vdnPorts 0x8000000080020000) &&& ~~~(farSt 0x8000000080020000 .load (.sent 0 3)).portsDown ≠ 0 ∧ vdnHeld 0x8000000080020000 = false ∧ vdnLocal 0x8000000080020000 = false ∧
      0 + 240000000 ≤ (farSt 0 .load (.sent 0 3)).clock ∧ (farSt 0 .load (.sent 0 3)).clock < 1 + 240000000 ∧
      vdnHeld 0xA000000080020000 = true ∧ (farSt 0 .load (.retry 240000000)).clock = 240000000 ∧
      (∀ x ∈ (farSt 0 .load (.sent 0 3)).outbound, x.2.state = .held → x.2.vdn ≠ 2047) ∧
      bits 0xA000000080020000 61 2 = 1 ∧ BitVec.ofNat 18 (vdnPorts 0x8000000080020000) &&& ~~~(1#18) = 0 ∧ BitVec.ofNat 18 (vdnPorts 0x8000000100020000) &&& ~~~(1#18) ≠ 0 ∧
      (∀ x ∈ (farSt 0x8000000100020000 .load (.sent 0 3)).outbound, ∀ a b, x.2.state = .sent a b →
        ({ farSt 0x8000000100020000 .load (.sent 0 3) with portsDown := 1 } : State).hasPort x.2 = true) := by
  refine ⟨?_, ⟨by decide, by decide⟩, by decide, by decide, by decide, by decide, by decide, by decide, by decide, by decide, by decide, ?_, by decide, by decide, by decide, ?_⟩
  · intro w hw b hb
    have hw' : w = .load ∨ w = .store [1, 2, 3, 4] := by simpa using hw
    have hb' : b = 0 ∨ b = 1 := by simpa using hb
    rcases hw' with rfl | rfl <;> rcases hb' with rfl | rfl <;> constructor <;> first | rfl | decide | exact ⟨_, rfl, rfl⟩
  · intro x hx hs
    simp only [farSt, List.mem_singleton] at hx
    subst hx
    cases hs
  · intro x hx _ _ _
    simp only [farSt, List.mem_singleton] at hx
    subst hx
    decide

/-! ### Witnesses: migration, the SEC, power -/

/-- A migration list of one block, from GPA 0x500000 of function 0; VDN 1 the migration engine's, VDN 5 the destination's. -/
def migSt (p : Part) : State :=
  { fabSt { p with clusters := 1, block := [0x100000, 4, 0x110000, 0, 0], migList := 0x10000400000 } with mem := { bytes := [(0x400002, 0x50), (0x400009, 0x08)] } }
def oneBlock : Extent := { gpa := 0x500000, len := 0x800, sfn := 0, dfn := 0 }
def goWord : DWord := 0x000A000080100000

/-- The memory at 0x500000, where the host's HDM decoders do not expose it, can be moved once GO names its ports and VDNs; before, it cannot. -/
theorem go_status (h : Config.hdm 0 = false) : ((migSt {}).onPart 0 (fun q => q.setMigctl goWord)).goStatus 0 = 0 := by
  have e : ((migSt {}).onPart 0 (fun q => q.setMigctl goWord)).extents 0 = some [oneBlock] := by decide +kernel
  have m : ((migSt {}).onPart 0 (fun q => q.setMigctl goWord)).extentMapped 0 oneBlock = true := by decide +kernel
  have b : ((migSt {}).onPart 0 (fun q => q.setMigctl goWord)).extentBad 0 oneBlock = false := by
    have f : (((migSt {}).onPart 0 (fun q => q.setMigctl goWord)).functionsOf 0).contains oneBlock.sfn = true := by decide +kernel
    have p : ((migSt {}).onPart 0 (fun q => q.setMigctl goWord)).extentPieces 0 oneBlock = [{ base := 0x500000, size := 0x800, kind := .dram, out := 0x500000, leaf := 2 ^ 60 }] := by
      decide +kernel
    unfold State.extentBad
    rw [f, p]
    simp [span, h, List.range, List.range.loop]
    decide
  have u : ((migSt {}).onPart 0 (fun q => q.setMigctl goWord)).extentBusy 0 oneBlock = false := by decide +kernel
  unfold State.goStatus
  rw [e]
  simp only [List.any_cons, List.any_nil, m, b, u]
  decide +kernel

theorem go_refused : (migSt {}).goStatus 0 = 2 := by
  have e : (migSt {}).extents 0 = some [oneBlock] := by decide +kernel
  have m : (migSt {}).extentMapped 0 oneBlock = true := by decide +kernel
  unfold State.goStatus
  rw [e]
  have q : ((migSt {}).part 0).migPorts = 0 := by decide +kernel
  simp only [List.any_cons, List.any_nil, m, q]
  simp [migSt, fabSt]

theorem witness_migration_results :
    (migSt {}).extents 0 = some [oneBlock] ∧ (Config.hdm 0 = false → ((migSt {}).onPart 0 (fun q => q.setMigctl goWord)).goStatus 0 = 0) ∧ (migSt {}).goStatus 0 = 2 ∧
      (fabSt fabPart).extents 0 = none ∧ (migSt {}).extentMapped 0 oneBlock = true ∧ (migSt {}).extentMapped 0 { oneBlock with gpa := dramSize - 1024 } = false ∧
      ((migSt {}).part 0).migPorts = 0 ∧
      (∀ b ∈ [false, true], let s := migSt { migPhase := 1, migPos := 1, migStop := b, migRanges := [(0x500000, 0x800)] }
        s.extents 0 = some [oneBlock] ∧ (s.part 0).migPhase = 1 ∧ listBlocks [oneBlock] ≤ (s.part 0).migPos ∧ s.dirtyListed 0 ≤ 262144) ∧
      (∀ used ∈ [3, 4], let q : Part := { migPhase := 1, migRanges := [(0x500000, 0x800)], migEffective := 4, migUsed := used }
        let s : State := { solo with parts := [(0, q)] }
        s.parts = [(0, q)] ∧ 128 * 0xA00F < dramSize ∧ s.dirtyMap.contains (0xA00F / 16) = false ∧ q.lists (0xA00F / 16) = true) ∧
    -- the destination: a line, the last image write that fits and the first that does not, a carried result kept and one applied
      (let f (op : Fin 64) (len : Fin 16) (gpa n : Nat) : Flit := { flit len op 0xFFFF (List.replicate n 1) with gpa := gpa, tag := 0 }
       let s := migSt { inEn := true, inSrc := 5, inPhase := 1, inImg := 0x600 }
       (∀ x ∈ [f 0x3F 9 0x500000 144, f 0x3E 15 0 240, f 0x3D 1 0xFFF0 16], x.shaped = true ∧ s.gate x.dvdn x.svdn = .pass (some 0) 0 ∧ s.acceptsMigration x = some 0) ∧
        look s.sec.migKeys 0 = none ∧ s.partOf 0 = some 0 ∧ stage2 s (s.inCtx (some 0) 0) 0x500000 = .ok (identityLeaf 0x500000) ∧ s.keyUsable 0 0 0 = true ∧
        (∀ a ∈ [(0x500000, 128), (0x600000, 240)], let v := s.takeRange a.1 a.2 true
          let u := v.below a.1 a.2 0 false true
          v.rangeFree a.1 a.2 true = true ∧ v.belowReady a.1 a.2 false = true ∧ v.sec = s.sec ∧ v.parts = s.parts ∧ u.mem.wf = true ∧ Orderly u) ∧ s.serialOf 0 = 0 ∧
        s.imageArea 0 = 0x800000 ∧ (f 0x3E 15 (0x800000 - 240) 240).gpa + 240 ≤ 0x800000 ∧ 0x800000 < (f 0x3E 15 (0x800000 - 224) 240).gpa + 240) ∧
      (let q : Outbound := { farOut .load (.elsewhere 0xFFF0) with owner := .drain 7 }
       let s : State := { farSt 0 .load (.elsewhere 0xFFF0) with parts := [(0, { running := some 0, inPhase := 2 })] }
       s.outbound = [(8, q)] ∧ q.moved = none ∧ q.size ≤ 8 ∧ look s.drains 7 = some (farDrain .load) ∧ (farDrain .load).todo = [farReq .load] ∧ s.teamRuns 1 = true) ∧
    -- installation, switch, resume, the end of forwarding
      (let s := migSt { inEnd := some (flit 1 0 0 []), inImg := 0x600 }
       (s.part 0).inEnd = some (flit 1 0 0 []) ∧ s.installed 0 = none ∧ (s.readDWord 0 (0x600000 + 16)).toNat < 64) ∧
      (∀ ph ∈ [2, 3], let s : State := { migSt { migPhase := ph, migEndAck := true, inPhase := 2, capClock := 5, inRun := some 0 } with clock := 480000 }
        (s.part 0).migPhase = ph ∧ (s.part 0).inPhase = 2 ∧ (s.part 0).migSwitched + 480000 = s.clock ∧ (∀ x ∈ s.outbound, x.2.state ≠ .held) ∧
          (∀ r ∈ (s.part 0).faults, r.answer = none) ∧ s.vdn.Pairwise (fun a b => a.1 < b.1) ∧ s.vdnsOf 0 ≠ [])
      := by
  refine ⟨by decide +kernel, go_status, go_refused, by decide +kernel, by decide +kernel, by decide +kernel, by decide, by decide +kernel, by decide,
    ⟨by decide +kernel, rfl, by decide +kernel, rfl, by decide, fun a h => ?_, by decide +kernel, by decide +kernel, by decide, by decide⟩, by decide, by decide +kernel, by decide +kernel⟩
  have : a = (0x500000, 128) ∨ a = (0x600000, 240) := by simpa using h
  rcases this with rfl | rfl <;>
    exact ⟨by decide +kernel, by decide +kernel, by decide +kernel, by decide +kernel, by decide +kernel, by unfold Orderly; decide +kernel⟩

theorem witness_host_register_results :
    (let s := migSt {}
     s.hasTeams 0 = false ∧ (s.part 0).migPhase = 0 ∧ (∀ e ∈ s.parts, e.1 ≠ 0 → e.2.clusters &&& 1 = 0) ∧ (s.part 0).clusters ≠ 0 ∧ s.parts.Pairwise (fun a b => a.1 < b.1)) ∧
      (let s : State := { migSt {} with parts := [(0, { clusters := 1, hbmMin := 1000, fabMin := 250 }), (1, { clusters := 2 })] }
       (∃ e ∈ s.parts, e.1 ≠ 1 ∧ e.2.clusters &&& 3 ≠ 0) ∧ 24 + ((s.parts.filter (fun e => e.1 != 1)).map (·.2.hbmMin)).sum = 1024 ∧
        6 + ((s.parts.filter (fun e => e.1 != 1)).map (·.2.fabMin)).sum = 256) ∧
      (0x1FFFFFFFFFFFFFFF#64).toNat / 2 ^ 61 = 0 ∧ (0x7FFFFFFFFFFFFFFF#64).getLsbD 63 = false ∧ (4 : Fin 5).val < ({} : Part).block.length := by
  refine ⟨by decide +kernel, by decide +kernel, by decide, by decide, by decide⟩

/-- The SEC before one command, its buffer the last of DRAM that holds its status; key ID 4095 is bound to function 0, of partition 0, which has an
attestation key. What a signature or a hash comes to is `Config`'s, and either case of it is open. -/
def lastBuf : Nat := dramSize - 65536
def secSt (op arg : Nat) (k : Sec) : State :=
  { fabSt fabPart with sec := { k with queue := [{ op := op, arg := arg, buf := lastBuf, number := 1 }] } }
/-- The command can complete: nothing holds its buffer. -/
def canEnd (s u : State) (k : Sec) : Prop :=
  let w : State := { u with sec := { k with queue := s.sec.queue.drop 1, done := s.sec.done + 1 } }
  let v := (w.takeRange lastBuf 8 true).below lastBuf 8 0 false true
  lastBuf + 8 ≤ dramSize ∧ v.mem.wf = true ∧ Orderly v ∧ v.sec = w.sec

theorem can_end (s u : State) (k : Sec) (b : Blank u) (hw : u.mem.wf = true) (ho : Orderly u) : canEnd s u k := by
  have a : Still { u with sec := { k with queue := s.sec.queue.drop 1, done := s.sec.done + 1 } }
      ((({ u with sec := { k with queue := s.sec.queue.drop 1, done := s.sec.done + 1 } } : State).takeRange lastBuf 8 true).below lastBuf 8 0 false true) := by
    have t := still_takeRange { u with sec := { k with queue := s.sec.queue.drop 1, done := s.sec.done + 1 } } lastBuf 8 true
      ⟨b.homes, b.host, b.flips, b.hot⟩ (by decide)
    exact t.trans (still_below _ _ _ _ _ (by rw [t.hot]; exact b.hot))
  refine ⟨by decide, ?_, ?_, a.sec⟩
  · unfold Memory.wf at hw ⊢
    rw [a.bytes]
    exact hw
  · unfold Orderly at ho ⊢
    rw [a.groups]
    exact ho

/-- A command's buffer read, where nothing is held. -/
theorem sec_take (s : State) (n : Nat) (b : Blank s) (h : ∀ l ∈ linesFrom lastBuf n, isHostLine l = false) : Still s (s.secTake lastBuf n) := by
  have t := still_takeRange s lastBuf n false b h
  exact t.trans (still_below _ _ _ _ _ (by rw [t.hot]; exact b.hot))

theorem sec_blank (op arg : Nat) (k : Sec) : Blank (secSt op arg k) := ⟨⟨rfl, rfl, rfl⟩, rfl, fun _ => rfl, rfl⟩

theorem sec_wf (op arg : Nat) (k : Sec) : (secSt op arg k).mem.wf = true := by
  show (fabSt fabPart).mem.wf = true
  decide

theorem sec_orderly (op arg : Nat) (k : Sec) : Orderly (secSt op arg k) := by
  intro x hx
  exact absurd hx List.not_mem_nil

theorem can_end_taken (op arg n : Nat) (k k2 : Sec) (h : ∀ l ∈ linesFrom lastBuf n, isHostLine l = false) :
    canEnd (secSt op arg k) ((secSt op arg k).secTake lastBuf n) k2 := by
  have t := sec_take (secSt op arg k) n (sec_blank op arg k) h
  refine can_end _ _ _ ((sec_blank op arg k).of_still t) ?_ ?_
  · have w := sec_wf op arg k
    unfold Memory.wf at w ⊢
    rw [t.bytes]
    exact w
  · have o := sec_orderly op arg k
    unfold Orderly at o ⊢
    rw [t.groups]
    exact o

theorem sec_head (op arg : Nat) (k : Sec) : SecHead (secSt op arg k) op arg lastBuf { op := op, arg := arg, buf := lastBuf, number := 1 } := ⟨rfl, rfl, rfl, rfl, rfl⟩

theorem witness_sec_results :
    -- KEYINSTALL of an empty and of a busy key ID; KEYRETIRE
    (∀ k ∈ [({ attKeys := [(0, 7)] } : Sec), { keys := [(4095, { fn := 0, serial := 3 })] }, {}], let s := secSt 1 4095 k
      let u := s.secTake lastBuf 184
      u.sec = s.sec ∧ u.secNumber lastBuf 8 8 = 0 ∧ u.partOf 0 = some 0 ∧ canEnd s u k) ∧
      ((fabSt { fabPart with block := [] }).partOf 0 = none) ∧
      (let s := secSt 2 4095 { keys := [(4095, { fn := 0, serial := 3 })] }
       (s.dropKeyLines 3).sec = s.sec ∧ (s.dropKeyLines 3).keyGone 3 = true ∧ canEnd s (s.dropKeyLines 3) {}) ∧
    -- ATTEST and MIGKEY of the last partition, SEAL, UNLOCK, FWCOMMIT
      (let s := secSt 8 63 {}
       (s.secTake lastBuf 16880).sec = s.sec ∧ canEnd s (s.secTake lastBuf 16880) {}) ∧
      (∀ l ∈ [[], [0]], let s := secSt 4 0 { sealedParts := l, sealing := [0], tokens := [(0, { part := 0, perm := 1, expiry := 0 })] }
        canEnd s s s.sec ∧ canEnd s (s.disarmAll 0) s.sec) ∧
      (let s := secSt 5 0 {}
       (s.secTake lastBuf 17640).sec = s.sec ∧ canEnd s (s.secTake lastBuf 17640) {}) ∧
      (∀ v ∈ [(0, 1), (1, 1)], let s := secSt 7 0 { fuse := v.1, svn := v.2 }
        canEnd s s s.sec ∧ s.sec.fuse = v.1 ∧ s.sec.svn = v.2) ∧
    -- tokens at their EXPIRY; a breakpoint
      (let s := fun (n : Nat) => ({ withTeam soloGroup { soloTeam with ctx := { part := 3 } } [0] with sec := { tokens := [(0, { part := 255, perm := 1, expiry := 9 })] }, clock := n } : State)
       look (s 9).sec.tokens 0 = some { part := 255, perm := 1, expiry := 9 } ∧ (s 9).clock = 9 ∧ look (s 9).groups 2 = some soloGroup ∧
        (3 ∉ (s 9).sec.sealedParts ∧ ∃ e ∈ (s 9).sec.tokens, (e.2.part = 3 ∨ e.2.part = 255) ∧ e.2.perm.getLsbD 0 = true ∧ (s 9).clock ≤ e.2.expiry)) ∧
      (List.replicate 48 (1#8)).length = 48 ∧ (0x04FFFFFFFFFFFFFF#64).toNat / 2 ^ 56 = 4 ∧ (0x0403FFFFFFFFFFFF#64).toNat / 2 ^ 44 % 2 ^ 12 = 63 := by
  have t (op arg n : Nat) (h : ∀ l ∈ linesFrom lastBuf n, isHostLine l = false) : ((secSt op arg {}).secTake lastBuf n).sec = (secSt op arg {}).sec :=
    (sec_take _ n (sec_blank op arg {}) h).sec
  refine ⟨?_, by decide +kernel, ⟨by decide +kernel, by decide +kernel, ?_⟩, ⟨t 8 63 16880 (by decide +kernel), can_end_taken 8 63 16880 _ _ (by decide +kernel)⟩, ?_,
    ⟨t 5 0 17640 (by decide +kernel), can_end_taken 5 0 17640 _ _ (by decide +kernel)⟩, ?_, by decide, by decide, by decide, by decide⟩ <;>
    unfold canEnd Orderly <;> decide +kernel

/-- Each place of the responder. -/
theorem witness_spdm_results :
    (∀ p ∈ [Spdm.idle, .version, .capabilities, .negotiated, .exchanging, .session],
      ({ State.reset with sec := { spdm := p, algs := { rsa3072Sha384 := true, secp384r1 := true, aes256Gcm := true }, ideKeys := [(15, 1)], ideActive := [(7, 1)] } } : State).sec.spdm = p) ∧
      (let ks : IdeKeySet := { stream := 3, dir := 1, set := 1 }
       ks.stream ≤ 3 ∧ look ([(15, (1 : BitVec 256))] : Store (BitVec 256)) (ks.stream * 4 + ks.dir.val * 2 + ks.set.val) = some 1 ∧
        look ([(7, 1)] : Store Nat) (ks.stream * 2 + ks.dir.val) = some ks.set.val) ∧
      -- behind a command, and with none before it
      (secSt 1 0 { spdm := .session }).sec.queue ≠ [] ∧ ({ State.reset with sec := { spdm := .session } } : State).sec.queue = [] := by decide

/-- The clocks at the ends of their ranges; a granule scrubbed; a counter at its limit; an image that waits. -/
theorem witness_power_and_error_results :
    (∀ f ∈ [1200, 1300, 2300, 2400], ({ State.reset with regs := { freq := f, draw := 2001 } } : State).regs.cap < 2001) ∧
      (2000#64).toNat % 4096 = State.reset.regs.cap ∧ (599#64).toNat % 4096 ≠ State.reset.regs.cap ∧ 105 < 106 ∧ ({ hotDies := [3] } : Regs).hotDies ≠ [] ∧
      (let s : State := { State.reset with mem := { bad := [(dramSize - 1) / 16] }, channels := [(7, { corrected := 4095 })] }
       dramSize - 1 < dramSize ∧ (dramSize - 1) / 16 ∈ s.mem.bad ∧ 0 / 16 ∉ s.mem.bad ∧ s.clock < (s.chan 7).hour + hourTicks ∧ (s.chan 7).corrected = 4095) ∧
      ({ State.reset with sec := { pending := some (5, 64), image := some 5 } } : State).sec.pending = some (5, 64) ∧
      (let g : Group := { demoGroup with epoch := some { saved := demoGroup.arch } }
       g.epoch.isSome = true ∧ (demo.teamOf g) = demoTeam ∧ (lookD demo.launches demoTeam.launch {}).status = 0x10 ∧ demoGroup.trapMode = false ∧
        Plain demo 2 [0, 1] demoGroup ∧ Whole demoGroup false 7 11 ∧ Resident demoGroup [0, 1] [31, 2, 1] ∧ 0 < dramSize ∧ scratchBase ≤ scratchLoc 63 0x1FFFFC) := by
  refine ⟨by decide, by decide, by decide, by decide, by decide, by decide, by decide, by decide, by decide, by decide, by decide, demo_plain, demo_whole _ _ _, demo_resident _, by decide, by decide⟩

/-! ### Witnesses: the whole machine -/

/-- A group at 0x10000, where EXIT and TRET stand, and its next issue decision. -/
def codeGroup (pc : BitVec 57) : Group := { soloGroup with arch := { soloGroup.arch with lanes := [{ pc := pc }] }, breakpoints := List.replicate 8 none }
def codeSt (pc : BitVec 57) : State :=
  { withTeam (codeGroup pc) soloTeam [0] with
    cur := .none, agenda := [.issue 2 0], parts := [(0, { running := some 0 })], mem := { bytes := [(0x10000, 0x46), (0x10002, 0xE1), (0x10003, 0x5F)] } }
def goesOn (s : State) : Bool := match step s with | .next _ => true | _ => false

/-- The cores and the sequencers at their next word, micro-op and step. -/
def bareRun : MatrixRun := { matRun with buffers := [] }
def matNext : State :=
  { matState bareRun with cur := .none, agenda := [.matrix 0], mem := { bytes := [(scratchLoc 0 0x411, 0x01), (scratchLoc 0 0x417, 0x10)] } }
def chainNext : State :=
  { chainState with cur := .none, agenda := [.chain 0]
                    ops := [(8, { copyOp with kind := .chain { begun := true, temps := List.replicate 8 (List.replicate 16 0), image := { uops := [0x68400000] } } })] }
def collNext (b : List Host.Cell) : State := { collState with cur := .none, agenda := [.coll 0], mem := { bytes := b } }

theorem witness_step_runs_what_it_fetches :
    (∀ pc ∈ [(0x10000#57, 0x46), (0x10002#57, 0x5FE1), (0x10006#57, 0)], let s := codeSt pc.1
      let s0 := ({ s with agenda := [] } : State).takeAnswers 2
      let g0 := s0.wakeLanes 2 (codeGroup pc.1)
      let g1 := g0.takeUp [0]
      let u := s0.setGroup 2 g1
      look s0.groups 2 = some (codeGroup pc.1) ∧ s0.teamRuns 1 = true ∧ (codeGroup pc.1).idle ≤ s0.ownClock (s0.teamOf (codeGroup pc.1)).core ∧ g0.convoyOf 0 = [0] ∧
        (u.fetchAt g1 (pcOf g1 [0]).toNat).toOption.map (·.2) = some pc.2 ∧ u.breakAt g1 (pcOf g1 [0]) = none) ∧
      decodeLane 0x46 = some .exit ∧ decodeLane 0x5FE1 = some .tret ∧ decodeLane 0 = none ∧ (codeGroup 0).epoch = none ∧ (codeGroup 0).drained = none ∧
      (let s := codeSt 0x10002
       let rq : Requester := { ctx := soloTeam.ctx, cluster := 0, core := 0, guide := false, team := 1 }
       ∀ a ∈ [0x10000, 0x10002, 0x10004], (s.checkAccess rq rootCap (a - 0x10000) 2 permX .fetch 2 (if a = 0x10004 then 1025 else 1024)).toOption.any (fun x => x.f.x.kind == .dram && x.f.x.out == a) = true ∧
         s.isBad a 2 = false ∧ s.codeStale a = false ∧ look (s.core 0).icache a = none) ∧
      -- an odd halfword, with the next one
      (((codeSt 0x10002).fetchHalf (codeGroup 0x10002) 0x10002 0).toOption.any (fun x => x.2 == 0x5FE1 && x.1.teamOf (codeGroup 0x10002) == soloTeam)) = true ∧
      (let s := matNext
       let u := ({ s with agenda := [] } : State).startMatrix 0
       (s.core 0).matrixHalted = false ∧ (u.core 0).matrix = some bareRun ∧ bareRun.pending = none ∧ bareRun.refill = false ∧ u.teamRuns 1 = true ∧
        (u.scratchRead (matTeam.requester 1) ((bareRun.entry.addr + 8 * bareRun.index) % 2 ^ 32) 8).toOption = some (scratchLoc 0 0x410) ∧
        (decodeMatrix (ofBytes (u.mem.getsUnder 0 (scratchLoc 0 0x410) 8))).isSome = true) ∧
      (let u := ({ chainNext with agenda := [] } : State).chainSequencer 0
       (chainNext.core 0).chainHalted = false ∧ (u.chainHead 0).any (fun h => h.2.run.begun && decodeChain h.2.run.word.toNat == some (.maxr 0 8)) = true) ∧
      (let s := collNext [(0x10000, 0x07)]
       let o : EngineOp := { copyOp with kind := .collective 0 0, flag := 15 }
       let u : State := { s with agenda := [] }
       let got := u.readInto (u.opRequester o) o {} (some collProg.cap) (collProg.offset + 32 * collProg.next) 32
       look s.colls 0 = some collProg ∧ look s.ops collProg.fetchOp = some o ∧ collProg.canStart = true ∧ o.state = .live ∧ o.out = none ∧ u.opRuns o = true ∧
        peerRead got.1.needs = none ∧ got.1.hitch = none ∧
        (decodeStep (ofBytes got.2)).isSome = true) ∧
      isCommand (.droop 0) = false ∧ (15#8).toNat ≤ 15 := by
  refine ⟨by decide +kernel, by decide, by decide, by decide, rfl, rfl, by decide +kernel, by decide +kernel, by decide +kernel, by decide +kernel, by decide +kernel, rfl, by decide⟩

/-- Walks of five levels and of three. -/
theorem witness_translation_results :
    (let s := ownedSt 1
     let c : Ctx := { s2en := true, s2root := 0x1000000 }
     let table := fun (k : Nat) => 0x1000000 + 0x1000 * (4 - k)
     let entry := fun (k : Nat) => s.readDWord 0 (table k + 8 * (0xFFF / 2 ^ (12 + 9 * k) % 512))
     c.s2en = true ∧ table 4 = c.s2root ∧ (∀ k < 5, table k < dramSize) ∧
      (∀ k < 5, 0 < k → (entry k).toNat % 16 = 1 ∧ (entry k).toNat / 2 ^ 12 % 2 ^ 40 * 2 ^ 12 = table (k - 1)) ∧ entry 0 = 0x300107 ∧
      (stage1 s c .fetch 0xFFF).toOption.any (fun f1 => !f1.ms && (stage2 s c f1.gpa).toOption.any (fun l =>
        !permits .fetch (entryR l.word) (entryW l.word) (entryX l.word) && permits .write (entryR l.word) (entryW l.word) (entryX l.word))) = true) ∧
      (let s := pageState soloGroup
       (s.readDWord 0 0x1002000).toNat = 0x1F ∧ (s.readDWord 0 0x1002008).getLsbD 0 = false ∧ 0x1F / 2 ^ 12 % 2 ^ 40 * 2 ^ 12 + 2 ^ (12 + 9 * 2) ≤ dramSize) ∧
      dramSize - 1 < dramSize ∧ dramSize < 2 ^ 52 := by
  refine ⟨⟨rfl, rfl, by decide, by decide +kernel, by decide +kernel, by decide +kernel⟩, by decide +kernel, by decide, by decide⟩

theorem witness_memory_stays_canonical : (codeSt 0x10000).memOk = true ∧ goesOn (codeSt 0x10000) = true := by decide +kernel
theorem witness_no_epoch_in_trap_mode : Orderly (codeSt 0x10006) ∧ goesOn (codeSt 0x10006) = true := by unfold Orderly; decide +kernel

theorem witness_decode_reads_back_encode : (Instr.addA16 31 31).wf = true ∧ (Instr.mload 0 0 0x100).wf = true ∧ (Instr.chainSel 0 0 0 0).wf = true := by decide +kernel
theorem witness_words_have_one_meaning :
    0xFFFF % 2 = 1 ∧ (decodeLane 0x00005FE1).isSome = true ∧ (decodeLane 0xFF06).isSome = true ∧ (decodeChain 0x68400000).isSome = true ∧ (decodeMatrix 0x1000000000000100).isSome = true := by decide +kernel

/-- A NOTIFY leaf at level 1 or 2, whose queue number is no multiple of 512, is told apart by its kind. -/
theorem witness_notify_leaf : ∀ j ∈ [1, 2], let e : DWord := 0x1067#64
    e.getLsbD 0 = true ∧ e.getLsbD 1 = true ∧ e.toNat / 2 ^ 5 % 4 = 3 ∧ e.toNat / 2 ^ 12 % 2 ^ 40 * 2 ^ 12 % 2 ^ (12 + 9 * j) ≠ 0 := by decide

/-- In both stages a pointer at levels 4 and 1, a leaf with W and not R at level 0, a leaf at level 3. -/
theorem witness_entry_kinds :
    (∀ l ∈ [0, 1, 3, 4], let s : State := { State.reset with mem := { bytes := [(0x1000, 0x01), (0x1008, 0x05), (0x1010, 0x03)] } }
      levelIndex l (1 * levelSize l) = 1 ∧ levelIndex l (2 * levelSize l) = 2 ∧ (s.readDWord 0 (0x1000 + 8 * (0 / 2 ^ (12 + 9 * l) % 512))) = 1#64 ∧
        (s.readDWord 0 (0x1000 + 8 * (levelSize l / 2 ^ (12 + 9 * l) % 512))) = 5#64 ∧
        (tableLoc s {} (0x1000 + 8 * (2 * levelSize l / 2 ^ (12 + 9 * l) % 512))).toOption = some (0x1010, 0) ∧ s.readDWord 0 0x1010 = 3#64) := by decide +kernel
/-! ### The manual's worked examples -/

/-- Section 7's draw, its conversion, the conversions of R250's examples, and section 7's quantised block. -/
theorem test_manual_numbers :
    srdraw 0x12345678 0 0 = 0x8798 ∧ cvt 2 (.sr 0x8798) false 0x3F87C000 = (0x39, fNX) ∧
      cvt 2 .rne false 0x3F87C000 = (0x38, fNX) ∧ cvt 17 .rne false 0xBECCCCCD = (0, fNX) ∧
      cvt 17 .rne false 0xBF19999A = (0, fNV) ∧ cvt 16 .rne false 0x4F7FFFFF = (0x7FFFFFFF, fNV) ∧
      quantMx ([0x447A0000#32, 0xC0400000#32, 0x3A83126F#32].map (fun w => Fmt.fp32.decode w.toNat) ++
        List.replicate 29 (Fmt.fp32.decode 0)) (.fmt .e4m3) (fun _ => .rne) = (0x80, 0x7E :: 0xBC :: List.replicate 30 0) := by
  decide +kernel

/-- Section 9's bit fields, its shuffle's source and its sum of fifteen lanes: 3.0 exactly, 2.0 in the fixed tree, inexact once. -/
theorem test_manual_lanes :
    extractField 0xF0000000 0x081C true = 0xFFFFFFFF ∧ extractField 0xF0000000 0x081C false = 0xF ∧
      insertField 0xAB 0x081C 0x12345678 = 0xB2345678 ∧
      (sumTree (reduxOp 1 0) (([0x4B800000#32, 0x3F800000, 0x3F800000, 0x3F800000, 0xCB800000, 0, 0, 0, 0].map (fun w => some (w, [(0, 0)]))) ++
        none :: List.replicate 6 (some (0#32, [(0, 0)]))) 4).map (fun y => (y.1, y.2.foldl (fun e q => e ||| q.2) 0)) =
        some (0x40000000, fNX) := by
  decide +kernel

/-- Section 8's loop and the words of sections 9 to 12. -/
theorem test_manual_words :
    decodeLane 0x291100B5 = some (.ld 4 2 5 2 1 2) ∧ decodeLane 0x59191F83 = some (.ffma 12 4 11 15 1) ∧
      decodeLane 0xFFFF4841 = some (.bra 1 0x7FFFA 0) ∧ decodeLane 0x444617D3 = some (.shflDown 8 6 2 true 15 1) ∧
      decodeLane 0x38263FD1 = some (.redux 1 7 6 15 0) ∧ decodeLane 0x1A2AB931 = some (.stmx 10 4 3 5 2 0) ∧
      decodeLane 0x088398D1 = some (.chain 2 3 4 1 0) ∧ decodeChain 0x08C00000 = some (.chainFsub 1 8 0) ∧
      decodeChain 0x30880000 = some (.chainFex2 1 1) ∧ decodeChain 0x61080000 = some (.sumr 2 1) ∧
      decodeChain 0x41900000 = some (.chainFrcp 3 2) ∧ decodeChain 0x10898000 = some (.chainFmul 1 1 3) ∧
      decodeChain 0x74080000 = some (.outq 0 1 0 0) := by
  decide +kernel

/-- Section 2's capability narrowed and restricted by a group on logical cluster 3. -/
theorem test_manual_capability :
    (match narrow { Cap.make (2 ^ 32) 8 (2 ^ 22) (permR + permW + permDERIVE) 4 0x2A 0 0 with tag := true } 0x120000000 25165925 with
      | .ok c =>
        (match restrict c (permR + permW + 1 * 2 ^ 9) 3 true with
          | .ok c1 => decide (c1.bits = 0x00180151018B0000D000000120000000 ∧ c1.tag = true ∧ c1.limit = 0x121800068)
          | .error _ => false)
      | .error _ => false) = true := by
  decide +kernel

/-- Section 4's channel of section 1's DPA, and the requests of section 3's load. -/
theorem test_manual_memory :
    channelOf 0x3145637ABC = 42 ∧ pseudoOf 0x3145637ABC = 1 ∧
      [0x0F#8, 0xFF, 0x01, 0x0A].map coalesce = [[(0, 64)], [(0, 128)], [(0, 16)], [(16, 16), (48, 16)]] := by
  decide +kernel

/-- Section 15's fault record 0x41. -/
theorem test_manual_fault_record :
    ({ id := none, fn := 3, asid := 7, fault := { stage2 := true, reason := 0, gpa := some 0x1234001000 }, gva := 0x70001000,
       access := Access.read.code, source := 0, cluster := 2, core := 5,
       parties := [.lanes 0 { cause := .pageFaultS2, addr := 0, lanes := [8], pc := 0, convoy := [8] }] } : FaultRec).bytes 0x41 0x4B2C8000 =
      toBytes 8 0x70001000 ++ toBytes 8 0x8000001234001000 ++ toBytes 8 0x000000410012CB20 ++ toBytes 8 0x00070061002A0001 := by
  decide +kernel

/-- The header of section 17's peer store, laid out by R410's table: KIND 2, DVDN 0x123 from bit 45, SVDN 0x045, TAG 7, LEN 1, the mask's high byte. -/
theorem test_manual_header :
    ({ tc := 0, dvdn := 0x123, svdn := 0x45, tag := 7, len := 1, op := 0, mask := 0x0F00, gpa := 0x1234567880, payload := List.replicate 16 0 } : Flit).header 2 =
      0x08246114001C400F := by
  decide +kernel

/-- R400: TADDR of a machine check on v9 of lane 5 is SRC 2 with the register in [4:0], the file in [6:5], the lane in [12:7]. -/
theorem test_check_register_address : checkRegAddr .v 9 5 = 0x2000_0000_0000_0289 ∧ checkRegAddr .p 3 63 = 0x2000_0000_0000_1FC3 := by decide

def struckDemo : State :=
  { demo with groups := [(2, { demoGroup with arch := { demoGroup.arch with struck := [{ lane := 1, file := .v, key := 2 }] } })] }

/-- R400, R464: ADD of a register with an uncorrectable value traps MACHINE_CHECK in the lane that reads it. -/
theorem test_struck_register :
    (match exec (.add 3 2 1 15 0) struckDemo with
      | .next t => (lookD t.groups 2 {}).tcause == 0x3F && (lookD t.groups 2 {}).tmask == 2 && (lookD t.groups 2 {}).taddr == 0x2000_0000_0000_0082 &&
          (lookD t.waybills 0 {}).entries.map (·.code) == [2]
      | _ => false) = true := by decide

/-- An MX format at each end of its codes, and the largest scale that is none. -/
theorem witness_mx_special_codes : isMx 8 = true ∧ isMx 13 = true ∧ 0xFE < 0xFF := by decide
end Sys2Proof.Tests
end

section
/-! What kind of entry a walk meets (R17): the pointer test and the leaf faults in terms of the entry's bits, one equation per kind of entry for each
of the two walks, and the obligation on the kinds of entries. -/

namespace Sys2Proof.Machine

/-! ### Entries -/

theorem isPointer_iff (e : DWord) : isPointer e = true ↔ e.getLsbD 1 = false ∧ e.getLsbD 2 = false ∧ e.getLsbD 3 = false := by
  simp [isPointer, entryR, entryW, entryX, and_assoc]

/-- A leaf that R17 calls malformed passes the test that `leaf2Fault` puts first, KIND_ATTR for a NOTIFY leaf: that one stops only levels 1 and 2,
and there only permissions other than W = 1 with R = 0. -/
theorem leaf2Fault_malformed {level : Nat} {e : DWord} (h : 2 < level ∨ (entryW e = true ∧ entryR e = false)) :
    leaf2Fault level e = some rMalformed := by
  have hattr : ¬((level = 1 ∨ level = 2) ∧ kindOf e = .notify ∧ (entryW e = false ∨ entryR e = true)) := by
    rintro ⟨hlevel, -, hperm⟩
    rcases h with hhigh | ⟨hw, hr⟩
    · omega
    · simp [hw, hr] at hperm
  rw [leaf2Fault, if_neg hattr]
  exact if_pos (h.imp_right .inl)

theorem leaf1Fault_malformed {level : Nat} {e : DWord} (h : 2 < level ∨ (entryW e = true ∧ entryR e = false)) :
    leaf1Fault level e = some rMalformed :=
  if_pos (h.imp_right .inl)

theorem asLeaf_word {level loc index : Nat} {e first free : DWord} {l : Leaf} (h : asLeaf level loc e first free index = .ok l) : l.word = e := by
  unfold asLeaf at h
  split at h
  · split at h <;> cases h
    rfl
  · cases h
    rfl

theorem exists_of_map_eq_ok {ε α β : Type} {f : α → β} {x : Except ε α} {b : β} (h : x.map f = .ok b) : ∃ a, x = .ok a ∧ f a = b := by
  cases x with
  | error r => cases h
  | ok a => exact ⟨a, rfl, Except.ok.inj h⟩

/-- What R17 calls a malformed leaf, in the form in which both leaf faults test it. -/
theorem leaf_refused {level : Nat} {e : DWord} (h : level = 3 ∨ level = 4 ∨ (e.getLsbD 2 = true ∧ e.getLsbD 1 = false)) :
    2 < level ∨ (entryW e = true ∧ entryR e = false) := by
  rcases h with rfl | rfl | hperm
  · exact .inl (by decide)
  · exact .inl (by decide)
  · exact .inr hperm

/-! ### The stage-2 walk at a valid entry -/

section Stage2
variable {s : State} {level table gpa : Nat} {e : DWord} (htable : table < dramSize) (he : s.readDWord 0 (table + 8 * levelIndex level gpa) = e)
  (hv : entryV e = true)
include htable he hv

theorem walk2_pointer_zero (hp : isPointer e = true) (hz : level = 0) : walk2 s level table gpa = .error rMalformed := by
  subst hz
  simp [walk2, Nat.not_le_of_lt htable, he, hv, hp]

theorem walk2_pointer_succ {l : Nat} (hp : isPointer e = true) (hl : level = l + 1) : walk2 s level table gpa = walk2 s l (entryOut e) gpa := by
  subst hl
  rw [walk2]
  simp [Nat.not_le_of_lt htable, he, hv, hp]

theorem walk2_leaf_fault {r : Nat} (hp : ¬isPointer e = true) (hr : leaf2Fault level e = some r) : walk2 s level table gpa = .error r := by
  rw [walk2.eq_def]
  simp [Nat.not_le_of_lt htable, he, hv, hp, hr]

theorem walk2_leaf_word {l : Leaf} (hp : ¬isPointer e = true) (h : walk2 s level table gpa = .ok l) : l.word = e := by
  cases hf : leaf2Fault level e with
  | some r => simp [walk2_leaf_fault htable he hv hp hf] at h
  | none =>
    rw [walk2.eq_def] at h
    simp only [Nat.not_le_of_lt htable, he, hv, hp, hf, ↓reduceIte, Bool.true_eq_false, Bool.false_eq_true] at h
    obtain ⟨leaf, hleaf, rfl⟩ := exists_of_map_eq_ok h
    have hword : leaf.word = e := asLeaf_word hleaf
    exact hword

end Stage2

/-! ### The stage-1 walk at a valid entry -/

section Stage1
variable {s : State} {c : Ctx} {level table gva loc serial : Nat} {e : DWord}
  (htable : tableLoc s c (table + 8 * levelIndex level gva) = .ok (loc, serial)) (he : s.readDWord serial loc = e) (hv : entryV e = true)
include htable he hv

theorem walk1_pointer_zero (hp : isPointer e = true) (hz : level = 0) : walk1 s c level table gva = .error { stage2 := false, reason := rMalformed } := by
  subst hz
  simp [walk1, htable, he, hv, hp]

theorem walk1_pointer_succ {l : Nat} (hp : isPointer e = true) (hl : level = l + 1) : walk1 s c level table gva = walk1 s c l (entryOut e) gva := by
  subst hl
  rw [walk1]
  simp [htable, he, hv, hp]

theorem walk1_leaf_fault {r : Nat} (hp : ¬isPointer e = true) (hr : leaf1Fault level e = some r) :
    walk1 s c level table gva = .error { stage2 := false, reason := r } := by
  rw [walk1.eq_def]
  simp [htable, he, hv, hp, hr]

theorem walk1_leaf_word {l : Leaf} {n : Nat} (hp : ¬isPointer e = true) (h : walk1 s c level table gva = .ok (l, n)) : l.word = e := by
  cases hf : leaf1Fault level e with
  | some r => simp [walk1_leaf_fault htable he hv hp hf] at h
  | none =>
    rw [walk1.eq_def] at h
    simp only [htable, he, hv, hp, hf, ↓reduceIte, Bool.true_eq_false, Bool.false_eq_true] at h
    split at h <;> cases h
    exact asLeaf_word ‹_›

end Stage1

/-- Settles O28: each walk goes on from a pointer's address below level 0 and answers MALFORMED at level 0; a leaf that R17 calls malformed is refused with
that reason, and a leaf that a walk returns carries the entry's word. -/
theorem entryKinds : Obligations.entry_kinds := by
  refine ⟨fun s level table gpa htable hv => ?stage2, fun s c level table gva loc serial htable hv => ?stage1⟩
  case stage2 =>
    rw [← isPointer_iff]
    refine ⟨fun hp => ⟨walk2_pointer_zero htable rfl hv hp, fun l => walk2_pointer_succ htable rfl hv hp⟩, fun hp => ⟨fun hbad => ?_, fun l => ?_⟩⟩
    · exact walk2_leaf_fault htable rfl hv hp (leaf2Fault_malformed (leaf_refused hbad))
    · exact walk2_leaf_word htable rfl hv hp
  case stage1 =>
    rw [← isPointer_iff]
    refine ⟨fun hp => ⟨walk1_pointer_zero htable rfl hv hp, fun l => walk1_pointer_succ htable rfl hv hp⟩, fun hp => ⟨fun hbad => ?_, fun l n => ?_⟩⟩
    · exact walk1_leaf_fault htable rfl hv hp (leaf1Fault_malformed (leaf_refused hbad))
    · exact walk1_leaf_word htable rfl hv hp

end Sys2Proof.Machine
end

section
/-! The special codes of MX blocks (R188 to R190): the value of an element under a scale of 0xFF, the value of the MXINT8 code 0x80, the codes that the
quantiser makes, and the obligation on them. -/

namespace Sys2Proof.Machine

/-! ### Reading an element -/

theorem exists_mxElem_of_isMx {n : Nat} (h : isMx n = true) : ∃ el, mxElem n = some el := by
  obtain ⟨hlo, hhi⟩ : 8 ≤ n ∧ n ≤ 13 := of_decide_eq_true h
  have hcodes : n = 8 ∨ n = 9 ∨ n = 10 ∨ n = 11 ∨ n = 12 ∨ n = 13 := by omega
  rcases hcodes with rfl | rfl | rfl | rfl | rfl | rfl <;> exact ⟨_, rfl⟩

theorem elemValue_of_mxElem {n : Nat} {el : Elem} (h : mxElem n = some el) (x code : Nat) : elemValue n x code = el.value x code := by
  simp only [elemValue, h]

@[simp] theorem Elem.value_nanScale (el : Elem) (code : Nat) : el.value 0xFF code = .nan :=
  if_pos rfl

/-- An MXINT8 code is a two's complement integer in steps of 2^-6 times the scale (R188). -/
theorem Elem.value_int8 {x : Nat} (hx : x ≠ 0xFF) (code : Nat) :
    Elem.int8.value x code = .num (decide ((BitVec.ofNat 8 code).toInt < 0)) (BitVec.ofNat 8 code).toInt.natAbs ((x : Int) - 127 - 6) :=
  if_neg hx

/-! ### Making an element -/

theorem le_clampInt (lo hi x : Int) : lo ≤ clampInt lo hi x :=
  Int.le_max_left _ _

theorem clampInt_le {lo hi : Int} (h : lo ≤ hi) (x : Int) : clampInt lo hi x ≤ hi :=
  Int.max_le.mpr ⟨h, Int.min_le_left _ _⟩

/-- Of the bytes, 0x80 alone is below -127 as a two's complement integer. -/
theorem toNat_ofInt_ne_0x80 {i : Int} (hlo : -127 ≤ i) (hhi : i ≤ 127) : (BitVec.ofInt 8 i).toNat ≠ 0x80 := by
  rw [BitVec.toNat_ofInt]
  omega

/-- The codes of a quantised MXINT8 block: 0 in a block of a NaN or an infinity, or else an integer clamped to -127 to 127 (R190). -/
theorem quantMx_int8_code {mode : Nat → Mode} {xs : List FVal} {code : Nat} (h : code ∈ (quantMx xs .int8 mode).2) :
    code = 0 ∨ ∃ i : Int, code = (BitVec.ofInt 8 (clampInt (-127) 127 i)).toNat := by
  unfold quantMx at h
  split at h
  case isTrue =>
    obtain ⟨_, -, rfl⟩ := List.mem_map.mp h
    exact .inl rfl
  case isFalse =>
    obtain ⟨k, hk, rfl⟩ := List.mem_mapIdx.mp h
    cases xs[k] with
    | nan => exact .inl rfl
    | inf neg => exact .inl rfl
    | num neg m e => exact .inr ⟨_, rfl⟩

theorem quantMx_int8_not_mem_0x80 (mode : Nat → Mode) (xs : List FVal) : 0x80 ∉ (quantMx xs .int8 mode).2 := by
  intro hmem
  rcases quantMx_int8_code hmem with hzero | ⟨i, hclamped⟩
  · exact absurd hzero (by decide)
  · exact toNat_ofInt_ne_0x80 (le_clampInt _ _ i) (clampInt_le (by decide) i) hclamped.symm

theorem quantBlock_codes (el : Elem) (mode : Nat → Mode) (ws : List Word) :
    (quantBlock el mode ws).2.1 = (quantMx (ws.map fun w => Fmt.fp32.decode w.toNat) el mode).2 :=
  rfl

/-- Settles O29: every MX format reads scale 0xFF as NaN, MXINT8 reads 0x80 as -128 steps, and clamping to -127 to 127 keeps that code out of a
quantised block. -/
theorem mxSpecialCodes : Obligations.mx_special_codes := by
  refine ⟨fun n code hmx => ?nanScale, fun x hx => ?int8Min, fun mode ws => ?block, fun mode xs => ?quantiser⟩
  case nanScale =>
    obtain ⟨el, hel⟩ := exists_mxElem_of_isMx hmx
    rw [elemValue_of_mxElem hel, Elem.value_nanScale]
  case int8Min =>
    have hmin : (BitVec.ofNat 8 0x80).toInt = -128 := by decide
    rw [elemValue_of_mxElem rfl, Elem.value_int8 (Nat.ne_of_lt hx), hmin]
    rfl
  case block =>
    rw [quantBlock_codes]
    exact quantMx_int8_not_mem_0x80 mode _
  case quantiser => exact quantMx_int8_not_mem_0x80 mode xs

end Sys2Proof.Machine
end

section
/-! Bytes read back under the key serial of a write (R89): the cells a run of bytes makes, a granule put under another key, and a whole data write. -/

namespace Sys2Proof.Machine

/-! ### A run of bytes as cells -/

theorem exists_mem_cellsAt {a k : Nat} {l : List Byte} : (∃ e ∈ cellsAt a l, e.1 = k) ↔ a ≤ k ∧ k < a + l.length := by
  induction l generalizing a with
  | nil => simp [cellsAt]
  | cons b r ih =>
    simp only [cellsAt, List.mem_cons, exists_eq_or_imp, ih, List.length_cons]
    omega

theorem Memory.sets_eq_setCells (m : Memory) (a : Nat) (l : List Byte) : m.sets a l = m.setCells (cellsAt a l) := by
  induction l generalizing m a with
  | nil => rfl
  | cons b r ih => exact ih (m.set a b) (a + 1)

theorem Memory.get_setCells_cellsAt (m : Memory) (a : Nat) (l : List Byte) (k : Nat) (hwf : m.wf = true) :
    (m.setCells (cellsAt a l)).get k = if a ≤ k ∧ k < a + l.length then (l[k - a]?).getD 0 else m.get k := by
  induction l generalizing m a with
  | nil => rw [if_neg (by simp)]; rfl
  | cons b r ih =>
    rw [cellsAt, Memory.setCells, ih (m.set a b) (a + 1) (m.set_wf a b hwf), List.length_cons]
    rcases Nat.lt_trichotomy k a with hlt | rfl | hgt
    · rw [if_neg (by omega), if_neg (by omega), m.get_set_other a k b (by omega)]
    · rw [if_neg (by omega), if_pos (by omega), m.get_set_same k b hwf]
      simp
    · have hindex : k - a = k - (a + 1) + 1 := by omega
      rw [m.get_set_other a k b (by omega), hindex, List.getElem?_cons_succ]
      exact ite_congr (propext (by omega)) (fun _ => rfl) (fun _ => rfl)

@[simp] theorem Memory.setCells_keys (m : Memory) (cells : List (Nat × Byte)) : (m.setCells cells).keys = m.keys := by
  induction cells generalizing m with
  | nil => rfl
  | cons e r ih => exact ih (m.set e.1 e.2)

@[simp] theorem Memory.sets_keys (m : Memory) (a : Nat) (l : List Byte) : (m.sets a l).keys = m.keys := by
  rw [m.sets_eq_setCells, m.setCells_keys]

theorem mem_granulesOf {cells : List (Nat × Byte)} {g : Nat} : g ∈ granulesOf cells ↔ ∃ e ∈ cells, granule e.1 = g := by
  suffices hfold : ∀ l, g ∈ cells.foldl (fun l c => insertNat l (granule c.1)) l ↔ g ∈ l ∨ ∃ e ∈ cells, granule e.1 = g by
    exact (hfold []).trans (by simp)
  induction cells with
  | nil => simp
  | cons e r ih =>
    intro l
    simp only [List.mem_cons, exists_eq_or_imp]
    rw [List.foldl_cons, ih, mem_insertNat, eq_comm (a := g), or_comm (a := granule e.1 = g), or_assoc]

theorem getElem?_toBytes {n i : Nat} (v : Nat) (hi : i < n) : (toBytes n v)[i]? = some (BitVec.ofNat 8 (v / 2 ^ (8 * i))) := by
  induction n generalizing v i with
  | zero => omega
  | succ n ih =>
    cases i with
    | zero => simp [toBytes]
    | succ i =>
      rw [toBytes, List.getElem?_cons_succ, ih (v / 256) (by omega), Nat.div_div_eq_div_mul, Nat.mul_succ, Nat.add_comm, Nat.pow_add]

/-! ### A granule put under another key -/

/-- A byte as read under any key depends on its own granule alone: on its key and its sixteen stored bytes. -/
theorem Memory.getUnder_congr {m m' : Memory} {k : Nat} (j : Nat) (hkey : m'.keyOf (granule k) = m.keyOf (granule k))
    (hget : ∀ i, granule i = granule k → m'.get i = m.get i) : m'.getUnder j k = m.getUnder j k := by
  have hbytes : m'.gets (16 * granule k) 16 = m.gets (16 * granule k) 16 := by
    refine List.map_congr_left fun x hx => hget x ?_
    obtain ⟨i, hi, rfl⟩ := List.mem_map.mp hx
    have hlt := List.mem_range.mp hi
    unfold granule
    omega
  unfold Memory.getUnder Memory.granuleUnder
  rw [hkey, hget k rfl, hbytes]

theorem Memory.getUnder_of_keyOf {m : Memory} {j k : Nat} (h : m.keyOf (granule k) = j) : m.getUnder j k = m.get k :=
  if_pos h

@[simp] theorem Memory.keyOf_rekey_same (m : Memory) (j g : Nat) : (m.rekey j g).keyOf g = j := by
  unfold Memory.rekey
  split
  next h => exact h
  next => by_cases hj : j = 0 <;> simp [Memory.keyOf, hj, lookD]

theorem Memory.keyOf_rekey_other (m : Memory) (j : Nat) {g i : Nat} (h : i ≠ g) : (m.rekey j g).keyOf i = m.keyOf i := by
  unfold Memory.rekey
  split
  next => rfl
  next => by_cases hj : j = 0 <;> simp [Memory.keyOf, hj, lookD, look_del_other, look_put_other, h]

theorem Memory.get_rekey {m : Memory} {j g : Nat} (k : Nat) (hwf : m.wf = true) (hkey : m.keyOf g ≠ j) :
    (m.rekey j g).get k = if granule k = g then BitVec.ofNat 8 ((m.granuleUnder j g).toNat / 2 ^ (8 * (k % 16))) else m.get k := by
  have hstore : (m.rekey j g).get k = (m.setCells (cellsAt (16 * g) (toBytes 16 (m.granuleUnder j g).toNat))).get k := by
    rw [Memory.rekey, if_neg hkey, ← m.sets_eq_setCells]
    rfl
  rw [hstore, m.get_setCells_cellsAt _ _ _ hwf, toBytes_length]
  unfold granule
  by_cases hg : k / 16 = g
  · have hindex : k - 16 * g = k % 16 := by omega
    rw [if_pos (by omega), if_pos hg, hindex, getElem?_toBytes _ (Nat.mod_lt k (by decide))]
    rfl
  · rw [if_neg (by omega), if_neg hg]

/-- What memory reads under a serial is the same once a granule is held under that serial (R89). -/
theorem Memory.getUnder_rekey (m : Memory) (j g k : Nat) (hwf : m.wf = true) : (m.rekey j g).getUnder j k = m.getUnder j k := by
  by_cases hkey : m.keyOf g = j
  · rw [Memory.rekey, if_pos hkey]
  · by_cases hg : granule k = g
    · subst hg
      rw [getUnder_of_keyOf (m.keyOf_rekey_same j _), get_rekey k hwf hkey, if_pos rfl, Memory.getUnder, if_neg hkey]
    · refine Memory.getUnder_congr j (m.keyOf_rekey_other j hg) fun i hi => ?_
      rw [get_rekey i hwf hkey, if_neg (hi ▸ hg)]

theorem Memory.getUnder_rekeys (gs : List Nat) (m : Memory) (j k : Nat) (hwf : m.wf = true) :
    (gs.foldl (fun m g => m.rekey j g) m).getUnder j k = m.getUnder j k := by
  induction gs generalizing m with
  | nil => rfl
  | cons g r ih => exact (ih _ (m.rekey_wf j g hwf)).trans (m.getUnder_rekey j g k hwf)

theorem Memory.keyOf_rekeys_kept (gs : List Nat) {m : Memory} {j i : Nat} (h : m.keyOf i = j) :
    (gs.foldl (fun m g => m.rekey j g) m).keyOf i = j := by
  induction gs generalizing m with
  | nil => exact h
  | cons g r ih =>
    refine ih ?_
    by_cases hi : i = g
    · rw [hi, m.keyOf_rekey_same]
    · rw [m.keyOf_rekey_other j hi, h]

theorem Memory.keyOf_rekeys {gs : List Nat} (m : Memory) (j : Nat) {i : Nat} (hi : i ∈ gs) :
    (gs.foldl (fun m g => m.rekey j g) m).keyOf i = j := by
  induction gs generalizing m with
  | nil => cases hi
  | cons g r ih =>
    rcases List.mem_cons.mp hi with rfl | htail
    · exact keyOf_rekeys_kept r (m.keyOf_rekey_same j i)
    · exact ih _ htail

/-! ### A data write -/

/-- Under the serial of a write, memory reads the bytes written where they went and is as it was elsewhere. -/
theorem Memory.getUnder_write (m : Memory) (j a : Nat) (l : List Byte) (k : Nat) (hwf : m.wf = true) :
    (m.write j (cellsAt a l)).getUnder j k = if a ≤ k ∧ k < a + l.length then (l[k - a]?).getD 0 else m.getUnder j k := by
  let gs := granulesOf (cellsAt a l)
  let m1 := gs.foldl (fun m g => m.rekey j g) m
  have hwf1 : m1.wf = true := Memory.rekeys_wf gs m j hwf
  have hsame : m1.getUnder j k = m.getUnder j k := Memory.getUnder_rekeys gs m j k hwf
  have hkeys : (m.write j (cellsAt a l)).keyOf (granule k) = m1.keyOf (granule k) := by
    show lookD (m1.setCells (cellsAt a l)).keys (granule k) 0 = m1.keyOf (granule k)
    rw [m1.setCells_keys]
    rfl
  by_cases hg : granule k ∈ gs
  · have hkey : m1.keyOf (granule k) = j := m.keyOf_rekeys j hg
    rw [getUnder_of_keyOf (hkeys.trans hkey), ← hsame, getUnder_of_keyOf hkey]
    exact m1.get_setCells_cellsAt a l k hwf1
  · have houtside : ∀ i, granule i = granule k → ∀ e ∈ cellsAt a l, e.1 ≠ i :=
      fun i hi e he hei => hg (mem_granulesOf.mpr ⟨e, he, hei ▸ hi⟩)
    have hrange : ¬(a ≤ k ∧ k < a + l.length) := fun hin =>
      have ⟨e, he, hek⟩ := exists_mem_cellsAt.mpr hin
      houtside k rfl e he hek
    rw [if_neg hrange, ← hsame]
    exact Memory.getUnder_congr j hkeys fun i hi => m1.get_setCells_other _ i (houtside i hi)

end Sys2Proof.Machine
end

section
/-! What a write that performs sets off (rollbacks, traps, monitors, the dirty map) leaves alone: memory beyond its bytes, and the SEC. -/

namespace Sys2Proof.Machine

/-- Memory and the SEC are the same in two states. -/
structure SameStore (s t : State) : Prop where
  mem : t.mem = s.mem
  sec : t.sec = s.sec

theorem SameStore.refl (s : State) : SameStore s s := ⟨rfl, rfl⟩

theorem SameStore.trans {s t u : State} (h : SameStore s t) (k : SameStore t u) : SameStore s u :=
  ⟨k.mem.trans h.mem, k.sec.trans h.sec⟩

theorem SameStore.of_eq {s t u : State} (h : SameStore t u) (hmem : t.mem = s.mem) (hsec : t.sec = s.sec) : SameStore s u :=
  ⟨h.mem.trans hmem, h.sec.trans hsec⟩

theorem SameStore.ite {s a b : State} (p : Prop) [Decidable p] (ha : SameStore s a) (hb : SameStore s b) : SameStore s (if p then a else b) := by
  split
  · exact ha
  · exact hb

theorem sameStore_foldl {α : Type} {f : State → α → State} (h : ∀ s a, SameStore s (f s a)) (l : List α) (s : State) :
    SameStore s (l.foldl f s) := by
  induction l generalizing s with
  | nil => exact .refl s
  | cons a r ih => exact (h s a).trans (ih (f s a))

theorem sameStore_giveToken (s : State) (gid : Nat) : SameStore s (s.giveToken gid) := by
  unfold State.giveToken
  split
  · exact ⟨rfl, rfl⟩
  · exact .refl s

theorem sameStore_endLaunch (s : State) (lid status : Nat) : SameStore s (s.endLaunch lid status) := by
  unfold State.endLaunch
  split
  next => exact .refl s
  next =>
    split
    · exact .refl s
    · exact ⟨rfl, rfl⟩

theorem sameStore_setGroup_giveToken (s : State) (gid : Nat) (g : Group) : SameStore s ((s.setGroup gid g).giveToken gid) :=
  (sameStore_giveToken _ gid).of_eq rfl rfl

theorem sameStore_takeTrap (s : State) (gid : Nat) (t : TrapInfo) : SameStore s (s.takeTrap gid t) := by
  cases hg : look s.groups gid with
  | none => rw [State.takeTrap, hg]; exact .refl s
  | some g =>
    cases hm : g.trapMode with
    | false => rw [s.takeTrap_entry gid t g hg hm]; exact sameStore_setGroup_giveToken s gid _
    | true => rw [s.takeTrap_double gid t g hg hm]; exact (sameStore_endLaunch _ _ _).of_eq rfl rfl

theorem sameStore_rollbackGroup (s : State) (gid : Nat) (counts : Bool) : SameStore s (s.rollbackGroup gid counts) := by
  unfold State.rollbackGroup
  split
  next => exact .refl s
  next =>
    split
    next => exact .refl s
    next =>
      refine .ite _ ((sameStore_takeTrap _ _ _).of_eq ?mem ?sec) (sameStore_setGroup_giveToken s gid _)
      case mem => exact (sameStore_setGroup_giveToken s gid _).mem
      case sec => exact (sameStore_setGroup_giveToken s gid _).sec

theorem sameStore_conflict (s : State) (by_ : Option Nat) (lines : List Nat) : SameStore s (s.conflict by_ lines) :=
  sameStore_foldl (fun t g => sameStore_rollbackGroup t g true) _ s

theorem sameStore_fire (s : State) (lines : List Nat) : SameStore s (s.fire lines) := by
  unfold State.fire
  refine .ite _ (.refl s) (((sameStore_foldl ?lanes _ s).trans (sameStore_foldl ?teams _ _)).trans ⟨rfl, rfl⟩)
  case lanes => exact fun t m => ⟨rfl, rfl⟩
  case teams =>
    intro t m
    split
    · exact ⟨rfl, rfl⟩
    · exact .refl t

theorem sameStore_perform (s : State) (by_ : Option Nat) (j : Nat) {cells : List (Nat × Byte)} (h : cells ≠ []) :
    SameStore { s with mem := s.mem.write j cells } (s.perform by_ j cells) := by
  rw [State.perform, if_neg (by simpa using h)]
  exact ((sameStore_conflict _ _ _).trans (sameStore_fire _ _)).of_eq rfl rfl

end Sys2Proof.Machine
end

section
/-! How a command of the SEC completes (R449): its status stands in its buffer, and it leaves the order of commands; then FWLOAD and FWCOMMIT
(R458, R459), and the obligation on them. -/

namespace Sys2Proof.Machine
open Sys2Proof.Claims

/-! ### The completion of a command -/

theorem secCommand_head {s : State} {op arg buf : Nat} {c : SecCmd} (h : SecHead s op arg buf c) (body : SecCmd → State → State × Nat) :
    secCommand op arg buf body s = .next ((body c s).1.secDone c (body c s).2) := by
  obtain ⟨hhead, hop, harg, hbuf, hreserved⟩ := h
  obtain ⟨rest, hqueue⟩ := List.head?_eq_some_iff.mp hhead
  simp only [secCommand, hqueue]
  exact if_pos ⟨hop, harg, hbuf, hreserved⟩

/-- The status and the number of a command, as its buffer takes them. -/
def SecCmd.answerBytes (c : SecCmd) (status : Nat) : List Byte := toBytes 4 status ++ toBytes 4 c.number

@[simp] theorem SecCmd.answerBytes_length (c : SecCmd) (status : Nat) : (c.answerBytes status).length = 8 := by
  simp [SecCmd.answerBytes]

theorem secWrite_perform {s : State} {buf : Nat} {l : List Byte} (h : buf + l.length ≤ dramSize) :
    s.secWrite buf 0 l = ((s.takeRange buf l.length true).below buf l.length 0 false true).perform none 0 (cellsAt buf l) :=
  if_pos h

/-- A command whose meaning leaves the SEC at k, its order and DONE untouched, completes with its status. -/
theorem secEnds_of_secDone {i : Instr} {s u : State} {c : SecCmd} {status : Nat} {k : Sec}
    (hexec : exec i s = .next (({ u with sec := k } : State).secDone c status)) (hqueue : k.queue = s.sec.queue) (hdone : k.done = s.sec.done) :
    SecEnds i s u c status k := by
  unfold SecEnds
  intro w v hinternal hop hfits hwf _ hsec
  have hend : ({ u with sec := k } : State).secDone c status = v.perform none 0 (cellsAt c.buf (c.answerBytes status)) := by
    simp only [State.secDone, hinternal, Bool.false_eq_true, if_false, State.onSec, if_neg hop, hqueue, hdone]
    exact secWrite_perform (l := c.answerBytes status) (by rwa [c.answerBytes_length])
  have hne : cellsAt c.buf (c.answerBytes status) ≠ [] := fun h => by cases h
  obtain ⟨hmem, hsecKept⟩ := sameStore_perform v none 0 hne
  refine ⟨_, hexec, ?_, fun n => ?_⟩
  · rw [hend, hsecKept]
    exact hsec
  · rw [hend, hmem]
    exact (v.mem.getUnder_write 0 c.buf _ n hwf).trans (by rw [c.answerBytes_length]; rfl)

/-- A command that changes nothing the SEC holds. -/
theorem secEnds_unchanged {i : Instr} {s u : State} {c : SecCmd} {status : Nat} (hexec : exec i s = .next (u.secDone c status))
    (hsec : u.sec = s.sec) : SecEnds i s u c status s.sec :=
  secEnds_of_secDone (by rw [← hsec]; exact hexec) rfl rfl

/-! ### FWLOAD -/

/-- The SVN, the body's length and the body's hash in the header that an FWLOAD's buffer holds. -/
def State.fwFields (s : State) (buf : Nat) : Nat × Nat × BitVec 384 := Config.fwHeader (s.secRead buf 8 128)

/-- The machine once an FWLOAD has read its buffer: the header, the body and four signatures. -/
def State.fwTaken (s : State) (buf : Nat) : State := s.secTake buf (136 + (s.fwFields buf).2.1 + 66432)

/-- The body of the image in an FWLOAD's buffer. -/
def State.fwBody (s : State) (buf : Nat) : List Byte := (s.fwTaken buf).secRead buf 136 (s.fwFields buf).2.1

/-- Whether the signatures over the header verify. -/
def State.fwSigned (s : State) (buf : Nat) : Bool :=
  Config.verifies (s.secRead buf 8 128 ++ (s.fwTaken buf).secRead buf (136 + (s.fwFields buf).2.1) 33216)

/-- What FWLOAD comes to: the machine it leaves, before the command completes, and the status (R458). The order of the checks is the model's choice
(log entry 95), as are a header and signatures whose meaning is free (log entry 8). -/
def State.fwJudge (s : State) (buf : Nat) : State × Nat :=
  let u := s.fwTaken buf
  let svn := (s.fwFields buf).1
  if s.fwSigned buf = false ∨ Config.sha384 (s.fwBody buf) ≠ (s.fwFields buf).2.2 then (u, secBadSignature)
  else if svn < u.sec.fuse ∨ 64 < svn then (u, secRollback)
  else (u.onSec fun k => { k with pending := some (Config.sha384 (s.secRead buf 8 128 ++ s.fwBody buf), svn) }, secOk)

theorem execFwload_eq_secCommand (arg buf : Nat) (s : State) :
    execFwload arg buf s = secCommand 6 arg buf (fun _ s0 => s0.fwJudge buf) s :=
  rfl

theorem exec_fwload {s : State} {arg buf : Nat} {c : SecCmd} (h : SecHead s 6 arg buf c) :
    exec (.fwload arg buf) s = .next ((s.fwJudge buf).1.secDone c (s.fwJudge buf).2) :=
  calc exec (.fwload arg buf) s
    _ = execFwload arg buf s := rfl
    _ = secCommand 6 arg buf (fun _ s0 => s0.fwJudge buf) s := execFwload_eq_secCommand arg buf s
    _ = .next ((s.fwJudge buf).1.secDone c (s.fwJudge buf).2) := secCommand_head h _

section Judge
variable {s : State} {buf : Nat}

theorem fwJudge_badSignature (h : s.fwSigned buf = false ∨ Config.sha384 (s.fwBody buf) ≠ (s.fwFields buf).2.2) :
    s.fwJudge buf = (s.fwTaken buf, 3) :=
  if_pos h

variable (hsigned : s.fwSigned buf = true) (hhash : Config.sha384 (s.fwBody buf) = (s.fwFields buf).2.2)
include hsigned hhash

theorem fwJudge_signed :
    s.fwJudge buf =
      if (s.fwFields buf).1 < (s.fwTaken buf).sec.fuse ∨ 64 < (s.fwFields buf).1 then (s.fwTaken buf, 4)
      else ((s.fwTaken buf).onSec fun k =>
        { k with pending := some (Config.sha384 (s.secRead buf 8 128 ++ s.fwBody buf), (s.fwFields buf).1) }, 1) :=
  if_neg (by simp [hsigned, hhash])

variable (hsec : (s.fwTaken buf).sec = s.sec)
include hsec

theorem fwJudge_rollback (hsvn : (s.fwFields buf).1 < s.sec.fuse ∨ 64 < (s.fwFields buf).1) : s.fwJudge buf = (s.fwTaken buf, 4) := by
  rw [fwJudge_signed hsigned hhash, hsec, if_pos hsvn]

theorem fwJudge_accepted (hfuse : s.sec.fuse ≤ (s.fwFields buf).1) (hmax : (s.fwFields buf).1 ≤ 64) :
    s.fwJudge buf =
      ({ s.fwTaken buf with
          sec := { s.sec with pending := some (Config.sha384 (s.secRead buf 8 128 ++ s.fwBody buf), (s.fwFields buf).1) } }, 1) := by
  rw [fwJudge_signed hsigned hhash, State.onSec, hsec, if_neg (by omega)]

end Judge

/-! ### FWCOMMIT -/

theorem exec_fwcommit {s : State} {arg buf : Nat} {c : SecCmd} (h : SecHead s 7 arg buf c) :
    exec (.fwcommit arg buf) s = .next (({ s with sec := { s.sec with fuse := max s.sec.fuse s.sec.svn } } : State).secDone c 1) :=
  calc exec (.fwcommit arg buf) s
    _ = execFwcommit arg buf s := rfl
    _ = _ := secCommand_head h _

/-- Settles O17: FWLOAD ends at the first of its checks that fails, or leaves the image to the next warm reset; FWCOMMIT takes the larger of the fuse count
and the running SVN. -/
theorem firmwareResults : Obligations.firmware_results := by
  refine ⟨fun s arg buf c hhead => ?fwload, fun s arg buf c hhead => ?fwcommit⟩
  case fwload =>
    intro head fields n u body signed hsec
    have hexec := exec_fwload hhead
    refine ⟨fun hbad => ?badSignature, fun hsigned hhash => ⟨fun hsvn => ?rollback, fun hfuse hmax => ?accepted⟩⟩
    case badSignature =>
      rw [fwJudge_badSignature hbad] at hexec
      exact secEnds_unchanged hexec hsec
    case rollback =>
      rw [fwJudge_rollback hsigned hhash hsec hsvn] at hexec
      exact secEnds_unchanged hexec hsec
    case accepted =>
      rw [fwJudge_accepted hsigned hhash hsec hfuse hmax] at hexec
      exact secEnds_of_secDone hexec rfl rfl
  case fwcommit =>
    have hexec := exec_fwcommit hhead
    refine ⟨fun hlt => ?advances, fun hle => ?stands⟩
    case advances =>
      rw [Nat.max_eq_right (Nat.le_of_lt hlt)] at hexec
      exact secEnds_of_secDone hexec rfl rfl
    case stands =>
      rw [Nat.max_eq_left hle] at hexec
      exact secEnds_unchanged hexec rfl

end Sys2Proof.Machine
end
